-- ==== Sys2Proof/Word.lean ====
section
/-! DEFINITION. Words, bytes, the part's index ranges and fixed-length tables.

The manual's words (16 bits) and bytes are bit vectors.  Every numbered thing of the part (master,
position, drawer, currency, denomination, ...) is named by its own `Fin` type, so a number that has
passed a range check cannot leave its range again.  A `Table` is the manual's table of a fixed number
of entries: a list that carries its length. -/

namespace Sys2Proof

/-- A backplane word is 16 bits (Formats chapter). -/
abbrev Word := BitVec 16

/-- Byte of a record image, a frame or a stripe. -/
abbrev Byte := BitVec 8

/-- Master number of a window: 0 to 3 station masters, 4 the officer (R177). -/
abbrev Master := Fin 5

/-- Teller position, and the screen that belongs to it (Terms; R146). -/
abbrev Position := Fin 12

/-- Drawer number: 0 to 11 teller drawers, 12 the vault (Terms). -/
abbrev DrawerNo := Fin 13

/-- Currency number: 0 home, 1 to 3 foreign (R1). -/
abbrev Currency := Fin 4

/-- Foreign currency, numbered from 0: the manual's currency `f + 1` (R44). -/
abbrev Foreign := Fin 3

/-- A denomination slot: currency `d / 12`, index `d % 12`.  Ascending slots are the manual's
"ascending currency and index" (R32). -/
abbrev Denom := Fin 48

/-- Passbook printer P0 or P1 (R115). -/
abbrev PrinterNo := Fin 2

/-- Row buffer number (R139). -/
abbrev BufferNo := Fin 192

/-- Row of a screen (R146). -/
abbrev Row := Fin 24

/-- The officer master. -/
def officerMaster : Master := 4

/-- The vault drawer. -/
def vault : DrawerNo := 12

/-- A table of exactly `n` entries. -/
structure Table (α : Type) (n : Nat) where
  list : List α
  len : list.length = n
deriving DecidableEq, Repr

namespace Table

variable {α β γ : Type} {n : Nat}

def get (t : Table α n) (i : Fin n) : α := t.list[i.val]'(by rw [t.len]; exact i.isLt)

def set (t : Table α n) (i : Fin n) (a : α) : Table α n := ⟨t.list.set i.val a, by simp [t.len]⟩

def modify (t : Table α n) (i : Fin n) (f : α → α) : Table α n := t.set i (f (t.get i))

def map (f : α → β) (t : Table α n) : Table β n := ⟨t.list.map f, by simp [t.len]⟩

def fill (n : Nat) (a : α) : Table α n := ⟨List.replicate n a, by simp⟩

def ofFn (f : Fin n → α) : Table α n := ⟨(List.finRange n).map f, by simp⟩

/-- Every entry with its number, in ascending order. -/
def entries (t : Table α n) : List (Fin n × α) := (List.finRange n).map fun i => (i, t.get i)

/-- The lowest-numbered entry that satisfies `p`. -/
def findIdx (p : α → Bool) (t : Table α n) : Option (Fin n) :=
  (List.finRange n).find? fun i => p (t.get i)

@[simp] theorem get_set_self (t : Table α n) (i : Fin n) (a : α) : (t.set i a).get i = a := by
  simp [get, set]

theorem get_set_ne (t : Table α n) {i j : Fin n} (a : α) (h : i ≠ j) :
    (t.set i a).get j = t.get j := by
  have : i.val ≠ j.val := fun e => h (Fin.ext e)
  simp [get, set, List.getElem_set_ne this]

theorem get_set (t : Table α n) (i j : Fin n) (a : α) :
    (t.set i a).get j = if i = j then a else t.get j := by
  split
  · subst_vars; simp
  · exact get_set_ne t a ‹_›

@[simp] theorem get_map (f : α → β) (t : Table α n) (i : Fin n) : (t.map f).get i = f (t.get i) := by
  simp [get, map]

@[simp] theorem get_fill (a : α) (i : Fin n) : (fill n a).get i = a := by
  simp [get, fill]

@[simp] theorem get_ofFn (f : Fin n → α) (i : Fin n) : (ofFn f).get i = f i := by
  simp [get, ofFn]

@[simp] theorem get_modify_self (t : Table α n) (i : Fin n) (f : α → α) :
    (t.modify i f).get i = f (t.get i) := by simp [modify]

theorem get_modify (t : Table α n) (i j : Fin n) (f : α → α) :
    (t.modify i f).get j = if i = j then f (t.get i) else t.get j := by
  simp [modify, get_set]

theorem ext_get {s t : Table α n} (h : ∀ i, s.get i = t.get i) : s = t := by
  obtain ⟨l, hl⟩ := s
  obtain ⟨m, hm⟩ := t
  congr
  apply List.ext_getElem (by rw [hl, hm])
  intro i h1 h2
  exact h ⟨i, hl ▸ h1⟩

end Table

end Sys2Proof
end

