-- ==== Sys2Proof/Config.lean ====
section
/-! DEFINITION. The limits the manual states as numbers, and the free values: what the manual leaves
open although the part goes on.  A free value has no body, so nothing can be proved about it. -/

namespace Sys2Proof.Config

/-- The amount limit of R23, R50 and R182 (AMOUNT_LIMIT). -/
def amountLimit : Nat := 99999999999

/-- Largest count of one denomination (R3). -/
def countMax : Nat := 65535

/-- Largest face value (R1). -/
def faceMax : Nat := 1000000

/-- Limits of the three hold classes (R85). -/
def ordinaryLimit : Nat := 16352
def reserveLimit : Nat := 16383
def sealLimit : Nat := 16384

/-- The count at which "journal high" is raised (R84). -/
def journalHigh : Nat := 15872

/-- Seconds in a day of the branch clock (R188). -/
def daySeconds : Nat := 86400

/-- The maximum travel of a feed, in steps (R126). -/
def maxTravel : Nat := 1500

/-- FREE VALUE.  The format generation and header check that the battery domain shows after the
battery was lost (R80 says only that such a store is found invalid).  Log entry 3. -/
opaque lostGeneration : Nat → Nat

/-- FREE VALUE.  See `lostGeneration`. -/
opaque lostCheck : Nat → Word

/-- FREE VALUE.  The 48 bits in which an amount beyond the signed 48-bit range stands in a response
or an image: R192 states no result there.  Log entry 4. -/
opaque wideAmount : Int → BitVec 48

end Sys2Proof.Config
end

