-- ==== Sys2Proof/Syntax.lean ====
section
/-! DEFINITION. The commands of the part: one constructor of `Instr` for each row of
spec/opcode_table.json, with the row's operands.

A request row carries the request's header (the master whose window it came through, its tag and its
officer flag) and its parameters in the order its rule names them.  A parameter is a `Fld`: absent,
present with words that stand for no value (R192), or a value.  Range checks belong to the rules, so
a numeric parameter holds any number its words can hold. -/

namespace Sys2Proof

/-- A field of a request body (R192): its mask bit clear, its words standing for no value, or a value. -/
inductive Fld (α : Type) where
  | absent
  | malformed
  | value (v : α)
deriving DecidableEq, Repr

/-- What the port knows of a request when it hands it on (R179): `spare` says that the body holds a
mask bit or a word that the request's parameters do not name (R192). -/
structure ReqHead where
  master : Master
  tag : Byte
  officer : Bool
  spare : Bool
deriving DecidableEq, Repr

/-- The five posting kinds (R23). -/
inductive PostKind where
  | deposit | withdrawal | exchangeBuy | exchangeSell | change
deriving DecidableEq, Repr

/-- Direction of a conversion (R50). -/
inductive Direction where
  | buy | sell
deriving DecidableEq, Repr

/-- Mode of PASSBOOK.NEWBOOK (R111). -/
inductive BookMode where
  | set | withdraw
deriving DecidableEq, Repr

/-- A tender entry of a posting (R23). -/
structure PostEntry where
  currency : Nat
  index : Nat
  countIn : Nat
  countOut : Nat
deriving DecidableEq, Repr

/-- A tender entry of a transfer or a vault movement (R65, R76). -/
structure CashEntry where
  currency : Nat
  index : Nat
  count : Nat
deriving DecidableEq, Repr

/-- A fee schedule as a request gives it (R46). -/
structure FeeFields where
  perMille : Nat
  minimum : Int
  maximum : Int
deriving DecidableEq, Repr

/-- A cell of ROW.WRITE: character code, then bright, reverse, underline and blink (R139). -/
structure Cell where
  code : Nat
  bright : Bool
  reverse : Bool
  underline : Bool
  blink : Bool
deriving DecidableEq, Repr

/-- A live-field source as FIELD.BIND names it, its parameters not yet checked (R143). -/
inductive SourceField where
  | drawerTotal (drawer currency : Nat)
  | drawerState (drawer : Nat)
  | rate (currency direction : Nat)
  | quoteLeft (position : Nat)
  | jobState (position : Nat)
  | dayState
  | clock
  | none
deriving DecidableEq, Repr

/-- CURRENCY.DEFINE (R2). -/
structure CurrencyDefineReq where
  currency : Fld Nat
  decimals : Fld Nat
  faceCount : Fld Nat
  faces : Fld (List Nat)
deriving DecidableEq, Repr

/-- DRAWER.SIGNON (R13). -/
structure SignonReq where
  position : Fld Nat
  teller : Fld Nat
  drawer : Fld Nat
deriving DecidableEq, Repr

/-- DRAWER.LIMITS (R9). -/
structure LimitsReq where
  drawer : Fld Nat
  soft : Fld Int
  hard : Fld Int
deriving DecidableEq, Repr

/-- DRAWER.COUNT (R16): the counted counts in ascending currency and index. -/
structure CountReq where
  drawer : Fld Nat
  counts : Fld (List Nat)
deriving DecidableEq, Repr

/-- CASH.POST (R23). -/
structure PostReq where
  position : Fld Nat
  kind : Fld PostKind
  account : Fld Nat
  amount : Fld Int
  quote : Fld Nat
  narrative : Fld Nat
  balance : Fld Int
  tender : Fld (List PostEntry)
deriving DecidableEq, Repr

/-- CASH.REVERSE (R38). -/
structure ReverseReq where
  position : Fld Nat
  sequence : Fld Nat
deriving DecidableEq, Repr

/-- RATE.SET (R45). -/
structure RateReq where
  currency : Fld Nat
  buy : Fld Nat
  sell : Fld Nat
deriving DecidableEq, Repr

/-- FEE.SET (R46). -/
structure FeeReq where
  currency : Fld Nat
  buy : Fld FeeFields
  sell : Fld FeeFields
  lifetime : Fld Nat
deriving DecidableEq, Repr

/-- QUOTE.REQUEST (R54). -/
structure QuoteReq where
  position : Fld Nat
  currency : Fld Nat
  direction : Fld Direction
  amount : Fld Int
deriving DecidableEq, Repr

/-- QUOTE.RELEASE (R58). -/
structure ReleaseReq where
  position : Fld Nat
  number : Fld Nat
deriving DecidableEq, Repr

/-- TRANSFER.OFFER (R65). -/
structure OfferReq where
  position : Fld Nat
  toDrawer : Fld Nat
  tender : Fld (List CashEntry)
  timeout : Fld Nat
deriving DecidableEq, Repr

/-- TRANSFER.ACCEPT (R68). -/
structure AcceptReq where
  number : Fld Nat
  tender : Fld (List CashEntry)
deriving DecidableEq, Repr

/-- VAULT.RECEIVE and VAULT.DISPATCH (R76). -/
structure VaultReq where
  reference : Fld Nat
  tender : Fld (List CashEntry)
deriving DecidableEq, Repr

/-- JOURNAL.READ (R94). -/
structure JournalReq where
  sequence : Fld Nat
  count : Fld Nat
deriving DecidableEq, Repr

/-- CLASS.SET (R98): the digits of the class, twelve digits from its first with the unused ones zero
(R192). -/
structure ClassReq where
  index : Fld Nat
  length : Fld Nat
  lead : Fld Nat
  passbook : Fld Bool
deriving DecidableEq, Repr

/-- PASSBOOK.ENQUIRE (R112). -/
structure PassbookReq where
  account : Fld Nat
  first : Fld Nat
deriving DecidableEq, Repr

/-- PASSBOOK.NEWBOOK (R111). -/
structure NewBookReq where
  position : Fld Nat
  account : Fld Nat
  mode : Fld BookMode
deriving DecidableEq, Repr

/-- PRINT.START (R120). -/
structure PrintReq where
  position : Fld Nat
  account : Fld Nat
  printer : Fld PrinterNo
deriving DecidableEq, Repr

/-- PRINT.CANCEL (R132). -/
structure CancelReq where
  position : Fld Nat
  job : Fld Nat
deriving DecidableEq, Repr

/-- PRINTER.PACE (R135). -/
structure PaceReq where
  printer : Fld PrinterNo
  column : Fld Nat
  needle : Fld Nat
  feed : Fld Nat
  pitch : Fld Nat
  margin : Fld Nat
  jam : Fld Nat
deriving DecidableEq, Repr

/-- ROW.WRITE (R142). -/
structure RowWriteReq where
  buffer : Fld Nat
  column : Fld Nat
  cells : Fld (List Cell)
deriving DecidableEq, Repr

/-- MAP.SET (R147): an absent buffer sets the entry blank. -/
structure MapReq where
  screen : Fld Nat
  row : Fld Nat
  buffer : Fld Nat
deriving DecidableEq, Repr

/-- FIELD.BIND (R143). -/
structure BindReq where
  buffer : Fld Nat
  slot : Fld Nat
  column : Fld Nat
  width : Fld Nat
  source : Fld SourceField
deriving DecidableEq, Repr

/-- SCREEN.UNLOCK (R154). -/
structure UnlockReq where
  position : Fld Nat
  teller : Fld Nat
deriving DecidableEq, Repr

/-- SCREEN.SETTINGS (R156). -/
structure ScreenSettingsReq where
  timeout : Fld Nat
  text : Fld (List Nat)
deriving DecidableEq, Repr

/-- LINE.SETTINGS (R167). -/
structure LineReq where
  branch : Fld Nat
  timeout : Fld Nat
deriving DecidableEq, Repr

/-- POSITION.BIND (R183). -/
structure PositionReq where
  position : Fld Nat
  master : Fld Nat
deriving DecidableEq, Repr

/-- CLOCK.SET (R188). -/
structure ClockReq where
  day : Fld Nat
  seconds : Fld Nat
deriving DecidableEq, Repr

/-- A read access: the master number that accompanies it and the offset of the word it reads (R177, R192). -/
structure WindowRead where
  master : Fin 8
  offset : Fin 2048
deriving DecidableEq, Repr

/-- The commands.  The requests carry their header; window accesses carry the master number that
accompanies the access (R177: numbers 5 to 7 are not answered); events carry what the outside world
gives with them. -/
inductive Instr where
  | currencyDefine (h : ReqHead) (r : CurrencyDefineReq)
  | drawerSignon (h : ReqHead) (r : SignonReq)
  | drawerSignoff (h : ReqHead) (position : Fld Nat)
  | drawerLimits (h : ReqHead) (r : LimitsReq)
  | drawerCount (h : ReqHead) (r : CountReq)
  | drawerAccept (h : ReqHead) (drawer : Fld Nat)
  | drawerEnquire (h : ReqHead) (drawer : Fld Nat)
  | cashPost (h : ReqHead) (r : PostReq)
  | cashReverse (h : ReqHead) (r : ReverseReq)
  | rateSet (h : ReqHead) (r : RateReq)
  | feeSet (h : ReqHead) (r : FeeReq)
  | quoteRequest (h : ReqHead) (r : QuoteReq)
  | quoteRelease (h : ReqHead) (r : ReleaseReq)
  | transferOffer (h : ReqHead) (r : OfferReq)
  | transferAccept (h : ReqHead) (r : AcceptReq)
  | transferDecline (h : ReqHead) (number : Fld Nat)
  | vaultReceive (h : ReqHead) (r : VaultReq)
  | vaultDispatch (h : ReqHead) (r : VaultReq)
  | journalRead (h : ReqHead) (r : JournalReq)
  | storeFormat (h : ReqHead)
  | classSet (h : ReqHead) (r : ClassReq)
  | passbookEnquire (h : ReqHead) (r : PassbookReq)
  | passbookNewbook (h : ReqHead) (r : NewBookReq)
  | printStart (h : ReqHead) (r : PrintReq)
  | printCancel (h : ReqHead) (r : CancelReq)
  | printerPace (h : ReqHead) (r : PaceReq)
  | printerReset (h : ReqHead) (printer : Fld PrinterNo)
  | rowClaim (h : ReqHead)
  | rowFree (h : ReqHead) (buffer : Fld Nat)
  | rowWrite (h : ReqHead) (r : RowWriteReq)
  | mapSet (h : ReqHead) (r : MapReq)
  | fieldBind (h : ReqHead) (r : BindReq)
  | screenActivity (h : ReqHead) (position : Fld Nat)
  | screenUnlock (h : ReqHead) (r : UnlockReq)
  | screenSettings (h : ReqHead) (r : ScreenSettingsReq)
  | dayOpen (h : ReqHead) (date : Fld Nat)
  | dayClose (h : ReqHead)
  | dayReopen (h : ReqHead)
  | daySeal (h : ReqHead)
  | daySend (h : ReqHead)
  | dayClear (h : ReqHead)
  | lineSettings (h : ReqHead) (r : LineReq)
  | positionBind (h : ReqHead) (r : PositionReq)
  | portSettings (h : ReqHead) (burst : Fld Nat)
  | faultRead (h : ReqHead)
  | faultClear (h : ReqHead)
  | clockSet (h : ReqHead) (r : ClockReq)
  | partStatus (h : ReqHead)
  | postAreaWrite (m : Fin 8) (offset : Fin 2048) (w : Word)
  | postWord (m : Fin 8) (w : Word)
  /-- The response-take word is the one at offset 65; a read at another offset is taken here too (log entry 29). -/
  | responseTake (r : WindowRead)
  | portStatusRead (m : Fin 8)
  | noticeTake (m : Fin 8)
  | noticeEnd (m : Fin 8)
  | requestHandout
  | powerWarning
  | powerWarningWithdrawn
  /-- `battery` says whether the store battery held since the part was last up (R80, R188). -/
  | powerUp (battery : Bool)
  | backplaneReset
  | secondTick
  | quoteTimeExpiry (number : Nat)
  | transferTimeout (number : Nat)
  | idleCountExpiry (position : Position)
  | ackTimerExpiry (screen : Position)
  | probeTimerExpiry (screen : Position)
  | rowSend (screen : Position)
  /-- A display-line frame carries its send number and the frame check as received (R193). -/
  | rowAck (screen : Position) (number : Byte) (check : Word)
  | probeAnswer (screen : Position) (number : Byte) (check : Word)
  | callWaitExpiry
  | responseTimerExpiry
  | endTimerExpiry
  | blockAgeTimeout
  /-- A head-office frame carries its payload and the frame check as received (R193). -/
  | ready (block : Word) (check : Word)
  | busy (check : Word)
  | ack (block : Word) (check : Word)
  | nak (block : Word) (check : Word)
  | closed (reference : List Byte) (check : Word)
  /-- All the bytes of a frame of unknown kind or wrong length (R193). -/
  | unknownFrame (bytes : List Byte)
  | bookPresent (p : PrinterNo)
  | bookRemoved (p : PrinterNo)
  | topEdge (p : PrinterNo) (steps : Fin 4096)
  | stepLimit (p : PrinterNo)
  /-- The bytes the stripe head read, or none for a book without a stripe (R123). -/
  | stripeReadComplete (p : PrinterNo) (stripe : Option (List Byte))
  | stripeWriteComplete (p : PrinterNo) (readBack : Option (List Byte))
  | lineDone (p : PrinterNo)
  | headHome (p : PrinterNo)
  | ejectDone (p : PrinterNo)
  | jamTimerExpiry (p : PrinterNo)
  | deliver
  | mainSupplyFall
deriving DecidableEq, Repr

end Sys2Proof
end

