-- ==== Sys2Proof/Decode.lean ====
section
/-! DEFINITION. The command a table word spells.  No row of the opcode table gives bits: the part takes its
commands from its windows, lines, sensors and supply, and a posted request is read from its words in
Machine/Requests.lean (R191, R192). -/

namespace Sys2Proof

/-- No row of the table is spelled by bits, so no word spells a command. -/
def decodeTableWord (_nbits _w : Nat) : Option Instr := none

end Sys2Proof
end

