-- ==== Sys2Proof/Machine/Layout.lean ====
section
/-! DEFINITION. Cells, live fields and the part-owned row buffers of R139 and R140. -/

namespace Sys2Proof.Machine

/-- A live-field source (R143), and the two sources of a drawer row, which name the position whose
bound drawer is shown (R140). -/
inductive Source where
  | drawerTotal (d : DrawerNo) (c : Currency)
  | drawerState (d : DrawerNo)
  | rate (f : Foreign) (dir : Direction)
  | quoteLeft (p : Position)
  | jobState (p : Position)
  | dayState
  | clock
  | rowTotal (p : Position) (c : Currency)
  | rowState (p : Position)
deriving DecidableEq, Repr

/-- A bound live field (R139); its decimals rule follows from its source (R145). -/
structure LiveField where
  column : Nat
  width : Nat
  source : Source
deriving DecidableEq, Repr

/-- Fields of a buffer: four slots of a master buffer, up to five of a part-owned one (R139). -/
abbrev FieldSet := Table (Option LiveField) 5

/-- The 80 cells of a row buffer (R139). -/
abbrev RowCells := Table Cell 80

/-- A cell with no attribute set. -/
def plainCell (code : Nat) : Cell := ⟨code, false, false, false, false⟩

/-- A blank cell holds code 32 with every attribute clear (R139). -/
def blankCell : Cell := plainCell 32

def blankRow : RowCells := Table.fill 80 blankCell

/-- The character codes of a text. -/
def codes (s : String) : List Nat := s.toList.map Char.toNat

/-- `cells` with `text` written from `column` rightwards, as far as the row reaches. -/
def putCells (column : Nat) (text : List Cell) (cells : RowCells) : RowCells :=
  Table.ofFn fun i =>
    if column ≤ i.val then (text[i.val - column]?).getD (cells.get i) else cells.get i

def putText (column : Nat) (text : List Nat) (cells : RowCells) : RowCells :=
  putCells column (text.map plainCell) cells

/-- The labels of part-owned buffer `b` on a blank row (R140). -/
def partLabels (b : BufferNo) : RowCells :=
  if b.val = 0 then
    putText 0 (codes "C1 BUY") (putText 20 (codes "SELL")
      (putText 40 (codes "C2 BUY") (putText 60 (codes "SELL") blankRow)))
  else if b.val = 1 then putText 0 (codes "C3 BUY") (putText 20 (codes "SELL") blankRow)
  else if b.val = 2 then putText 0 (codes "DAY") (putText 66 (codes "TIME") blankRow)
  else if b.val < 15 then putText 0 (codes "JOB") (putText 62 (codes "QUOTE") blankRow)
  else blankRow

/-- The live fields of part-owned buffer `b` (R140). -/
def partFields (b : BufferNo) : FieldSet :=
  let five (l : List LiveField) : FieldSet := Table.ofFn fun i => l[i.val]?
  if b.val = 0 then
    five [⟨8, 10, .rate 0 .buy⟩, ⟨26, 10, .rate 0 .sell⟩, ⟨48, 10, .rate 1 .buy⟩, ⟨66, 10, .rate 1 .sell⟩]
  else if b.val = 1 then five [⟨8, 10, .rate 2 .buy⟩, ⟨26, 10, .rate 2 .sell⟩]
  else if b.val = 2 then five [⟨4, 14, .dayState⟩, ⟨72, 8, .clock⟩]
  else if b.val < 15 then
    let p : Position := Fin.ofNat 12 (b.val - 3)
    five [⟨4, 14, .jobState p⟩, ⟨70, 4, .quoteLeft p⟩]
  else if b.val < 27 then
    let p : Position := Fin.ofNat 12 (b.val - 15)
    five [⟨0, 17, .rowState p⟩, ⟨20, 12, .rowTotal p 0⟩, ⟨35, 12, .rowTotal p 1⟩,
      ⟨50, 12, .rowTotal p 2⟩, ⟨65, 12, .rowTotal p 3⟩]
  else Table.fill 5 none

/-- Buffers 0 to 26 are owned by PART always (R139). -/
def partOwned (b : BufferNo) : Bool := b.val < 27

end Sys2Proof.Machine
end

