-- ==== Sys2Proof/Machine/Types.lean ====
section
/-! DEFINITION. The records, tables and sets the part's state is made of, unit by unit, as plain data. -/

namespace Sys2Proof.Machine

/-! ### Amounts -/

/-- A count for every denomination slot; slots of no defined denomination hold 0. -/
abbrev Counts := Table Nat 48

/-- Signed deltas for every denomination slot. -/
abbrev Deltas := Table Int 48

/-- An amount for every currency, in minor units of that currency. -/
abbrev Money := Table Nat 4

/-! ### Battery domain: clock and branch store -/

/-- The branch clock (R188), kept in the battery domain beside the store header (R80). -/
structure Clock where
  day : Nat
  seconds : Nat
  valid : Bool
deriving DecidableEq, Repr

/-- The store header (R80). -/
structure Header where
  marker : Bool
  generation : Nat
  check : Word
deriving DecidableEq, Repr

/-- Day states (Business Day chapter; R81). -/
inductive DayState where
  | noDay | opened | closing | sealed | sending | delivered
deriving DecidableEq, Repr

/-- The day record (R81). -/
structure DayRecord where
  state : DayState
  date : Option Nat
  lastDelivered : Option Nat
  ackThrough : Nat
  reference : Option (List Byte)
  used : Nat
  openCommits : List Nat
deriving DecidableEq, Repr

/-- Line settings (R159, R167). -/
structure LineSettings where
  branch : Option Nat
  timeout : Nat
deriving DecidableEq, Repr

/-- A currency entry (R1). -/
structure CurrencyEntry where
  defined : Bool
  decimals : Nat
  faces : List Nat
deriving DecidableEq, Repr

/-- Drawer states (R10). -/
inductive DrawerState where
  | idle | opened | difference | closed
deriving DecidableEq, Repr

/-- A drawer record (drawer table, R3), apart from its last counted counts, which are volatile (R16). -/
structure Drawer where
  state : DrawerState
  bound : Option Position
  opening : Counts
  current : Counts
  reserved : Counts
  receipts : Money
  payments : Money
  transfersIn : Money
  transfersOut : Money
  tally : Int
  soft : Nat
  hard : Nat
  excess : Bool
  attempts : Nat
  lastApplied : Nat
deriving DecidableEq, Repr

/-- An entry of the position table (R183). -/
structure PositionEntry where
  serving : Fin 4
  drawer : Option DrawerNo
  teller : Option Nat
deriving DecidableEq, Repr

/-- Transfer states (R63). -/
inductive TransferState where
  | offered | accepted | declined | returned
deriving DecidableEq, Repr

/-- A transfer record (R63); its tender as a count for each denomination. -/
structure Transfer where
  number : Nat
  state : TransferState
  fromDrawer : DrawerNo
  toDrawer : DrawerNo
  tender : Counts
  timeout : Nat
  remaining : Nat
  offerSeq : Nat
  endSeq : Option Nat
deriving DecidableEq, Repr

/-- A fee schedule (R44). -/
structure FeeSchedule where
  perMille : Nat
  minimum : Nat
  maximum : Nat
deriving DecidableEq, Repr

/-- A rate board entry: buy and sell rate, absent together (R44). -/
structure BoardEntry where
  rates : Option (Nat × Nat)
  buyFee : FeeSchedule
  sellFee : FeeSchedule
deriving DecidableEq, Repr

/-- The rate board (R44). -/
structure Board where
  rows : Table BoardEntry 3
  generation : Nat
  lifetime : Nat
  nextQuote : Nat
  lastApplied : Nat
deriving DecidableEq, Repr

/-- A class table entry (R97): `lead` is the number its `length` digits spell. -/
structure ClassEntry where
  length : Nat
  lead : Nat
  passbook : Bool
deriving DecidableEq, Repr

/-- A line's key: its date followed by its sequence (R99). -/
structure Key where
  date : Nat
  sequence : Nat
deriving DecidableEq, Repr

/-- A passbook line (R99). -/
structure Line where
  key : Key
  narrative : Nat
  amount : Int
  balance : Option Int
  reverses : Option Nat
  void : Bool
  inSnapshot : Bool
deriving DecidableEq, Repr

/-- A summary of folded lines (R99). -/
structure Summary where
  count : Nat
  net : Int
  first : Key
  last : Key
deriving DecidableEq, Repr

/-- An entry of the passbook account table (R99). -/
structure Account where
  number : Nat
  lines : List Line
  summary : Option Summary
  taken : Option Summary
  printed : Option (Nat × Nat)
  newBook : Bool
  jobRef : Bool
  activeDay : Nat
  activeSecond : Nat
deriving DecidableEq, Repr

/-- The six pacing values (R133). -/
structure Pace where
  column : Nat
  needle : Nat
  feed : Nat
  pitch : Nat
  margin : Nat
  jam : Nat
deriving DecidableEq, Repr

/-- Staged and applied pacing of a printer (R133, R134). -/
structure PacePair where
  staged : Pace
  applied : Pace
deriving DecidableEq, Repr

/-- Record kinds in the order of R82. -/
inductive RecordKind where
  | dayOpen | dayCloseBegin | dayReopen | daySeal | posting | reversal | transferOut | transferIn
  | transferReturn | vaultIn | vaultOut | difference | drawerClose | rateChange
deriving DecidableEq, Repr

/-- Passbook disposition (R82). -/
inductive Disposition where
  | none | held | notHeld
deriving DecidableEq, Repr

/-- The frozen values of a conversion (R32, R53). -/
structure Conversion where
  currency : Foreign
  amount : Nat
  rate : Nat
  gross : Nat
  fee : Nat
  net : Nat
  cash : Nat
  remainder : Nat
deriving DecidableEq, Repr

/-- The exchange part of a record (R82): a conversion with its quote number, or a board entry with the
quote lifetime and board generation (R47). -/
inductive ExchangePart where
  | conversion (values : Conversion) (quote : Nat)
  | board (currency : Foreign) (entry : BoardEntry) (lifetime generation : Nat)
deriving DecidableEq, Repr

/-- The Passbook Line Unit's answer to a reversal, in the order of R42. -/
inductive LineAnswer where
  | voided | contraHeld | contraNotHeld | none
deriving DecidableEq, Repr

/-- A journal record (R82). -/
structure Record where
  sequence : Nat
  time : Nat
  kind : RecordKind
  position : Option Position
  teller : Option Nat
  drawer : Option DrawerNo
  second : Option DrawerNo
  account : Option Nat
  postKind : Option PostKind
  homeAmount : Option Int
  exchange : Option ExchangePart
  tender : List (Denom × Int)
  narrative : Option Nat
  balance : Option Int
  reverses : Option Nat
  disposition : Disposition
  check : Word
  applied : Bool
deriving DecidableEq, Repr

/-- The branch store (R78).  `journal` holds the records at sequences 1 and up; those above the day
record's `used` stand until they are overwritten and are not read (R96).  `lastAnswer` is what the latest
handover of a reversal answered (R104; log entry 13). -/
structure Store where
  header : Header
  day : DayRecord
  lineSettings : LineSettings
  currencies : Table CurrencyEntry 4
  drawers : Table Drawer 13
  positions : Table PositionEntry 12
  burst : Nat
  transfers : Table (Option Transfer) 8
  nextTransfer : Nat
  board : Board
  classes : Table ClassEntry 8
  accounts : Table (Option Account) 64
  lastTaken : Option Key
  lastAnswer : LineAnswer
  carryCount : Nat
  pacing : Table PacePair 2
  journal : List Record
deriving DecidableEq, Repr

/-! ### Responses, notices and faults -/

/-- Outcome codes in the order of the table of R182. -/
inductive Code where
  | done | notPermitted | notYourPosition | badField | unknownRequest | wrongState | dayState
  | positionLocked | tenderMismatch | shortCount | countLimit | amountLimit | excessRestricted
  | noQuote | quoteBusy | tableFull | journalFull | notOwner | queueFull | storeInvalid
deriving DecidableEq, Repr

/-- One encoded value of a result field (R192). -/
inductive Item where
  | num (n : Nat)
  | wide (n : Nat)
  | amount (i : Int)
  | digits (n : Nat)
  | date (n : Nat)
  | text (cs : List Nat)
  | flag (b : Bool)
  | words (ws : List Word)
deriving DecidableEq, Repr

/-- A response (R181, R191).  Where its rule gives a field that may be absent it is `masked`: a presence
mask of its fields stands first (R192). -/
structure Response where
  kind : Nat
  tag : Byte
  code : Code
  masked : Bool
  fields : List (Option (List Item))
deriving DecidableEq, Repr

/-- Units in the order of the Abbreviations table (R191). -/
inductive UnitName where
  | bpp | dru | exu | tru | jsu | plu | pru | scu | dlu
deriving DecidableEq, Repr

/-- Fault kinds in the order of R187. -/
inductive FaultKind where
  | storeCheck | printerJam | sendFailed | restoreReplay | clockLost
deriving DecidableEq, Repr

/-- The fault record (R187). -/
structure FaultRecord where
  held : Bool
  kind : FaultKind
  source : UnitName
  detail : List Item
  day : Nat
  seconds : Nat
  lost : Nat
deriving DecidableEq, Repr

inductive AlertEvent where
  | softCrossed | excessSet | excessCleared
deriving DecidableEq, Repr

inductive TransferEvent where
  | offered | declined | timedOut
deriving DecidableEq, Repr

/-- Conditions of PRINT_ATTENTION in the order of R118. -/
inductive PrintCondition where
  | insertBook | turnPage | wrongBook | bookFull | outOfService
deriving DecidableEq, Repr

inductive ScreenEvent where
  | offline | online | locked
deriving DecidableEq, Repr

inductive PartialReason where
  | bookFull | bookPulled | cancelled | stripeNotWritten
deriving DecidableEq, Repr

inductive AbortReason where
  | jam | wrongBook | misfeed
deriving DecidableEq, Repr

inductive CancelReason where
  | request | daySeal | format
deriving DecidableEq, Repr

/-- Terminal outcomes of a job with their reasons (R116). -/
inductive JobEnd where
  | done
  | partly (r : PartialReason)
  | aborted (r : AbortReason)
  | cancelled (r : CancelReason)
deriving DecidableEq, Repr

/-- Failure reasons of the sender in the order of R170. -/
inductive SendFailure where
  | busyLimit | noAnswer | badResume | retryLimit | endLimit | storeCheck
deriving DecidableEq, Repr

/-- What a notice tells (R185, R191). -/
inductive Detail where
  | fault (kind : FaultKind) (source : UnitName) (items : List Item)
  | drawerAlert (d : DrawerNo) (event : AlertEvent) (total : Option Nat)
  | dayChanged (state : DayState)
  | journalHigh (used : Nat)
  | passbookFull (account : Nat)
  | sendFailed (reason : SendFailure) (through : Nat)
  | delivered (reference : List Byte)
  | printAttention (condition : PrintCondition) (job : Nat) (printer : PrinterNo) (attempts : Nat)
  | transfer (event : TransferEvent) (number : Nat) (fromDrawer toDrawer : DrawerNo)
  | printDone (job : Nat) (printer : PrinterNo) (outcome : JobEnd)
  | quoteExpired (number : Nat)
  | screen (event : ScreenEvent) (screen : Position)
deriving DecidableEq, Repr

/-- A notice in a set: its newest detail and its repeat count (R185). -/
structure Notice where
  detail : Detail
  repeats : Nat
deriving DecidableEq, Repr

/-! ### Volatile state of the units -/

/-- Main supply: up; up with the store shut by a power warning (R89); or off. -/
inductive Power where
  | up | shut | off
deriving DecidableEq, Repr

/-- Restart causes (R189). -/
inductive RestartCause where
  | clean | replay | storeInvalid | format
deriving DecidableEq, Repr

/-- Volatile state of the Journal and Store Unit: holds outstanding (R85), restart cause (R189). -/
structure Jsu where
  holds : Nat
  cause : RestartCause
deriving DecidableEq, Repr

/-- An acceptance whose deliver has not yet been made (R69): what its remaining steps need.  `total` and `excess` are
the to-drawer's home total and excess mark after the receive. -/
structure Delivery where
  head : ReqHead
  number : Nat
  sequence : Nat
  fromDrawer : DrawerNo
  toDrawer : DrawerNo
  tender : Counts
  total : Nat
  excess : Bool
deriving DecidableEq, Repr

inductive ExpiryReason where
  | time | superseded | released | dayClose | signoff
deriving DecidableEq, Repr

inductive QuoteState where
  | held | used | expired (r : ExpiryReason)
deriving DecidableEq, Repr

/-- A quote record (R53). -/
structure Quote where
  number : Nat
  state : QuoteState
  position : Position
  made : Nat
  direction : Direction
  values : Conversion
  generation : Nat
  life : Nat
deriving DecidableEq, Repr

/-- The quote table and its made-order count (R53, R62). -/
structure Exu where
  quotes : Table (Option Quote) 16
  made : Nat
deriving DecidableEq, Repr

/-- Engine states (R115). -/
inductive EngineState where
  | idle | busy | outOfService
deriving DecidableEq, Repr

/-- Why a stripe is being written: the job is ending (R128), the page turns (R127), or a misfeed
re-prompts (R125). -/
inductive WritePurpose where
  | finish | turn | retry
deriving DecidableEq, Repr

/-- Why a book is being ejected: the job is ending (R128), the page turns (R127), the job re-prompts
(R125), or a clearing eject (R119). -/
inductive EjectPurpose where
  | finish | turn | retry | clearing
deriving DecidableEq, Repr

/-- The motion of a mechanism that runs between operations (R119): still; the feed of an insertion; the
stripe read; a line up to LINE_DONE; the head's return under the jam timer; a stripe write and its
read-back, first or second; an eject. -/
inductive Motion where
  | still
  | feed
  | read
  | line
  | headReturn
  | write (why : WritePurpose) (second : Bool)
  | eject (why : EjectPurpose)
deriving DecidableEq, Repr

/-- An engine record (R115) with its motion (R119), its book-present sensor and whether a book is in
its feed (R122). -/
structure Engine where
  state : EngineState
  current : Option Nat
  queue : List Nat
  bookPosition : Nat
  motion : Motion
  present : Bool
  inFeed : Bool
deriving DecidableEq, Repr

/-- Job states (R116). -/
inductive JobState where
  | queued | awaitingBook | reading | printing | turnPage | writingStripe | ejecting
deriving DecidableEq, Repr

/-- An item of a snapshot (R107, R116). -/
inductive PrintItem where
  | summary (s : Summary)
  | line (l : Line)
deriving DecidableEq, Repr

/-- A job record (R116); `next` is page and line. -/
structure Job where
  id : Nat
  account : Nat
  position : Position
  printer : PrinterNo
  state : JobState
  outcome : Option JobEnd
  attempts : Nat
  edge : Option Nat
  snapshot : Option (List PrintItem)
  next : Option (Nat × Nat)
  cancel : Bool
deriving DecidableEq, Repr

/-- What a newest-job note says of its job (R118). -/
inductive NoteStatus where
  | live (s : JobState)
  | ended (e : JobEnd)
deriving DecidableEq, Repr

/-- A newest-job note (R118). -/
structure JobNote where
  id : Nat
  status : NoteStatus
deriving DecidableEq, Repr

/-- The Printer Unit (R115, R116, R118, R136). -/
structure Pru where
  engines : Table Engine 2
  jobs : Table (Option Job) 16
  nextJob : Nat
  notes : Table (Option JobNote) 12
  sealAnswered : Bool
deriving DecidableEq, Repr

/-- Owner of a row buffer (R139). -/
inductive Owner where
  | part | master (m : Master) | free
deriving DecidableEq, Repr

/-- A row buffer and its record (R139). -/
structure RowBuffer where
  owner : Owner
  refs : Nat
  fields : FieldSet
  changed : Bool
  cells : RowCells
deriving DecidableEq, Repr

/-- A screen record (R146).  Its state is computed from `silent`, `lockHeld` and `map`.  The line's
acknowledgement timer runs while a row is in flight (R149), its probe timer while the line is silent
(R151); `probe` is the send number of the latest probe of the present silence.  `tries` is 1 or 2 of the send in flight, and 0
while no row is in flight, where R146 gives no value (log entry 61). -/
structure Screen where
  silent : Bool
  lockHeld : Bool
  idle : Option Nat
  map : Table (Option BufferNo) 24
  dirty : Table Bool 24
  sendNo : Byte
  inFlight : Option Row
  tries : Nat
  probe : Option Byte
deriving DecidableEq, Repr

/-- The Screen Unit (R139, R146, R156). -/
structure Scu where
  buffers : Table RowBuffer 192
  screens : Table Screen 12
  idleTimeout : Nat
  lockText : List Nat
deriving DecidableEq, Repr

/-- Sender states in the order of R170. -/
inductive SenderState where
  | idle | calling | waitReady | sending | waitClosed | done | failed
deriving DecidableEq, Repr

/-- A block outstanding (R170), with the response timeout in force when it was sent (R167). -/
structure OutBlock where
  block : Nat
  retries : Nat
  age : Nat
  limit : Nat
deriving DecidableEq, Repr

/-- The sender record (R170). -/
structure Sender where
  state : SenderState
  calls : Nat
  wait : Option Nat
  outstanding : List OutBlock
  endTries : Nat
  timer : Option Nat
  anomalies : Nat
  failure : Option SendFailure
deriving DecidableEq, Repr

/-- A request as posted: its words, and the word count written to the post word (R178). -/
structure Posted where
  words : List Word
  written : Nat
deriving DecidableEq, Repr

/-- The window of a master with its queues and notice sets (R177, R178, R181, R185, R186). -/
structure Window where
  postArea : Table Word 64
  requests : List Posted
  responses : List Response
  responseArea : Table Word 1024
  waiting : Table (Option Notice) 8
  service : Table (Option Notice) 8
  latched : Table Word 10
  dropped : Nat
deriving DecidableEq, Repr

/-- A request in execution (R180); `discard` after a backplane reset (R190). -/
structure InExecution where
  request : Instr
  discard : Bool
deriving DecidableEq, Repr

/-- A changed source as its owner reports it.  A drawer-state report names the position whose binding
changed, where one did (R13, R14); `all` stands for a report of every source. -/
inductive Report where
  | total (d : DrawerNo) (c : Currency)
  | drawer (d : DrawerNo) (binding : Option Position)
  | rate (f : Foreign) (dir : Direction)
  | quoteLeft (p : Position)
  | jobState (p : Position)
  | dayState
  | clock
  | all
deriving DecidableEq, Repr

/-- An operation that has been asked of a unit and has not ended (R29, R48, R67, R100, R119, R144, R159, R180): the
request in execution at a master, the deliver of the acceptance in progress, and what waits at its unit: a second tick
there, a re-raise of offers, source reports, the start or the end of a position's binding at its screen, and an event (a
frame, a timer's expiry, a mechanism's event). -/
inductive Asked where
  | request (m : Master)
  | deliver
  | tick (u : UnitName)
  | reraise (d : DrawerNo)
  | report (l : List Report)
  | binding (p : Position) (starts : Bool)
  | event (i : Instr)
deriving DecidableEq, Repr

/-- The Backplane Port (R177 to R190).  `order` lists the operations asked and not ended, the one asked earliest
first. -/
structure Port where
  windows : Table Window 5
  lastServed : Master
  burstUsed : Nat
  inExecution : Table (Option InExecution) 5
  order : List Asked
  fault : FaultRecord
deriving DecidableEq, Repr

/-- A frame the part sends (R193): kind and payload. -/
structure Frame where
  kind : Nat
  payload : List Byte
deriving DecidableEq, Repr

/-- What one printed line shows (R126): a line's date, narrative, amount and, when present, balance-after; or
a summary's folded count, net amount and the dates of its first and last keys. -/
inductive PrintedText where
  | line (date narrative : Nat) (amount : Int) (balance : Option Int)
  | summary (count : Nat) (net : Int) (first last : Nat)
deriving DecidableEq, Repr

/-- A line printed in a book: its page and line there, and what it shows (R126). -/
structure PrintedLine where
  page : Nat
  line : Nat
  text : PrintedText
deriving DecidableEq, Repr

/-- What the part drives outward: the frames sent on the head-office line and on each display line, the lines
each printer has printed, the line-ready output (R170), and the word answered to the latest backplane read.
The three first-named lists are the MODEL's own record of what was sent and printed, oldest first (log
entry 38). -/
structure Outputs where
  line : List Frame
  displays : Table (List Frame) 12
  printed : Table (List PrintedLine) 2
  lineReady : Bool
  readData : Word
deriving DecidableEq, Repr

end Sys2Proof.Machine
end

