-- ==== Sys2Proof/Machine/Values.lean ====
section
/-! DEFINITION. The values STORE.FORMAT, power-up and the first power-up give the part's records. -/

namespace Sys2Proof.Machine

def zeroCounts : Counts := Table.fill 48 0
def zeroMoney : Money := Table.fill 4 0

/-- A drawer record as STORE.FORMAT sets it (R22). -/
def formatDrawer : Drawer where
  state := .idle
  bound := none
  opening := zeroCounts
  current := zeroCounts
  reserved := zeroCounts
  receipts := zeroMoney
  payments := zeroMoney
  transfersIn := zeroMoney
  transfersOut := zeroMoney
  tally := 0
  soft := 0
  hard := 0
  excess := false
  attempts := 0
  lastApplied := 0

/-- Position `p`'s default serving master is `p` div 3 (R183). -/
def defaultServing (p : Position) : Fin 4 := Fin.ofNat 4 (p.val / 3)

def freeFee : FeeSchedule := ⟨0, 0, 0⟩

/-- A rate board entry with no rates and no fees (R44). -/
def emptyBoardEntry : BoardEntry := ⟨none, freeFee, freeFee⟩

/-- The pacing values after STORE.FORMAT (R133). -/
def formatPace : Pace := ⟨1000, 400, 2000, 48, 120, 500⟩

/-- The store areas as STORE.FORMAT writes them (R93), under a header given apart.  Home currency has 2 decimals (R1); those
of an undefined foreign currency the manual does not give (log entry 56). -/
def formatStore (h : Header) : Store where
  header := h
  day := ⟨.noDay, none, none, 0, none, 0, []⟩
  lineSettings := ⟨none, 10⟩
  currencies := (Table.fill 4 ⟨false, 0, []⟩).set 0 ⟨false, 2, []⟩
  drawers := Table.fill 13 formatDrawer
  positions := Table.ofFn fun p => ⟨defaultServing p, none, none⟩
  burst := 2
  transfers := Table.fill 8 none
  nextTransfer := 1
  board := ⟨Table.fill 3 emptyBoardEntry, 0, 120, 1, 0⟩
  classes := Table.fill 8 ⟨0, 0, false⟩
  accounts := Table.fill 64 none
  lastTaken := none
  lastAnswer := .none
  carryCount := 0
  pacing := Table.fill 2 ⟨formatPace, formatPace⟩
  journal := []

/-- The lock text at power-up and after STORE.FORMAT (R156). -/
def defaultLockText : List Nat := codes "POSITION LOCKED - SIGN ON TO CONTINUE"

def freeBuffer : RowBuffer := ⟨.free, 0, Table.fill 5 none, false, blankRow⟩

/-- A part-owned buffer with its labels and fields, its fields not yet rendered (R140). -/
def partBuffer (b : BufferNo) : RowBuffer := ⟨.part, 0, partFields b, false, partLabels b⟩

/-- A screen as power-up leaves it, DARK or, with a teller signed on, LOCKED (R157).  Its tries are 0, the model's value
while no row is in flight (R146; log entry 61). -/
def powerUpScreen (locked : Bool) : Screen :=
  ⟨false, locked, none, Table.fill 24 none, Table.fill 24 true, 0, none, 0, none⟩

/-- An engine as power-up leaves it (R137), with the sensor and feed as they are; its book position is 0 even with a
book in the feed (log entry 54). -/
def powerUpEngine (present inFeed : Bool) : Engine :=
  ⟨.idle, none, [], 0, if inFeed then .eject .clearing else .still, present, inFeed⟩

def powerUpPru (engines : Table Engine 2) : Pru :=
  ⟨engines, Table.fill 16 none, 1, Table.fill 12 none, false⟩

/-- The sender at power-up (R176). -/
def idleSender : Sender := ⟨.idle, 0, none, [], 0, none, 0, none⟩

def emptyWindow : Window :=
  ⟨Table.fill 64 0, [], [], Table.fill 1024 0, Table.fill 8 none, Table.fill 8 none, Table.fill 10 0, 0⟩

/-- The fault record as power-up clears it, before anything is captured (R187). -/
def clearFault : FaultRecord := ⟨false, .storeCheck, .bpp, [], 0, 0, 0⟩

/-- The port at power-up (R190). -/
def powerUpPort : Port := ⟨Table.fill 5 emptyWindow, 4, 0, Table.fill 5 none, [], clearFault⟩

/-- The header of a store that was never formatted: invalid, its check disagreeing (log entry 1). -/
def virginHeader : Header := ⟨false, 0, 0⟩

/-- The part-owned row of the day state and clock as a part in STORE_INVALID shows it at second 0
(R157); every other part row shows its labels alone. -/
def resetBuffer (b : BufferNo) : RowBuffer :=
  if b.val = 2 then
    { partBuffer b with
      cells := putText 4 (codes "STORE_INVALID") (putText 72 (codes "00:00:00") (partLabels b)) }
  else if partOwned b then partBuffer b
  else freeBuffer

/-- The CLOCK_LOST fault captured at the first power-up (R188). -/
def resetFault : FaultRecord := ⟨true, .clockLost, .bpp, [.num 0], 0, 0, 0⟩

end Sys2Proof.Machine
end

