-- ==== Sys2Proof/Machine/State.lean ====
section
/-! DEFINITION. The state of the part as plain data, and its state after reset.

`Store` is the battery-backed branch store of R78, area by area.  Everything else but the clock and
the sensors is volatile.  In STORE_INVALID (R90) the units hold STORE.FORMAT's values without writing
them: `State.store` then holds those values and `State.kept` the branch store as the battery keeps it. -/

namespace Sys2Proof.Machine

/-- The state of the part. -/
structure State where
  pending : List Instr
  power : Power
  clock : Clock
  store : Store
  kept : Option Store
  jsu : Jsu
  delivery : Option Delivery
  counted : Table (Option Counts) 13
  exu : Exu
  pru : Pru
  scu : Scu
  sender : Sender
  port : Port
  out : Outputs
  freeCount : Nat
deriving DecidableEq, Repr

/-- No command stops the part: an access or event that finds nothing to do leaves it as it stands, and a
request that cannot be taken is answered with an outcome (R182).  So there is no fault. -/
inductive Fault where
deriving DecidableEq, Repr

/-- Reasons a command has no meaning in the model. -/
inductive Refusal where
  /-- Raised by `exec` alone, for a row without a meaning.  Safe: the model stops. -/
  | notModelled (mnemonic : String)
deriving DecidableEq, Repr

/-- The part right after its first power-up: the battery domain holds nothing, so the store is found
invalid and the clock lost (R90, R188; log entry 1). -/
def State.reset : State where
  pending := []
  power := .up
  clock := ⟨0, 0, false⟩
  store := formatStore virginHeader
  kept := some (formatStore virginHeader)
  jsu := ⟨0, .storeInvalid⟩
  delivery := none
  counted := Table.fill 13 none
  exu := ⟨Table.fill 16 none, 0⟩
  pru := powerUpPru (Table.fill 2 (powerUpEngine false false))
  scu := ⟨Table.ofFn resetBuffer, Table.fill 12 (powerUpScreen false), 300, defaultLockText⟩
  sender := idleSender
  port := { powerUpPort with
    windows := powerUpPort.windows.modify officerMaster fun w =>
      { w with waiting := w.waiting.set 7 (some ⟨.fault .clockLost .bpp [.num 0], 0⟩) }
    fault := resetFault }
  out := ⟨[], Table.fill 12 [], Table.fill 2 [], false, 0⟩
  freeCount := 0

end Sys2Proof.Machine
end

