-- ==== Sys2Proof/WellFormed.lean ====
section
/-! DEFINITION. Well-formed commands: every operand lies in what its words, bytes or signals can hold
(R192, R193).  Whether a value is in the range its rule names is not asked here: that is the rule's own
field check. -/

namespace Sys2Proof

/-- A field whose value satisfies `p`, absent or malformed. -/
def Fld.holds {α : Type} (p : α → Bool) : Fld α → Bool
  | .value v => p v
  | _ => true

/-- One word (R192). -/
def fitsWord (n : Nat) : Bool := n < 65536

/-- Two words (R192). -/
def fitsTwo (n : Nat) : Bool := n < 4294967296

/-- A signed 48-bit number in three words (R192). -/
def fitsAmount (i : Int) : Bool := -140737488355328 ≤ i && i < 140737488355328

/-- Twelve decimal digits in three words (R192). -/
def fitsDigits (n : Nat) : Bool := n < 1000000000000

/-- Eight decimal digits in two words (R192). -/
def fitsDate (n : Nat) : Bool := n < 100000000

/-- An entry word of a tender (R192): currency in two bits, index in four. -/
def fitsPostEntry (e : PostEntry) : Bool :=
  e.currency < 4 && e.index < 16 && fitsWord e.countIn && fitsWord e.countOut

def fitsCashEntry (e : CashEntry) : Bool := e.currency < 4 && e.index < 16 && fitsWord e.count

def fitsFee (f : FeeFields) : Bool := fitsWord f.perMille && fitsAmount f.minimum && fitsAmount f.maximum

def fitsCell (c : Cell) : Bool := c.code < 256

def fitsSource : SourceField → Bool
  | .drawerTotal d c => fitsWord d && fitsWord c
  | .drawerState d => fitsWord d
  | .rate c d => fitsWord c && fitsWord d
  | .quoteLeft p => fitsWord p
  | .jobState p => fitsWord p
  | .dayState => true
  | .clock => true
  | .none => true

def Instr.wellFormed : Instr → Bool
  | .currencyDefine _ r => r.currency.holds fitsWord && r.decimals.holds fitsWord &&
      r.faceCount.holds fitsWord && r.faces.holds (·.all fitsTwo)
  | .drawerSignon _ r => r.position.holds fitsWord && r.teller.holds fitsWord && r.drawer.holds fitsWord
  | .drawerSignoff _ p => p.holds fitsWord
  | .drawerLimits _ r => r.drawer.holds fitsWord && r.soft.holds fitsAmount && r.hard.holds fitsAmount
  | .drawerCount _ r => r.drawer.holds fitsWord && r.counts.holds (·.all fitsWord)
  | .drawerAccept _ d => d.holds fitsWord
  | .drawerEnquire _ d => d.holds fitsWord
  | .cashPost _ r => r.position.holds fitsWord && r.account.holds fitsDigits &&
      r.amount.holds fitsAmount && r.quote.holds fitsWord && r.narrative.holds fitsWord &&
      r.balance.holds fitsAmount && r.tender.holds (·.all fitsPostEntry)
  | .cashReverse _ r => r.position.holds fitsWord && r.sequence.holds fitsWord
  | .rateSet _ r => r.currency.holds fitsWord && r.buy.holds fitsTwo && r.sell.holds fitsTwo
  | .feeSet _ r => r.currency.holds fitsWord && r.buy.holds fitsFee && r.sell.holds fitsFee &&
      r.lifetime.holds fitsWord
  | .quoteRequest _ r => r.position.holds fitsWord && r.currency.holds fitsWord && r.amount.holds fitsAmount
  | .quoteRelease _ r => r.position.holds fitsWord && r.number.holds fitsWord
  | .transferOffer _ r => r.position.holds fitsWord && r.toDrawer.holds fitsWord &&
      r.tender.holds (·.all fitsCashEntry) && r.timeout.holds fitsWord
  | .transferAccept _ r => r.number.holds fitsWord && r.tender.holds (·.all fitsCashEntry)
  | .transferDecline _ n => n.holds fitsWord
  | .vaultReceive _ r => r.reference.holds fitsDigits && r.tender.holds (·.all fitsCashEntry)
  | .vaultDispatch _ r => r.reference.holds fitsDigits && r.tender.holds (·.all fitsCashEntry)
  | .journalRead _ r => r.sequence.holds fitsWord && r.count.holds fitsWord
  | .storeFormat _ => true
  | .classSet _ r => r.index.holds fitsWord && r.length.holds fitsWord && r.lead.holds fitsDigits
  | .passbookEnquire _ r => r.account.holds fitsDigits && r.first.holds fitsWord
  | .passbookNewbook _ r => r.position.holds fitsWord && r.account.holds fitsDigits
  | .printStart _ r => r.position.holds fitsWord && r.account.holds fitsDigits
  | .printCancel _ r => r.position.holds fitsWord && r.job.holds fitsWord
  | .printerPace _ r => r.column.holds fitsWord && r.needle.holds fitsWord && r.feed.holds fitsWord &&
      r.pitch.holds fitsWord && r.margin.holds fitsWord && r.jam.holds fitsWord
  | .printerReset _ _ => true
  | .rowClaim _ => true
  | .rowFree _ b => b.holds fitsWord
  | .rowWrite _ r => r.buffer.holds fitsWord && r.column.holds fitsWord && r.cells.holds (·.all fitsCell)
  | .mapSet _ r => r.screen.holds fitsWord && r.row.holds fitsWord && r.buffer.holds fitsWord
  | .fieldBind _ r => r.buffer.holds fitsWord && r.slot.holds fitsWord && r.column.holds fitsWord &&
      r.width.holds fitsWord && r.source.holds fitsSource
  | .screenActivity _ p => p.holds fitsWord
  | .screenUnlock _ r => r.position.holds fitsWord && r.teller.holds fitsWord
  | .screenSettings _ r => r.timeout.holds fitsWord && r.text.holds (·.all (· < 256))
  | .dayOpen _ d => d.holds fitsDate
  | .dayClose _ => true
  | .dayReopen _ => true
  | .daySeal _ => true
  | .daySend _ => true
  | .dayClear _ => true
  | .lineSettings _ r => r.branch.holds fitsWord && r.timeout.holds fitsWord
  | .positionBind _ r => r.position.holds fitsWord && r.master.holds fitsWord
  | .portSettings _ b => b.holds fitsWord
  | .faultRead _ => true
  | .faultClear _ => true
  | .clockSet _ r => r.day.holds fitsWord && r.seconds.holds fitsTwo
  | .partStatus _ => true
  | .postAreaWrite _ _ _ => true
  | .postWord _ _ => true
  | .responseTake _ => true
  | .portStatusRead _ => true
  | .noticeTake _ => true
  | .noticeEnd _ => true
  | .requestHandout => true
  | .powerWarning => true
  | .powerWarningWithdrawn => true
  | .powerUp _ => true
  | .backplaneReset => true
  | .secondTick => true
  | .quoteTimeExpiry n => fitsWord n
  | .transferTimeout n => n < 256
  | .idleCountExpiry _ => true
  | .ackTimerExpiry _ => true
  | .probeTimerExpiry _ => true
  | .rowSend _ => true
  | .rowAck _ _ _ => true
  | .probeAnswer _ _ _ => true
  | .callWaitExpiry => true
  | .responseTimerExpiry => true
  | .endTimerExpiry => true
  | .blockAgeTimeout => true
  | .ready _ _ => true
  | .busy _ => true
  | .ack _ _ => true
  | .nak _ _ => true
  | .closed ref _ => ref.length < 256
  | .unknownFrame bytes => bytes.length < 65541
  | .bookPresent _ => true
  | .bookRemoved _ => true
  | .topEdge _ _ => true
  | .stepLimit _ => true
  | .stripeReadComplete _ stripe => (stripe.map (·.length == 10)).getD true
  | .stripeWriteComplete _ stripe => (stripe.map (·.length == 10)).getD true
  | .lineDone _ => true
  | .headHome _ => true
  | .ejectDone _ => true
  | .jamTimerExpiry _ => true
  | .deliver => true
  | .mainSupplyFall => true

end Sys2Proof
end

