-- ==== Sys2Proof/Machine/Codec.lean ====
section
/-! DEFINITION. Bytes, words and checks: the record check, the journal record image, frames, the passbook
stripe, and the words of responses and notices (Formats chapter; R83, R191 to R193). -/

namespace Sys2Proof.Machine

/-! ### Numbers in bytes and words -/

/-- The `k` low bytes of `n`, most significant first. -/
def bytesOf : Nat → Nat → List Byte
  | 0, _ => []
  | k + 1, n => BitVec.ofNat 8 (n / 256 ^ k) :: bytesOf k n

/-- `2 k` decimal digits of `n` packed two to a byte, high digit first. -/
def packedDigits : Nat → Nat → List Byte
  | 0, _ => []
  | k + 1, n =>
    BitVec.ofNat 8 (16 * (n / 100 ^ k / 10 % 10) + n / 100 ^ k % 10) :: packedDigits k n

/-- An amount as a signed 48-bit number (R192); beyond that range the bits are free (log entry 4). -/
def amountBits (i : Int) : BitVec 48 :=
  if fitsAmount i then BitVec.ofInt 48 i else Config.wideAmount i

def amountBytes (i : Int) : List Byte := bytesOf 6 (amountBits i).toNat

/-- A signed count in three bytes. -/
def countBytes (i : Int) : List Byte := bytesOf 3 (BitVec.ofInt 24 i).toNat

/-- Two bytes make one word, high byte first; an odd last byte is padded with zero. -/
def wordsOfBytes : List Byte → List Word
  | [] => []
  | [a] => [a ++ (0 : Byte)]
  | a :: b :: rest => (a ++ b) :: wordsOfBytes rest

/-- The number two bytes spell, high byte first. -/
def pairValue (a b : Byte) : Nat := 256 * a.toNat + b.toNat

/-! ### The record check (R83, R193) -/

/-- One data bit enters the check register. -/
def crcBit (reg : Word) (bit : Bool) : Word :=
  if reg.msb != bit then (reg <<< 1) ^^^ 4129 else reg <<< 1

def crcByte (reg : Word) (b : Byte) : Word :=
  [7, 6, 5, 4, 3, 2, 1, 0].foldl (fun r i => crcBit r (b.getLsbD i)) reg

/-- The check over a list of bytes: register all ones, high bit first, no final inversion. -/
def crc16 (bytes : List Byte) : Word := bytes.foldl crcByte 65535

/-- The header check over the valid marker and the format generation (R80; byte layout log entry 5). -/
def headerCheck (marker : Bool) (generation : Nat) : Word :=
  crc16 (bytesOf 1 marker.toNat ++ bytesOf 2 generation)

def Header.agrees (h : Header) : Bool := h.check == headerCheck h.marker h.generation

/-- The store is valid when its marker is set and its check agrees (R80). -/
def Header.valid (h : Header) : Bool := h.marker && h.agrees

/-- The format generation as PART.STATUS and the next format take it (R80). -/
def Header.readGeneration (h : Header) : Nat := if h.agrees then h.generation else 0

/-! ### Places of named values (R192) -/

def DayState.place : DayState → Nat
  | .noDay => 1 | .opened => 2 | .closing => 3 | .sealed => 4 | .sending => 5 | .delivered => 6

def DrawerState.place : DrawerState → Nat
  | .idle => 1 | .opened => 2 | .difference => 3 | .closed => 4

def directionPlace : Direction → Nat
  | .buy => 1 | .sell => 2

def postKindPlace : PostKind → Nat
  | .deposit => 1 | .withdrawal => 2 | .exchangeBuy => 3 | .exchangeSell => 4 | .change => 5

def RecordKind.place : RecordKind → Nat
  | .dayOpen => 1 | .dayCloseBegin => 2 | .dayReopen => 3 | .daySeal => 4 | .posting => 5
  | .reversal => 6 | .transferOut => 7 | .transferIn => 8 | .transferReturn => 9 | .vaultIn => 10
  | .vaultOut => 11 | .difference => 12 | .drawerClose => 13 | .rateChange => 14

/-- The code of a disposition in a record image. -/
def Disposition.imageCode : Disposition → Nat
  | .none => 0 | .held => 1 | .notHeld => 2

def Disposition.place (d : Disposition) : Nat := d.imageCode + 1

def TransferState.place : TransferState → Nat
  | .offered => 1 | .accepted => 2 | .declined => 3 | .returned => 4

def UnitName.place : UnitName → Nat
  | .bpp => 1 | .dru => 2 | .exu => 3 | .tru => 4 | .jsu => 5 | .plu => 6 | .pru => 7 | .scu => 8
  | .dlu => 9

def FaultKind.place : FaultKind → Nat
  | .storeCheck => 1 | .printerJam => 2 | .sendFailed => 3 | .restoreReplay => 4 | .clockLost => 5

def SendFailure.place : SendFailure → Nat
  | .busyLimit => 1 | .noAnswer => 2 | .badResume => 3 | .retryLimit => 4 | .endLimit => 5
  | .storeCheck => 6

def SenderState.place : SenderState → Nat
  | .idle => 1 | .calling => 2 | .waitReady => 3 | .sending => 4 | .waitClosed => 5 | .done => 6
  | .failed => 7

def RestartCause.place : RestartCause → Nat
  | .clean => 1 | .replay => 2 | .storeInvalid => 3 | .format => 4

def ExpiryReason.place : ExpiryReason → Nat
  | .time => 1 | .superseded => 2 | .released => 3 | .dayClose => 4 | .signoff => 5

def AlertEvent.place : AlertEvent → Nat
  | .softCrossed => 1 | .excessSet => 2 | .excessCleared => 3

/-- "Offered to your drawer" 1, "declined" 2, "timed out and returned" 3: the model's numbers (log entry 7). -/
def TransferEvent.place : TransferEvent → Nat
  | .offered => 1 | .declined => 2 | .timedOut => 3

def PrintCondition.place : PrintCondition → Nat
  | .insertBook => 1 | .turnPage => 2 | .wrongBook => 3 | .bookFull => 4 | .outOfService => 5

def ScreenEvent.place : ScreenEvent → Nat
  | .offline => 1 | .online => 2 | .locked => 3

def JobState.place : JobState → Nat
  | .queued => 1 | .awaitingBook => 2 | .reading => 3 | .printing => 4 | .turnPage => 5
  | .writingStripe => 6 | .ejecting => 7

/-- The terminal outcome's place in the table of R116. -/
def JobEnd.place : JobEnd → Nat
  | .done => 1 | .partly _ => 2 | .aborted _ => 3 | .cancelled _ => 4

/-- The reason's place in its outcome's row of R116; DONE has none and gives 0 (log entry 7). -/
def JobEnd.reasonPlace : JobEnd → Nat
  | .done => 0
  | .partly .bookFull => 1 | .partly .bookPulled => 2 | .partly .cancelled => 3
  | .partly .stripeNotWritten => 4
  | .aborted .jam => 1 | .aborted .wrongBook => 2 | .aborted .misfeed => 3
  | .cancelled .request => 1 | .cancelled .daySeal => 2 | .cancelled .format => 3

/-- A job's state in a response: its state, or past the seven states its terminal outcome (log entry 7). -/
def NoteStatus.place : NoteStatus → Nat
  | .live s => s.place
  | .ended e => 7 + e.place

def Code.number : Code → Nat
  | .done => 0 | .notPermitted => 1 | .notYourPosition => 2 | .badField => 3 | .unknownRequest => 4
  | .wrongState => 5 | .dayState => 6 | .positionLocked => 7 | .tenderMismatch => 8
  | .shortCount => 9 | .countLimit => 10 | .amountLimit => 11 | .excessRestricted => 12
  | .noQuote => 13 | .quoteBusy => 14 | .tableFull => 15 | .journalFull => 16 | .notOwner => 17
  | .queueFull => 18 | .storeInvalid => 19

/-! ### Encoded items (R192) -/

def Item.encode : Item → List Word
  | .num n => [BitVec.ofNat 16 n]
  | .wide n => [BitVec.ofNat 16 (n / 65536), BitVec.ofNat 16 n]
  | .amount i => wordsOfBytes (amountBytes i)
  | .digits n => wordsOfBytes (packedDigits 6 n)
  | .date n => wordsOfBytes (packedDigits 4 n)
  | .text cs => BitVec.ofNat 16 cs.length :: wordsOfBytes (cs.map (BitVec.ofNat 8))
  | .flag b => [BitVec.ofNat 16 b.toNat]
  | .words ws => ws

/-- The presence mask of a list of result fields: bit `i` for field `i` (R192). -/
def presenceMask {α : Type} : List (Option α) → Nat
  | [] => 0
  | f :: rest => f.isSome.toNat + 2 * presenceMask rest

def fieldWords (fields : List (Option (List Item))) : List Word :=
  fields.flatMap fun f => (f.getD []).flatMap Item.encode

def Response.body (r : Response) : List Word :=
  if r.masked then BitVec.ofNat 16 (presenceMask r.fields) :: fieldWords r.fields else fieldWords r.fields

/-- The words of a response: kind and tag, outcome, length in words, result fields (R191). -/
def Response.encode (r : Response) : List Word :=
  (BitVec.ofNat 8 r.kind ++ r.tag) :: BitVec.ofNat 16 r.code.number ::
    BitVec.ofNat 16 (3 + r.body.length) :: r.body

/-- The "none" word of R191. -/
def noneWord : Word := 65535

/-! ### Notice records (R185, R191) -/

/-- A notice kind's priority, which is its number (R185). -/
def Detail.kind : Detail → Fin 8
  | .fault _ _ _ => 7
  | .drawerAlert _ _ _ => 6
  | .dayChanged _ => 5
  | .journalHigh _ => 5
  | .passbookFull _ => 5
  | .sendFailed _ _ => 5
  | .delivered _ => 5
  | .printAttention _ _ _ _ => 4
  | .transfer _ _ _ _ => 3
  | .printDone _ _ _ => 2
  | .quoteExpired _ => 1
  | .screen _ _ => 0

def printerPlace (p : PrinterNo) : Nat := p.val + 1

def Detail.items : Detail → List Item
  | .fault k u items => [.num k.place, .num u.place] ++ items
  | .drawerAlert d e (some t) => [.num d.val, .num e.place, .amount t]
  | .drawerAlert d e none => [.num d.val, .num e.place, .words [noneWord, noneWord, noneWord]]
  | .dayChanged s => [.num 1, .num s.place]
  | .journalHigh n => [.num 2, .num n]
  | .passbookFull a => [.num 3, .digits a]
  | .sendFailed r k => [.num 4, .num r.place, .num k]
  | .delivered ref => [.num 5, .text (ref.map BitVec.toNat)]
  | .printAttention c j p n =>
    [.num c.place, .num j, .num (printerPlace p)] ++ (if c = .wrongBook then [.num n] else [])
  | .transfer e n f t => [.num e.place, .num n, .num f.val, .num t.val]
  | .printDone j p o => [.num j, .num (printerPlace p), .num o.place, .num o.reasonPlace]
  | .quoteExpired n => [.num n]
  | .screen e p => [.num e.place, .num p.val]

/-- Word 0 of the notice record: repeat count and kind. -/
def Notice.head (n : Notice) : Word := BitVec.ofNat 16 (256 * n.repeats + n.detail.kind.val)

/-- The words after word 0; the words after the last item read zero. -/
def Notice.rest (n : Notice) : Table Word 10 :=
  let ws := n.detail.items.flatMap Item.encode
  Table.ofFn fun i => (ws[i.val]?).getD 0

/-! ### The journal record image -/

def tenderBytes (e : Denom × Int) : List Byte :=
  BitVec.ofNat 8 (64 * (e.1.val / 12) + e.1.val % 12) :: countBytes e.2

def feeBytes (f : FeeSchedule) : List Byte :=
  bytesOf 1 f.perMille ++ bytesOf 6 f.minimum ++ bytesOf 6 f.maximum

/-- Absent rates stand as zeros (log entry 8). -/
def ExchangePart.bytes : ExchangePart → List Byte
  | .conversion v q =>
    bytesOf 1 (v.currency.val + 1) ++ bytesOf 4 v.amount ++ bytesOf 4 v.rate ++ bytesOf 6 v.gross ++
      bytesOf 6 v.fee ++ bytesOf 6 v.net ++ bytesOf 6 v.cash ++ bytesOf 3 v.remainder ++ bytesOf 2 q
  | .board c e life gen =>
    bytesOf 1 (c.val + 1) ++ bytesOf 4 ((e.rates.map Prod.fst).getD 0) ++
      bytesOf 4 ((e.rates.map Prod.snd).getD 0) ++ feeBytes e.buyFee ++ feeBytes e.sellFee ++
      bytesOf 2 life ++ bytesOf 2 gen

/-- Bytes of an optional field. -/
def optBytes {α : Type} (f : α → List Byte) (o : Option α) : List Byte := (o.map f).getD []

/-- Everything of a record's image that stands before the record check (R83).  A withheld record has
mask bit 6 cleared and no entries (R94). -/
def Record.imageBody (r : Record) (withheld : Bool) : List Byte :=
  let home := if withheld then none else r.homeAmount
  let tender := if withheld then [] else r.tender
  let mask := presenceMask [r.position.map fun _ => (), r.teller.map fun _ => (),
    r.drawer.map fun _ => (), r.second.map fun _ => (), r.account.map fun _ => (),
    r.postKind.map fun _ => (), home.map fun _ => (), r.exchange.map fun _ => (),
    r.narrative.map fun _ => (), r.balance.map fun _ => (), r.reverses.map fun _ => ()]
  bytesOf 2 r.sequence ++ bytesOf 3 r.time ++ bytesOf 1 r.kind.place ++ bytesOf 2 mask ++
    bytesOf 1 r.disposition.imageCode ++ bytesOf 1 tender.length ++
    optBytes (fun p => bytesOf 1 p.val) r.position ++ optBytes (bytesOf 2) r.teller ++
    optBytes (fun d => bytesOf 1 d.val) r.drawer ++ optBytes (fun d => bytesOf 1 d.val) r.second ++
    optBytes (packedDigits 6) r.account ++ optBytes (fun k => bytesOf 1 (postKindPlace k)) r.postKind ++
    optBytes amountBytes home ++ optBytes ExchangePart.bytes r.exchange ++
    optBytes (bytesOf 1) r.narrative ++ optBytes amountBytes r.balance ++
    optBytes (bytesOf 2) r.reverses ++ tender.flatMap tenderBytes

/-- The record check of a record (R83). -/
def Record.computeCheck (r : Record) : Word := crc16 (r.imageBody false)

def Record.checkOk (r : Record) : Bool := r.check == r.computeCheck

/-- The whole image, with the record check as stored and the applied mark. -/
def Record.image (r : Record) (withheld : Bool) : List Byte :=
  r.imageBody withheld ++ bytesOf 2 r.check.toNat ++ bytesOf 1 r.applied.toNat

/-! ### Frames and the passbook stripe (R193) -/

/-- Kind, length and payload: what the frame check is taken over. -/
def Frame.unchecked (f : Frame) : List Byte :=
  bytesOf 1 f.kind ++ bytesOf 2 f.payload.length ++ f.payload

def Frame.check (f : Frame) : Word := crc16 f.unchecked

/-- All the bytes of a frame. -/
def Frame.bytes (f : Frame) : List Byte := f.unchecked ++ bytesOf 2 f.check.toNat

/-- Two attribute bytes of a cell: character code, then bright, reverse, underline, blink from bit 0. -/
def cellBytes (c : Cell) : List Byte :=
  bytesOf 1 c.code ++
    bytesOf 1 (c.bright.toNat + 2 * c.reverse.toNat + 4 * c.underline.toNat + 8 * c.blink.toNat)

def rowFrame (number : Byte) (row : Row) (cells : RowCells) : Frame :=
  ⟨1, number :: bytesOf 1 row.val ++ cells.list.flatMap cellBytes⟩

def probeFrame (number : Byte) : Frame := ⟨2, [number]⟩

/-- The ten bytes of a stripe that records account, page and next line. -/
def stripeBytes (account page line : Nat) : List Byte :=
  let body := packedDigits 6 account ++ bytesOf 1 page ++ bytesOf 1 line
  body ++ bytesOf 2 (crc16 body).toNat

/-- The number that packed digits spell; none when a digit is above 9. -/
def unpackDigits (bytes : List Byte) : Option Nat :=
  bytes.foldl (fun acc b => do
    let n ← acc
    if b.toNat / 16 ≤ 9 ∧ b.toNat % 16 ≤ 9 then some (100 * n + 10 * (b.toNat / 16) + b.toNat % 16)
    else none) (some 0)

/-- What a readable stripe says: account, page and next line. -/
structure StripeData where
  account : Nat
  page : Nat
  line : Nat
deriving DecidableEq, Repr

/-- Reading a stripe (R123): unreadable without a stripe, on a failing check, on a digit above 9, or
with a page outside 1 to 12 or a next line outside 1 to 21. -/
def readStripe : Option (List Byte) → Option StripeData
  | some [a, b, c, d, e, f, page, line, hi, lo] =>
    if pairValue hi lo = (crc16 [a, b, c, d, e, f, page, line]).toNat ∧ 1 ≤ page.toNat ∧
        page.toNat ≤ 12 ∧ 1 ≤ line.toNat ∧ line.toNat ≤ 21 then
      (unpackDigits [a, b, c, d, e, f]).map fun n => ⟨n, page.toNat, line.toNat⟩
    else none
  | _ => none

end Sys2Proof.Machine
end

