-- ==== Sys2Proof/Machine/Operands.lean ====
section
/-! DEFINITION. Operand forms: reading the fields of a request (R192), range checks, tender lists and
counts by denomination, and the checks of a request in the order its rule gives them (R182). -/

namespace Sys2Proof

/-- The value of a field, or `d` where it has none. -/
def Fld.getD {α : Type} (f : Fld α) (d : α) : α :=
  match f with
  | .value v => v
  | _ => d

def Fld.nat (f : Fld Nat) : Nat := f.getD 0
def Fld.int (f : Fld Int) : Int := f.getD 0

/-- The field is present, whatever its words spell. -/
def Fld.present {α : Type} : Fld α → Bool
  | .absent => false
  | _ => true

/-- The field is present with a value that satisfies `p`. -/
def Fld.required {α : Type} (p : α → Bool) : Fld α → Bool
  | .value v => p v
  | _ => false

/-- The field is absent, or present with a value that satisfies `p`. -/
def Fld.optional {α : Type} (p : α → Bool) : Fld α → Bool
  | .absent => true
  | .malformed => false
  | .value v => p v

/-- The field's value if it has one. -/
def Fld.toOption {α : Type} : Fld α → Option α
  | .value v => some v
  | _ => none

end Sys2Proof

namespace Sys2Proof.Machine

def between (lo hi n : Nat) : Bool := lo ≤ n && n ≤ hi

/-- The field is present and lies in `lo` to `hi`. -/
def inRange (lo hi : Nat) (f : Fld Nat) : Bool := f.required (between lo hi)

/-- Twelve decimal digits (R23). -/
def isDigits12 (f : Fld Nat) : Bool := f.required fitsDigits

/-- A value brought into its range and taken (Conventions). -/
def clamp (lo hi n : Nat) : Nat := max lo (min hi n)

def positionOf (f : Fld Nat) : Position := Fin.ofNat 12 f.nat
def drawerOf (f : Fld Nat) : DrawerNo := Fin.ofNat 13 f.nat
def bufferOf (f : Fld Nat) : BufferNo := Fin.ofNat 192 f.nat
def foreignOf (f : Fld Nat) : Foreign := Fin.ofNat 3 (f.nat - 1)

/-! ### Checks and verdicts -/

/-- One check of a request: whether it passes, and the outcome and detail on its failure. -/
structure Check where
  pass : Bool
  code : Code
  detail : List (Option (List Item)) := []
deriving DecidableEq, Repr

/-- The first check that fails gives the outcome (Conventions). -/
def firstFailure (checks : List Check) : Option Check := checks.find? fun c => !c.pass

/-- What the owning unit decides on a request: the state it leaves, the outcome and the result fields,
and whether it answers now (an acceptance answers after its deliver, R69). -/
structure Verdict where
  state : State
  code : Code
  masked : Bool
  fields : List (Option (List Item))
  answered : Bool
deriving DecidableEq, Repr

/-- The request is refused with the check's outcome and its detail, in every request without a presence mask: the model's
choice, for R192 says what result fields have a mask and says nothing of a detail (R24, R192; log entry 59). -/
def refuse (s : State) (c : Check) : Verdict := ⟨s, c.code, false, c.detail, true⟩

/-- The request is taken and answered DONE with the fields given. -/
def take (s : State) (fields : List (List Item)) : Verdict := ⟨s, .done, false, fields.map some, true⟩

/-- Taken, with result fields that may be absent (R192). -/
def takeMasked (s : State) (fields : List (Option (List Item))) : Verdict := ⟨s, .done, true, fields, true⟩

/-- A request with its checks: refused by the first that fails, otherwise `v`. -/
def judge (checks : List Check) (s : State) (v : Verdict) : Verdict :=
  match firstFailure checks with
  | some c => refuse s c
  | none => v

/-! ### Authority (R179, R183) -/

def isOfficer (h : ReqHead) : Bool := h.master == officerMaster

/-- A station master whose request carries the officer flag fails every authority check (R179). -/
def flagAllowed (h : ReqHead) : Bool := !h.officer || isOfficer h

/-- The serving master of a position (R183). -/
def servingMaster (s : State) (p : Position) : Master := (s.store.positions.get p).serving.castSucc

/-- The request comes from the position's serving master or from master 4 (R183). -/
def serves (h : ReqHead) (s : State) (p : Position) : Bool := isOfficer h || servingMaster s p == h.master

def anyMaster (h : ReqHead) : List Check := [⟨flagAllowed h, .notPermitted, []⟩]

def officerOnly (h : ReqHead) : List Check := [⟨isOfficer h, .notPermitted, []⟩]

/-- Authority of a request that names a position. -/
def forPosition (h : ReqHead) (s : State) (p : Position) : List Check :=
  [⟨flagAllowed h, .notPermitted, []⟩, ⟨serves h s p, .notYourPosition, []⟩]

/-- Range and authority of a position field. -/
def positionChecks (h : ReqHead) (s : State) (f : Fld Nat) : List Check :=
  ⟨inRange 0 11 f, .badField, []⟩ :: forPosition h s (positionOf f)

/-- Authority of a request that names a drawer (R16, R19). -/
def forDrawer (h : ReqHead) (s : State) (d : DrawerNo) : List Check :=
  ⟨flagAllowed h, .notPermitted, []⟩ ::
    match (s.store.drawers.get d).bound with
    | some p => [⟨serves h s p, .notYourPosition, []⟩]
    | none => [⟨isOfficer h, .notPermitted, []⟩]

/-- The body names nothing beyond the request's parameters (R192; log entry 9). -/
def bodyCheck (h : ReqHead) : Check := ⟨!h.spare, .badField, []⟩

/-! ### Denominations, counts and values (R1, R3, R4) -/

/-- The slot of index `i` of currency `c`. -/
def denomOf (c : Currency) (i : Fin 12) : Denom := ⟨12 * c.val + i.val, by omega⟩

def denomCurrency (d : Denom) : Currency := ⟨d.val / 12, by omega⟩

def denomIndex (d : Denom) : Fin 12 := ⟨d.val % 12, by omega⟩

/-- All denomination slots, in ascending currency and index. -/
def denoms : List Denom := List.finRange 48

def currencies : List Currency := List.finRange 4

def faceCount (s : State) (c : Currency) : Nat := (s.store.currencies.get c).faces.length

def isDefined (s : State) (c : Currency) : Bool := (s.store.currencies.get c).defined

/-- Face value of a slot, 0 where the currency's list does not reach. -/
def faceOf (s : State) (d : Denom) : Nat :=
  ((s.store.currencies.get (denomCurrency d)).faces[(denomIndex d).val]?).getD 0

/-- The slot is a denomination of a defined currency. -/
def isDenom (s : State) (d : Denom) : Bool :=
  isDefined s (denomCurrency d) && (denomIndex d).val < faceCount s (denomCurrency d)

def definedDenoms (s : State) : List Denom := denoms.filter (isDenom s)

def definedCurrencies (s : State) : List Currency := currencies.filter (isDefined s)

/-- The cash unit u: the home face at index 0 (R1). -/
def cashUnit (s : State) : Nat := faceOf s 0

/-- The slots of one currency. -/
def slotsOf (c : Currency) : List Denom := (List.finRange 12).map (denomOf c)

/-- The value of counts in one currency. -/
def valueOf (s : State) (c : Currency) (t : Counts) : Nat :=
  (slotsOf c).foldr (fun d acc => t.get d * faceOf s d + acc) 0

/-- The signed value of deltas in one currency. -/
def deltaValue (s : State) (c : Currency) (t : Deltas) : Int :=
  (slotsOf c).foldr (fun d acc => t.get d * (faceOf s d : Int) + acc) 0

/-- The value of the positive deltas of one currency (R4 step 2). -/
def inflow (s : State) (c : Currency) (t : Deltas) : Nat :=
  (slotsOf c).foldr (fun d acc => (t.get d).toNat * faceOf s d + acc) 0

/-- The value of the negative deltas of one currency, as a positive amount. -/
def outflow (s : State) (c : Currency) (t : Deltas) : Nat :=
  (slotsOf c).foldr (fun d acc => (-(t.get d)).toNat * faceOf s d + acc) 0

/-- The home total of a drawer record: the value of its current home counts. -/
def homeTotal (s : State) (d : Drawer) : Nat := valueOf s 0 d.current

def addCounts (a b : Counts) : Counts := Table.ofFn fun d => a.get d + b.get d
def subCounts (a b : Counts) : Counts := Table.ofFn fun d => a.get d - b.get d
def addMoney (a : Money) (f : Currency → Nat) : Money := Table.ofFn fun c => a.get c + f c
def subMoney (a : Money) (f : Currency → Nat) : Money := Table.ofFn fun c => a.get c - f c

/-- Counts with signed deltas added. -/
def applyDeltas (a : Counts) (t : Deltas) : Counts := Table.ofFn fun d => ((a.get d : Int) + t.get d).toNat

def negate (t : Deltas) : Deltas := t.map fun i => -i

def toDeltas (t : Counts) : Deltas := Table.map Int.ofNat t

/-- The entries other than 0 in ascending currency and index (R32). -/
def deltaEntries (t : Deltas) : List (Denom × Int) := t.entries.filter fun e => e.2 ≠ 0

/-- The deltas a record's entries stand for. -/
def entryDeltas (l : List (Denom × Int)) : Deltas :=
  Table.ofFn fun d => l.foldr (fun e acc => if e.1 = d then e.2 + acc else acc) 0

/-- Counts for every denomination of every defined currency, as a DRAWER_CLOSE record carries them (R82). -/
def closingEntries (s : State) (t : Counts) : List (Denom × Int) :=
  (definedDenoms s).map fun d => (d, (t.get d : Int))

/-- The counts a DRAWER.COUNT list gives, one for each defined denomination in ascending order (R192). -/
def countsOfList (s : State) (l : List Nat) : Counts :=
  Table.ofFn fun d => (((definedDenoms s).zip l).find? fun e => e.1 = d).elim 0 Prod.snd

/-! ### Tender lists (R23, R26, R65) -/

/-- Currency and index name a denomination of a defined currency (R1). -/
def namesDenom (s : State) (currency index : Nat) : Bool :=
  currency < 4 && isDefined s (Fin.ofNat 4 currency) && index < faceCount s (Fin.ofNat 4 currency)

def postEntryOk (s : State) (e : PostEntry) : Bool :=
  namesDenom s e.currency e.index && e.countIn ≤ Config.countMax && e.countOut ≤ Config.countMax &&
    (0 < e.countIn || 0 < e.countOut)

def cashEntryOk (s : State) (e : CashEntry) : Bool :=
  namesDenom s e.currency e.index && between 1 Config.countMax e.count

def lengthOk {α : Type} (l : List α) : Bool := between 1 12 l.length

/-- The net deltas of a posting's tender list (R4, R23). -/
def netDeltas (l : List PostEntry) : Deltas :=
  Table.ofFn fun d => l.foldr (fun e acc =>
    if e.currency = d.val / 12 ∧ e.index = d.val % 12 then (e.countIn : Int) - e.countOut + acc else acc) 0

/-- The summed counts of a transfer's or vault movement's tender list (R65, R76). -/
def summedCounts (l : List CashEntry) : Counts :=
  Table.ofFn fun d => l.foldr (fun e acc =>
    if e.currency = d.val / 12 ∧ e.index = d.val % 12 then e.count + acc else acc) 0

/-- An entry of the list names the currency. -/
def namesCurrency (l : List PostEntry) (c : Currency) : Bool := l.any fun e => e.currency == c.val

/-! ### Items of result fields -/

def optField {α : Type} (f : α → List Item) (o : Option α) : Option (List Item) := o.map f

def numField (n : Nat) : List Item := [.num n]

def countItems (s : State) (t : Counts) : List Item := (definedDenoms s).map fun d => .num (t.get d)

def moneyItems (s : State) (t : Money) : List Item := (definedCurrencies s).map fun c => .amount (t.get c)

/-- Currency and index of a slot, as a refusal's detail gives them (R24). -/
def denomDetail (d : Option Denom) : List (Option (List Item)) :=
  match d with
  | some d => [some [.num (denomCurrency d).val], some [.num (denomIndex d).val]]
  | none => []

end Sys2Proof.Machine
end

