-- ==== Sys2Proof/Machine/Ops.lean ====
section
/-! DEFINITION. Operations every unit shares: raising notices (R185), capturing faults (R187), journal
room, append and applied mark (R84 to R87), and placing responses (R181). -/

namespace Sys2Proof.Machine

/-! ### Notices (R185, R186) -/

def modifyWindow (m : Master) (f : Window → Window) (s : State) : State :=
  { s with port := { s.port with windows := s.port.windows.modify m f } }

/-- A notice enters a waiting set: it joins with repeat count 0, or replaces the detail of the one of
its kind and raises its repeat count, stopping at 255 (R185). -/
def addNotice (d : Detail) (w : Window) : Window :=
  { w with waiting := w.waiting.modify d.kind fun
      | none => some ⟨d, 0⟩
      | some n => some ⟨d, min 255 (n.repeats + 1)⟩ }

/-- Raise a notice at one master.  No notice is raised once the store is shut (R190). -/
def raiseTo (m : Master) (d : Detail) (s : State) : State :=
  if s.power = .up then modifyWindow m (addNotice d) s else s

def raiseOfficer (d : Detail) (s : State) : State := raiseTo officerMaster d s

/-- Raise a notice to the serving master of a position, as the table stands now (R185). -/
def raiseAt (p : Position) (d : Detail) (s : State) : State := raiseTo (servingMaster s p) d s

/-- The master a drawer's notices go to: its position's serving master; master 4 for an unbound
drawer or the vault (R73). -/
def drawerMaster (s : State) (d : DrawerNo) : Master :=
  match (s.store.drawers.get d).bound with
  | some p => servingMaster s p
  | none => officerMaster

/-- R15: while the day is CLOSING and the drawer not CLOSED, its counts are kept from station masters. -/
def blind (s : State) (d : DrawerNo) : Bool :=
  s.store.day.state == .closing && (s.store.drawers.get d).state != .closed

/-- A home total of a drawer as a notice or response to master `m` gives it (R15). -/
def disclosed (s : State) (m : Master) (d : DrawerNo) (total : Nat) : Option Nat :=
  if m ≠ officerMaster && blind s d then none else some total

/-- The home total of a drawer, as a notice or response to master `m` gives it (R15). -/
def shownTotal (s : State) (m : Master) (d : DrawerNo) : Option Nat :=
  disclosed s m d (homeTotal s (s.store.drawers.get d))

/-- DRAWER_ALERT to the serving master of the drawer's bound position and to the officer (R7, R185). -/
def raiseAlert (d : DrawerNo) (e : AlertEvent) (s : State) : State :=
  let officer := raiseOfficer (.drawerAlert d e (shownTotal s officerMaster d)) s
  match (s.store.drawers.get d).bound with
  | some p => raiseAt p (.drawerAlert d e (shownTotal s (servingMaster s p) d)) officer
  | none => officer

/-- The highest-numbered kind present in a notice set. -/
def highest (t : Table (Option Notice) 8) : Option (Fin 8) :=
  (List.finRange 8).reverse.find? fun k => (t.get k).isSome

/-- The notice a take would move: the highest waiting one, when it is above the highest in service or
none is in service (R186). -/
def takeable (w : Window) : Option (Fin 8) :=
  match highest w.waiting, highest w.service with
  | some k, none => some k
  | some k, some j => if j < k then some k else none
  | none, _ => none

/-- The notice line of a master (R186). -/
def noticeLine (w : Window) : Bool := (takeable w).isSome

/-! ### Faults (R187) -/

/-- A fault asked for while one is held leaves the record and raises the lost count, stopping at 15; in
both cases FAULT is raised to master 4 (R187). -/
def captureFault (k : FaultKind) (u : UnitName) (detail : List Item) (s : State) : State :=
  let f := s.port.fault
  let f' := if f.held then { f with lost := min 15 (f.lost + 1) }
    else ⟨true, k, u, detail, s.clock.day, s.clock.seconds, f.lost⟩
  raiseOfficer (.fault k u detail) { s with port := { s.port with fault := f' } }

/-- The fault of a record whose check fails (R83). -/
def storeCheckFault (sequence : Nat) (s : State) : State :=
  captureFault .storeCheck .jsu [.num sequence] s

/-- A record is read and its check verified: one whose check fails is captured (R83). -/
def captureFailed (s : State) (r : Record) : State := if r.checkOk then s else storeCheckFault r.sequence s

/-! ### The journal (R84 to R87) -/

/-- The record at a sequence, 1 to journal used (R96). -/
def recordAt (s : State) (sequence : Nat) : Option Record :=
  if 1 ≤ sequence ∧ sequence ≤ s.store.day.used then s.store.journal[sequence - 1]? else none

def nextSequence (s : State) : Nat := s.store.day.used + 1

/-- Room of one class (R85). -/
inductive HoldClass where
  | ordinary | reserve | seal
deriving DecidableEq, Repr

def holdLimit : HoldClass → Nat
  | .ordinary => Config.ordinaryLimit
  | .reserve => Config.reserveLimit
  | .seal => Config.sealLimit

/-- A hold of `n` records of a class is granted (R85). -/
def roomFor (s : State) (c : HoldClass) (n : Nat) : Bool :=
  s.store.day.used + s.jsu.holds + n ≤ holdLimit c

/-- A record of a kind with every optional field absent. -/
def emptyRecord (k : RecordKind) : Record :=
  ⟨0, 0, k, none, none, none, none, none, none, none, none, [], none, none, none, .none, 0, false⟩

/-- The record as the append writes it: its sequence, the time of day, disposition NONE, the applied mark
clear, and its check (R83, R84). -/
def stampRecord (s : State) (r : Record) : Record :=
  let r := { r with
    sequence := nextSequence s
    time := s.clock.seconds
    disposition := .none
    applied := false }
  { r with check := r.computeCheck }

def modifyDay (f : DayRecord → DayRecord) (s : State) : State :=
  { s with store := { s.store with day := f s.store.day } }

/-- The store write of an append: the record at journal used + 1, where it overwrites what an earlier day left,
journal used raised, the sequence in the open commit list (R84, R87, R96). -/
def writeAppend (r : Record) (s : State) : State :=
  { s with store := { s.store with
      journal := s.store.journal.take s.store.day.used ++
        stampRecord s r :: s.store.journal.drop (s.store.day.used + 1)
      day := { s.store.day with
        used := s.store.day.used + 1
        openCommits := s.store.day.openCommits ++ [nextSequence s] } } }

/-- Append a record (R84); at 15,872 records "journal high" is raised. -/
def appendRecord (r : Record) (s : State) : State :=
  let s := writeAppend r s
  if s.store.day.used = Config.journalHigh then raiseOfficer (.journalHigh s.store.day.used) s else s

/-- A record with its applied mark set and its disposition entered, its check computed again (R86). -/
def markedRecord (d : Disposition) (r : Record) : Record :=
  let r := { r with disposition := d, applied := true }
  { r with check := r.computeCheck }

/-- Set the applied mark of a record and take its sequence from the open commit list (R86 step 4). -/
def setApplied (sequence : Nat) (d : Disposition) (s : State) : State :=
  { s with store := { s.store with
      journal := s.store.journal.modify (sequence - 1) (markedRecord d)
      day := { s.store.day with openCommits := s.store.day.openCommits.erase sequence } } }

/-! ### Updates of store tables -/

def modifyDrawer (d : DrawerNo) (f : Drawer → Drawer) (s : State) : State :=
  { s with store := { s.store with drawers := s.store.drawers.modify d f } }

def modifyPosition (p : Position) (f : PositionEntry → PositionEntry) (s : State) : State :=
  { s with store := { s.store with positions := s.store.positions.modify p f } }

def modifyTransfer (i : Fin 8) (t : Transfer) (s : State) : State :=
  { s with store := { s.store with transfers := s.store.transfers.set i (some t) } }

def modifyBoard (f : Board → Board) (s : State) : State :=
  { s with store := { s.store with board := f s.store.board } }

def addHolds (n : Nat) (s : State) : State := { s with jsu := { s.jsu with holds := s.jsu.holds + n } }

def dropHold (s : State) : State := { s with jsu := { s.jsu with holds := s.jsu.holds - 1 } }

/-! ### Responses (R181, R190) -/

/-- Answer the request in execution at a master: the response joins the end of its response queue, or is
discarded when a backplane reset has come between (R190). -/
def respond (h : ReqHead) (kind : Nat) (code : Code) (masked : Bool)
    (fields : List (Option (List Item))) (s : State) : State :=
  let discard := (s.port.inExecution.get h.master).elim false InExecution.discard
  let r : Response := ⟨kind, h.tag, code, masked, fields⟩
  { s with port := { s.port with
      inExecution := s.port.inExecution.set h.master none
      order := s.port.order.erase (.request h.master)
      windows := if discard then s.port.windows
        else s.port.windows.modify h.master fun w => { w with responses := w.responses ++ [r] } } }

end Sys2Proof.Machine
end

