-- ==== Sys2Proof/Machine/Order.lean ====
section
/-! DEFINITION. The operations asked and the order in which each unit takes them: the unit of a request and of an
event, the units of which a request asks an operation, and when an operation waits (R29, R48, R67, R100, R119, R144,
R159, R180). -/

namespace Sys2Proof.Machine

/-- A request's code, in the table of the Formats chapter; no other command has one. -/
def requestKind : Instr → Option Nat
  | .currencyDefine _ _ => some 16
  | .drawerSignon _ _ => some 17
  | .drawerSignoff _ _ => some 18
  | .drawerLimits _ _ => some 19
  | .drawerCount _ _ => some 20
  | .drawerAccept _ _ => some 21
  | .drawerEnquire _ _ => some 22
  | .cashPost _ _ => some 32
  | .cashReverse _ _ => some 33
  | .rateSet _ _ => some 48
  | .feeSet _ _ => some 49
  | .quoteRequest _ _ => some 50
  | .quoteRelease _ _ => some 51
  | .transferOffer _ _ => some 64
  | .transferAccept _ _ => some 65
  | .transferDecline _ _ => some 66
  | .vaultReceive _ _ => some 67
  | .vaultDispatch _ _ => some 68
  | .journalRead _ _ => some 80
  | .storeFormat _ => some 81
  | .classSet _ _ => some 96
  | .passbookEnquire _ _ => some 97
  | .passbookNewbook _ _ => some 98
  | .printStart _ _ => some 112
  | .printCancel _ _ => some 113
  | .printerPace _ _ => some 114
  | .printerReset _ _ => some 115
  | .rowClaim _ => some 128
  | .rowFree _ _ => some 129
  | .rowWrite _ _ => some 130
  | .mapSet _ _ => some 131
  | .fieldBind _ _ => some 132
  | .screenActivity _ _ => some 133
  | .screenUnlock _ _ => some 134
  | .screenSettings _ _ => some 135
  | .dayOpen _ _ => some 144
  | .dayClose _ => some 145
  | .dayReopen _ => some 146
  | .daySeal _ => some 147
  | .daySend _ => some 148
  | .dayClear _ => some 149
  | .lineSettings _ _ => some 150
  | .positionBind _ _ => some 160
  | .portSettings _ _ => some 161
  | .faultRead _ => some 162
  | .faultClear _ => some 163
  | .clockSet _ _ => some 164
  | .partStatus _ => some 165
  | _ => none

/-- The unit a request is handed to.  The vault movements are drawer operations (R29). -/
def unitOf (i : Instr) : UnitName :=
  match (requestKind i).getD 160 / 16, i with
  | 1, _ | 2, _ | _, .vaultReceive _ _ | _, .vaultDispatch _ _ => .dru
  | 3, _ => .exu
  | 4, _ => .tru
  | 5, _ => .jsu
  | 6, _ => .plu
  | 7, _ => .pru
  | 8, _ => .scu
  | 9, _ => .dlu
  | _, _ => .bpp

/-- The units of which a request asks an operation while it is carried out: drawer operations (R29, R36, R67, R162),
quote uses and expiries (R48), the Transfer Unit's question and clearing (R67), lines, registrations and the freeze
(R100), the seal question (R119), and the parts of STORE.FORMAT (R48, R67, R100, R119, R159). -/
def asksOf : Instr → List UnitName
  | .transferOffer _ _ | .transferAccept _ _ | .transferDecline _ _ | .dayReopen _ => [.dru]
  | .dayClose _ => [.dru, .exu]
  | .daySeal _ => [.tru, .plu, .pru]
  | .dayClear _ => [.tru]
  | .storeFormat _ => [.exu, .tru, .plu, .pru, .scu, .dlu]
  | .cashPost _ r =>
    match r.kind.getD .change with
    | .deposit | .withdrawal => [.plu]
    | .exchangeBuy | .exchangeSell => [.exu]
    | .change => []
  | .cashReverse _ _ | .printStart _ _ | .printCancel _ _ => [.plu]
  | .drawerSignoff _ _ | .currencyDefine _ _ => [.exu]
  | _ => []

/-- The units at which a request waits its turn: its own, and those of which it asks an operation. -/
def turnsAt (i : Instr) : List UnitName := unitOf i :: asksOf i

/-! ### The operations asked -/

/-- The unit at which an event is taken: a display line's frame or timer at the Screen Unit, a head-office frame at the
Day and Line Unit, a mechanism's event at the Printer Unit (R119, R144, R159). -/
def eventUnit : Instr → UnitName
  | .ackTimerExpiry _ | .probeTimerExpiry _ | .rowAck _ _ _ | .probeAnswer _ _ _ => .scu
  | .ready _ _ | .busy _ | .ack _ _ | .nak _ _ | .closed _ _ | .unknownFrame _ => .dlu
  | .bookPresent _ | .bookRemoved _ | .topEdge _ _ | .stepLimit _ | .stripeReadComplete _ _
  | .stripeWriteComplete _ _ | .lineDone _ | .headHome _ | .ejectDone _ | .jamTimerExpiry _ => .pru
  | _ => .bpp

/-- The unit at which an operation asked stands until it has ended: a request at its own, the deliver at the Drawer
Unit, and what waits at the unit that is to take it. -/
def standsAt (s : State) : Asked → Option UnitName
  | .request m => (s.port.inExecution.get m).map fun x => unitOf x.request
  | .deliver => some .dru
  | .tick u => some u
  | .reraise _ => some .tru
  | .report _ | .binding _ _ => some .scu
  | .event i => some (eventUnit i)

/-- An operation at these units waits: one of those asked before it stands at one of them, or the Transfer Unit is
among them and an acceptance is in progress there (R29, R48, R67, R100, R119, R144, R159, R180; log entry 10).  Once the
supply is no longer up no request stands anywhere, and nothing waits. -/
def waitsAt (units : List UnitName) (ahead : List Asked) (s : State) : Bool :=
  s.power == .up && ((s.delivery.isSome && units.contains .tru) || ahead.any fun x => (standsAt s x).any units.contains)

/-- The operations asked before one. -/
def askedBefore (x : Asked) (s : State) : List Asked := s.port.order.takeWhile (· != x)

/-- The request's turn has not come at the units where it waits (R29, R180). -/
def waitsTurn (h : ReqHead) (i : Instr) (s : State) : Bool :=
  waitsAt (turnsAt i) (askedBefore (.request h.master) s) s

/-- The operations asked become the list given. -/
def setOrder (l : List Asked) (s : State) : State := { s with port := { s.port with order := l } }

/-- An operation joins the end of those asked. -/
def ask (x : Asked) (s : State) : State := setOrder (s.port.order ++ [x]) s

/-- An effect that is had at once or not at all: with an operation asked before standing at one of these units nothing
changes. -/
def unlessWaits (units : List UnitName) (f : State → State) (s : State) : State :=
  if waitsAt units s.port.order s then s else f s

end Sys2Proof.Machine
end

