-- ==== Sys2Proof/Machine/Render.lean ====
section
/-! DEFINITION. Live fields: what a source shows (R145), which fields a source report re-renders (R144),
and the dirty marking that follows (R148). -/

namespace Sys2Proof.Machine

/-! ### Texts -/

/-- Decimal digits of `n` as character codes, at most `fuel` of them. -/
def digitCodesAux : Nat → Nat → List Nat → List Nat
  | 0, _, acc => acc
  | k + 1, n, acc => if n < 10 then (48 + n) :: acc else digitCodesAux k (n / 10) ((48 + n % 10) :: acc)

/-- Decimal digits of `n`; past 40 digits no field is wide enough for them. -/
def digitCodes (n : Nat) : List Nat := digitCodesAux 40 n []

/-- A number with a point before its last `decimals` digits and a leading minus when negative (R145). -/
def numberText (decimals : Nat) (i : Int) : List Nat :=
  let ds := digitCodes i.natAbs
  let ds := List.replicate (decimals + 1 - ds.length) 48 ++ ds
  let body := if decimals = 0 then ds
    else ds.take (ds.length - decimals) ++ [46] ++ ds.drop (ds.length - decimals)
  if i < 0 then 45 :: body else body

/-- Two decimal digits. -/
def twoDigits (n : Nat) : List Nat := [48 + n / 10 % 10, 48 + n % 10]

/-- Seconds of day as hours, minutes and seconds with colons (R145). -/
def clockText (seconds : Nat) : List Nat :=
  twoDigits (seconds / 3600) ++ [58] ++ twoDigits (seconds / 60 % 60) ++ [58] ++ twoDigits (seconds % 60)

def dayText : DayState → List Nat
  | .noDay => codes "NO_DAY" | .opened => codes "OPEN" | .closing => codes "CLOSING"
  | .sealed => codes "SEALED" | .sending => codes "SENDING" | .delivered => codes "DELIVERED"

def drawerText : DrawerState → List Nat
  | .idle => codes "IDLE" | .opened => codes "OPEN" | .difference => codes "DIFFERENCE"
  | .closed => codes "CLOSED"

def noteText : NoteStatus → List Nat
  | .live .queued => codes "QUEUED" | .live .awaitingBook => codes "AWAITING_BOOK"
  | .live .reading => codes "READING" | .live .printing => codes "PRINTING"
  | .live .turnPage => codes "TURN_PAGE" | .live .writingStripe => codes "WRITING_STRIPE"
  | .live .ejecting => codes "EJECTING"
  | .ended .done => codes "DONE" | .ended (.partly _) => codes "PARTIAL"
  | .ended (.aborted _) => codes "ABORTED" | .ended (.cancelled _) => codes "CANCELLED"

/-! ### Values of sources -/

/-- What a field shows: blanks, a number with its decimals, or a text (R145). -/
inductive Shown where
  | blank
  | number (decimals : Nat) (value : Int)
  | text (codes : List Nat)
deriving DecidableEq, Repr

/-- The newest HELD quote of a position, the one of highest made order (R61). -/
def newestHeld (s : State) (p : Position) : Option Quote :=
  s.exu.quotes.list.foldl (fun best q =>
    match q with
    | some q =>
      if q.state = .held ∧ q.position = p then
        match best with
        | some b => if b.made < q.made then some q else best
        | none => some q
      else best
    | none => best) none

/-- A drawer field in a station master's buffer is blank unless the drawer is bound to a position that
master serves (R145). -/
def ownerMayShow (s : State) (o : Owner) (d : DrawerNo) : Bool :=
  match o with
  | .master m => m == officerMaster ||
      (s.store.drawers.get d).bound.elim false fun p => servingMaster s p == m
  | _ => true

def shownTotalField (s : State) (o : Owner) (d : DrawerNo) (c : Currency) : Shown :=
  if isDefined s c && !blind s d && ownerMayShow s o d then
    .number (s.store.currencies.get c).decimals (valueOf s c (s.store.drawers.get d).current)
  else .blank

def shownStateField (s : State) (o : Owner) (d : DrawerNo) : Shown :=
  let r := s.store.drawers.get d
  if ownerMayShow s o d then .text (drawerText r.state ++ if r.excess then codes " EXCESS" else [])
  else .blank

def boundDrawer (s : State) (p : Position) : Option DrawerNo := (s.store.positions.get p).drawer

/-- The value a source shows in a buffer of owner `o` (R145). -/
def shown (s : State) (o : Owner) : Source → Shown
  | .drawerTotal d c => shownTotalField s o d c
  | .drawerState d => shownStateField s o d
  | .rowTotal p c => (boundDrawer s p).elim .blank fun d => shownTotalField s o d c
  | .rowState p => (boundDrawer s p).elim .blank fun d => shownStateField s o d
  | .rate f dir =>
    match (s.store.board.rows.get f).rates with
    | some (b, sell) => .number 6 (match dir with | .buy => b | .sell => sell)
    | none => .blank
  | .quoteLeft p => (newestHeld s p).elim .blank fun q => .number 0 q.life
  | .jobState p => (s.pru.notes.get p).elim .blank fun n => .text (noteText n.status)
  | .dayState => .text (if s.kept.isSome then codes "STORE_INVALID" else dayText s.store.day.state)
  | .clock => .text (clockText s.clock.seconds)

/-- A shown value in exactly `width` cells: numbers right-aligned, texts left-aligned, asterisks where it
is too wide (R145). -/
def fitted (width : Nat) : Shown → List Nat
  | .blank => List.replicate width 32
  | .number d i =>
    let t := numberText d i
    if width < t.length then List.replicate width 42 else List.replicate (width - t.length) 32 ++ t
  | .text t => if width < t.length then List.replicate width 42 else t ++ List.replicate (width - t.length) 32

def renderField (s : State) (o : Owner) (f : LiveField) (cells : RowCells) : RowCells :=
  putText f.column (fitted f.width (shown s o f.source)) cells

/-! ### Source reports (R144) -/

/-- The report concerns the drawer row of position `p`. -/
def rowConcerned (s : State) (p : Position) (d : DrawerNo) (binding : Option Position) : Bool :=
  boundDrawer s p == some d || binding == some p

/-- The report re-renders a field of this source (R140, R144). -/
def reportHits (s : State) (r : Report) (src : Source) : Bool :=
  match r, src with
  | .all, _ => true
  | .total d c, .drawerTotal d' c' => d == d' && c == c'
  | .total d c, .rowTotal p c' => c == c' && boundDrawer s p == some d
  | .drawer d _, .drawerState d' => d == d'
  | .drawer d _, .drawerTotal d' _ => d == d'
  | .drawer d b, .rowState p => rowConcerned s p d b
  | .drawer d b, .rowTotal p _ => rowConcerned s p d b
  | .rate f dir, .rate f' dir' => f == f' && dir == dir'
  | .quoteLeft p, .quoteLeft p' => p == p'
  | .jobState p, .jobState p' => p == p'
  | .dayState, .dayState => true
  | .dayState, .drawerTotal _ _ => true
  | .dayState, .rowTotal _ _ => true
  | .clock, .clock => true
  | _, _ => false

/-- Re-render the fields of a buffer that a report concerns; a rendering that alters a cell sets the
changed flag (R139, R144). -/
def refreshBuffer (s : State) (reports : List Report) (b : RowBuffer) : RowBuffer :=
  let cells := b.fields.list.foldl (fun cells f =>
    match f with
    | some f => if reports.any (fun r => reportHits s r f.source) then renderField s b.owner f cells else cells
    | none => cells) b.cells
  { b with cells := cells, changed := b.changed || cells != b.cells }

/-! ### Screen states and dirty flags (R146, R148) -/

/-- Screen states in the order of R146. -/
inductive ScreenState where
  | dark | live | locked | offline
deriving DecidableEq, Repr

/-- The state follows from the line, the lock and the map (R146). -/
def screenState (sc : Screen) : ScreenState :=
  if sc.silent then .offline
  else if sc.lockHeld then .locked
  else if sc.map.list.any Option.isSome then .live
  else .dark

def ScreenState.place : ScreenState → Nat
  | .dark => 1 | .live => 2 | .locked => 3 | .offline => 4

/-- Mark the rows of a LIVE or DARK screen whose entry names a changed buffer (R148). -/
def markRows (buffers : Table RowBuffer 192) (sc : Screen) : Screen :=
  if screenState sc = .live ∨ screenState sc = .dark then
    { sc with dirty := Table.ofFn fun r =>
        sc.dirty.get r || (sc.map.get r).elim false fun b => (buffers.get b).changed }
  else sc

/-- Mark what shows a changed buffer, then clear the changed flags (R148). -/
def markDirty (u : Scu) : Scu :=
  { u with
    screens := u.screens.map (markRows u.buffers)
    buffers := u.buffers.map fun b => { b with changed := false } }

/-- The Screen Unit takes source reports: it re-renders every field bound to them (R144) and marks the
rows that changed (R148). -/
def takeReports (reports : List Report) (s : State) : State :=
  { s with scu := markDirty { s.scu with buffers := s.scu.buffers.map (refreshBuffer s reports) } }

/-- Source reports that wait at the Screen Unit; those that follow one another at the end of the order asked wait as
one, since a source is read when it is rendered (R144; log entry 10). -/
def askReports (reports : List Report) (s : State) : State :=
  if reports = [] then s
  else match s.port.order.getLast? with
    | some (.report l) => setOrder (s.port.order.dropLast ++ [.report (l ++ reports)]) s
    | _ => ask (.report reports) s

/-- Source reports are asked of the Screen Unit, which takes them in the order asked (R144). -/
def report (reports : List Report) (s : State) : State :=
  if waitsAt [.scu] s.port.order s then askReports reports s else takeReports reports s

def allDirty (sc : Screen) : Screen := { sc with dirty := Table.fill 24 true }

def modifyScreen (p : Position) (f : Screen → Screen) (s : State) : State :=
  { s with scu := { s.scu with screens := s.scu.screens.modify p f } }

/-- The answer to the question whether a position's screen is LOCKED: lock held (R146). -/
def isLocked (s : State) (p : Position) : Bool := (s.scu.screens.get p).lockHeld

/-- The conditions under which a position's idle count runs (R152). -/
def idleRuns (s : State) (p : Position) : Bool :=
  (s.store.positions.get p).teller.isSome && !isLocked s p && s.scu.idleTimeout != 0

/-- Restart a position's idle count, while its conditions hold (R152). -/
def restartIdle (p : Position) (s : State) : State :=
  if idleRuns s p then modifyScreen p (fun sc => { sc with idle := some s.scu.idleTimeout }) s else s

end Sys2Proof.Machine
end

