-- ==== Sys2Proof/Machine/Flags.lean ====
section
/-! DEFINITION. What follows a change of a drawer's counts: the soft limit, the excess mark and the
source reports (R7, R8, R20); the cash-change and transfer operations that make such changes (R4, R5). -/

namespace Sys2Proof.Machine

/-- The clearing level of the excess mark (R8). -/
def clearingLevel (d : Drawer) : Nat := if d.soft ≠ 0 then d.soft else d.hard

/-- The excess mark as R8 evaluates it against a home total. -/
def newExcess (d : Drawer) (total : Nat) : Bool :=
  if d.excess then !(d.hard == 0 || total ≤ clearingLevel d) else d.hard != 0 && d.hard < total

/-- The change took the home total over the soft limit (R7). -/
def softCrossed (d : Drawer) (before after : Nat) : Bool := d.soft != 0 && before ≤ d.soft && d.soft < after

/-- Evaluate the excess mark of a teller drawer; a change of it is alerted and reported (R8). -/
def evaluateExcess (n : DrawerNo) (s : State) : State :=
  let d := s.store.drawers.get n
  let mark := newExcess d (homeTotal s d)
  if mark = d.excess then s
  else
    report [.drawer n none] (raiseAlert n (if mark then .excessSet else .excessCleared)
      (modifyDrawer n (fun d => { d with excess := mark }) s))

/-- Evaluate the soft limit and the excess mark after a change of home counts; one notice for both when
the same change sets the mark (R7, R8). -/
def evaluateLimits (n : DrawerNo) (before : Nat) (s : State) : State :=
  let d := s.store.drawers.get n
  let after := homeTotal s d
  let sets := newExcess d after && !d.excess
  evaluateExcess n (if softCrossed d before after && !sets then raiseAlert n .softCrossed s else s)

/-- The currencies in which two sets of counts differ. -/
def changedCurrencies (a b : Counts) : List Currency :=
  currencies.filter fun c => (slotsOf c).any fun d => a.get d != b.get d

/-- After a change of a drawer's current counts from `old`: R7 and R8 for a teller drawer whose home counts
changed, then the DRAWER_TOTAL reports (R4 steps 4 and 5, R5). -/
def countsChanged (n : DrawerNo) (old : Drawer) (s : State) : State :=
  let changed := changedCurrencies old.current (s.store.drawers.get n).current
  let s' := if n ≠ vault ∧ (0 : Currency) ∈ changed then evaluateLimits n (homeTotal s old) s else s
  report (changed.map (.total n)) s'

/-- The drawer record after the cash change of R4 steps 1 to 3, with a rounding remainder (R6). -/
def changedDrawer (s : State) (t : Deltas) (sequence : Nat) (tally : Int) (d : Drawer) : Drawer :=
  { d with
    current := applyDeltas d.current t
    receipts := addMoney d.receipts fun c => inflow s c t
    payments := addMoney d.payments fun c => outflow s c t
    tally := d.tally + tally
    lastApplied := sequence }

/-- The cash-change operation of R4 at drawer `n` for the record at `sequence`. -/
def cashChange (n : DrawerNo) (t : Deltas) (sequence : Nat) (tally : Int) (s : State) : State :=
  countsChanged n (s.store.drawers.get n) (modifyDrawer n (changedDrawer s t sequence tally) s)

/-- The first denomination whose count would fall below its reserved count (R4: SHORT_COUNT). -/
def shortSlot (d : Drawer) (t : Deltas) : Option Denom :=
  denoms.find? fun x => t.get x ≠ 0 ∧ (d.current.get x : Int) + t.get x < d.reserved.get x

/-- The first denomination whose count would rise above 65,535 minus its reserved count (R4: COUNT_LIMIT). -/
def overSlot (d : Drawer) (t : Deltas) : Option Denom :=
  denoms.find? fun x =>
    t.get x ≠ 0 ∧ (Config.countMax : Int) - d.reserved.get x < (d.current.get x : Int) + t.get x

/-- The two count checks of R4 (R24 steps 8 and 9). -/
def countChecks (d : Drawer) (t : Deltas) : List Check :=
  [⟨(shortSlot d t).isNone, .shortCount, denomDetail (shortSlot d t)⟩,
   ⟨(overSlot d t).isNone, .countLimit, denomDetail (overSlot d t)⟩]

/-- The first denomination that fails the reserve check of R5. -/
def reserveShort (d : Drawer) (k : Counts) : Option Denom :=
  denoms.find? fun x => 0 < k.get x ∧ d.current.get x < d.reserved.get x + 2 * k.get x

/-- The first denomination that fails the receive check of R5. -/
def receiveOver (d : Drawer) (k : Counts) : Option Denom :=
  denoms.find? fun x => 0 < k.get x ∧ Config.countMax - d.reserved.get x < d.current.get x + k.get x

/-- Reserve of R5 at the from-drawer. -/
def reserveCash (n : DrawerNo) (k : Counts) (sequence : Nat) (s : State) : State :=
  countsChanged n (s.store.drawers.get n) (modifyDrawer n (fun d => { d with
    current := subCounts d.current k
    reserved := addCounts d.reserved k
    transfersOut := addMoney d.transfersOut fun c => valueOf s c k
    lastApplied := sequence }) s)

/-- Return of R5 at the from-drawer. -/
def returnCash (n : DrawerNo) (k : Counts) (sequence : Nat) (s : State) : State :=
  countsChanged n (s.store.drawers.get n) (modifyDrawer n (fun d => { d with
    current := addCounts d.current k
    reserved := subCounts d.reserved k
    transfersOut := subMoney d.transfersOut fun c => valueOf s c k
    lastApplied := sequence }) s)

/-- Receive of R5 at the to-drawer. -/
def receiveCash (n : DrawerNo) (k : Counts) (sequence : Nat) (s : State) : State :=
  countsChanged n (s.store.drawers.get n) (modifyDrawer n (fun d => { d with
    current := addCounts d.current k
    transfersIn := addMoney d.transfersIn fun c => valueOf s c k
    lastApplied := sequence }) s)

/-- Deliver of R5 at the from-drawer: the last applied sequence becomes the higher of the two. -/
def deliverCash (n : DrawerNo) (k : Counts) (sequence : Nat) (s : State) : State :=
  modifyDrawer n (fun d => { d with
    reserved := subCounts d.reserved k
    lastApplied := max d.lastApplied sequence }) s

end Sys2Proof.Machine
end

