-- ==== Sys2Proof/Machine/TransferTable.lean ====
section
/-! DEFINITION. The transfer table and the parts of the Transfer Unit's work that other commands bring about: the
return of an offer (R70, R71), the second tick (R71) and the re-raise of offers at sign-on (R73). -/

namespace Sys2Proof.Machine

/-! ### The transfer table (R63, R64) -/

def tellerAt (s : State) (p : Position) : Option Nat := (s.store.positions.get p).teller

/-- The position a drawer is bound to. -/
def boundPosition (s : State) (d : DrawerNo) : Option Position := (s.store.drawers.get d).bound

/-- DIFFERENCE or CLOSED: settled for counting (R5). -/
def isSettled (s : State) (d : DrawerNo) : Bool :=
  (s.store.drawers.get d).state == .difference || (s.store.drawers.get d).state == .closed

def isMarked (s : State) (d : DrawerNo) : Bool := (s.store.drawers.get d).excess

def isOffered (t : Transfer) : Bool := t.state == .offered

/-- The OFFERED transfers with their slots, in ascending slot order. -/
def offeredSlots (s : State) : List (Fin 8 × Transfer) :=
  s.store.transfers.entries.filterMap fun e =>
    e.2.bind fun t => if isOffered t then some (e.1, t) else none

/-- The slot that holds a transfer number, in any state. -/
def transferSlot (s : State) (number : Nat) : Option (Fin 8 × Transfer) :=
  s.store.transfers.entries.findSome? fun e =>
    e.2.bind fun t => if t.number == number then some (e.1, t) else none

/-- The drawer is the to-drawer of an OFFERED transfer (R16, R67). -/
def isReceiver (s : State) (d : DrawerNo) : Bool := (offeredSlots s).any fun e => e.2.toDrawer == d

/-! ### Records and notices (R73, R74) -/

/-- The fields common to the three transfer records: position, teller of that position, the drawer whose
counts change, the other party, and the tender signed from the drawer's side (R74). -/
def transferRecord (s : State) (k : RecordKind) (p : Option Position) (drawer second : DrawerNo)
    (deltas : Deltas) (narrative : Nat) (reverses : Option Nat) : Record :=
  { emptyRecord k with
    position := p
    teller := p.bind (tellerAt s)
    drawer := some drawer
    second := some second
    homeAmount := some (deltaValue s 0 deltas)
    tender := deltaEntries deltas
    narrative := some narrative
    reverses := reverses }

/-- TRANSFER_EVENT, routed from the drawer concerned as it is bound now (R73). -/
def raiseTransfer (e : TransferEvent) (concerned : DrawerNo) (t : Transfer) (s : State) : State :=
  raiseTo (drawerMaster s concerned) (.transfer e t.number t.fromDrawer t.toDrawer) s

/-! ### Returns, the second tick and the re-raise (R70, R71, R73) -/

/-- Steps 1 to 3 of R70: TRANSFER_RETURN appended with the slot in its terminal state, the return, and the
applied mark.  The end hold may stand past sequence 16,352 (log entry 53). -/
def commitReturn (slot : Fin 8) (t : Transfer) (state : TransferState) (p : Option Position)
    (narrative : Nat) (s : State) : State :=
  let sequence := nextSequence s
  let record := transferRecord s .transferReturn p t.fromDrawer t.toDrawer (toDeltas t.tender) narrative
    (some t.offerSeq)
  let s := modifyTransfer slot { t with state := state, endSeq := some sequence } (appendRecord record s)
  setApplied sequence .none (returnCash t.fromDrawer t.tender sequence (dropHold s))

/-- A transfer whose remaining seconds have reached 0 is returned, with its notice to the sender (R71). -/
def returnTimedOut (s : State) (e : Fin 8 × Transfer) : State :=
  let t := { e.2 with remaining := 0 }
  raiseTransfer .timedOut t.fromDrawer t (commitReturn e.1 t .returned none 2 s)

/-- A slot after one second tick, as far as its remaining seconds go (R71). -/
def tickTransfer (t : Transfer) : Transfer :=
  if isOffered t then { t with remaining := t.remaining - 1 } else t

/-- The second tick ends a transfer (R71). -/
def tickEnds (s : State) : Bool := (offeredSlots s).any fun e => e.2.remaining ≤ 1

/-- The second tick at the transfer table: every OFFERED transfer loses a second, and those at 0 are returned in
ascending slot order (R71). -/
def countTransfers (s : State) : State :=
  ((offeredSlots s).filter fun e => e.2.remaining ≤ 1).foldl returnTimedOut
    { s with store := { s.store with transfers := s.store.transfers.map (Option.map tickTransfer) } }

/-- The re-raise at sign-on: "offered to your drawer" for each OFFERED transfer to the drawer, in ascending
number (R73). -/
def reraiseOffers (d : DrawerNo) (s : State) : State :=
  let offers := (((offeredSlots s).map Prod.snd).filter fun t => t.toDrawer == d).insertionSort
    fun a b => a.number ≤ b.number
  offers.foldl (fun s t => raiseTransfer .offered d t s) s

/-- The re-raise of offers at sign-on, which the Transfer Unit takes in its own order (R67, R73). -/
def askReraise (d : DrawerNo) (s : State) : State :=
  if waitsAt [.tru] s.port.order s then ask (.reraise d) s else reraiseOffers d s

end Sys2Proof.Machine
end

