-- ==== Sys2Proof/Machine/Exchange.lean ====
section
/-! DEFINITION. The Exchange Unit: rate board (R44 to R49), conversion (R50 to R52) and quotes
(R53 to R62). -/

namespace Sys2Proof.Machine

/-! ### The rate board -/

/-- Foreign currency `f` as a currency number. -/
def currencyOf (f : Foreign) : Currency := ⟨f.val + 1, by omega⟩

/-- A whole entry, the lifetime, the generation and the last applied sequence enter the board (R47). -/
def writeBoard (f : Foreign) (e : BoardEntry) (lifetime generation sequence : Nat) (b : Board) : Board :=
  { b with
    rows := b.rows.set f e
    lifetime := lifetime
    generation := generation
    lastApplied := sequence }

/-- The board generation after one more change (R44). -/
def nextGeneration (b : Board) : Nat := (b.generation + 1) % 65536

/-- Commit a board change: RATE_CHANGE appended, the board written, the mark set (R47). -/
def commitBoard (f : Foreign) (e : BoardEntry) (lifetime : Nat) (s : State) : State :=
  let generation := nextGeneration s.store.board
  let sequence := nextSequence s
  let r := { emptyRecord .rateChange with exchange := some (.board f e lifetime generation) }
  setApplied sequence .none
    (modifyBoard (writeBoard f e lifetime generation sequence) (appendRecord r s))

/-- The RATE sources of a foreign currency (R49). -/
def rateReports (f : Foreign) : List Report := [.rate f .buy, .rate f .sell]

/-- CURRENCY.DEFINE's effect on the board for a foreign currency (R44). -/
def clearBoardEntry (f : Foreign) (b : Board) : Board :=
  { b with rows := b.rows.set f emptyBoardEntry, generation := nextGeneration b }

def dayIs (s : State) (states : List DayState) : Bool := states.contains s.store.day.state

/-- The field names a defined foreign currency. -/
def foreignDefined (s : State) (f : Fld Nat) : Bool :=
  inRange 1 3 f && isDefined s (currencyOf (foreignOf f))

def rateSetChecks (h : ReqHead) (r : RateReq) (s : State) : List Check :=
  officerOnly h ++
    [⟨dayIs s [.opened, .closing], .dayState, []⟩,
     ⟨!h.spare && foreignDefined s r.currency, .badField, []⟩,
     ⟨inRange 1 99999999 r.buy && inRange 1 99999999 r.sell, .badField, []⟩,
     ⟨r.buy.nat ≤ r.sell.nat, .badField, []⟩,
     ⟨roomFor s .ordinary 1, .journalFull, []⟩]

def rateSetTaken (r : RateReq) (s : State) : Verdict :=
  let f := foreignOf r.currency
  let e := { s.store.board.rows.get f with rates := some (r.buy.nat, r.sell.nat) }
  let s := report (rateReports f) (commitBoard f e s.store.board.lifetime s)
  take s [numField r.currency.nat, [.wide r.buy.nat], [.wide r.sell.nat],
    numField s.store.board.generation]

def feeFieldOk (f : FeeFields) : Bool := f.perMille ≤ 50 && 0 ≤ f.minimum && 0 ≤ f.maximum

def feeWithinLimit (f : FeeFields) : Bool :=
  f.minimum ≤ Config.amountLimit && f.maximum ≤ Config.amountLimit

def feeOrdered (f : FeeFields) : Bool := f.minimum ≤ f.maximum

def feeSetChecks (h : ReqHead) (r : FeeReq) (s : State) : List Check :=
  officerOnly h ++
    [⟨dayIs s [.opened, .closing], .dayState, []⟩,
     ⟨!h.spare && foreignDefined s r.currency, .badField, []⟩,
     ⟨r.buy.required feeFieldOk && r.sell.required feeFieldOk && r.lifetime.optional fun _ => true,
       .badField, []⟩,
     ⟨r.buy.required feeWithinLimit && r.sell.required feeWithinLimit, .amountLimit, []⟩,
     ⟨r.buy.required feeOrdered && r.sell.required feeOrdered, .badField, []⟩,
     ⟨roomFor s .ordinary 1, .journalFull, []⟩]

def scheduleOf (f : Fld FeeFields) : FeeSchedule :=
  let v := f.getD ⟨0, 0, 0⟩
  ⟨v.perMille, v.minimum.toNat, v.maximum.toNat⟩

def feeItems (f : FeeSchedule) : List Item := [.num f.perMille, .amount f.minimum, .amount f.maximum]

def feeSetTaken (r : FeeReq) (s : State) : Verdict :=
  let f := foreignOf r.currency
  let e := { s.store.board.rows.get f with buyFee := scheduleOf r.buy, sellFee := scheduleOf r.sell }
  let lifetime := (r.lifetime.toOption.map (clamp 30 900)).getD s.store.board.lifetime
  let s := commitBoard f e lifetime s
  take s [feeItems e.buyFee, feeItems e.sellFee, numField lifetime, numField s.store.board.generation]

/-! ### The conversion (R50 to R52) -/

/-- Division rounded up. -/
def divUp (a b : Nat) : Nat := (a + b - 1) / b

/-- G: the exact product over 10^6, down for BUY and up for SELL (R50). -/
def grossOf (dir : Direction) (amount rate decimals : Nat) : Nat :=
  let product := amount * rate * 10 ^ (2 - decimals)
  match dir with
  | .buy => product / 1000000
  | .sell => divUp product 1000000

/-- The fee: G times the per-mille over 1000, rounded up, raised to the minimum, lowered to the maximum
(R51). -/
def feeOf (f : FeeSchedule) (gross : Nat) : Nat := min (max (divUp (gross * f.perMille) 1000) f.minimum) f.maximum

def netOf (dir : Direction) (gross fee : Nat) : Nat :=
  match dir with
  | .buy => gross - fee
  | .sell => gross + fee

/-- C: N brought to a multiple of u, down for BUY and up for SELL (R52). -/
def cashOf (dir : Direction) (net unit : Nat) : Nat :=
  match dir with
  | .buy => net / unit * unit
  | .sell => divUp net unit * unit

/-- The whole conversion with a rate, a schedule, the foreign decimals and the cash unit. -/
def convert (f : Foreign) (dir : Direction) (amount rate decimals unit : Nat) (fee : FeeSchedule) :
    Conversion :=
  let g := grossOf dir amount rate decimals
  let φ := feeOf fee g
  let n := netOf dir g φ
  let c := cashOf dir n unit
  ⟨f, amount, rate, g, φ, n, c, match dir with | .buy => n - c | .sell => c - n⟩

/-- The conversion at the board as it stands (R48). -/
def quoteValues (s : State) (f : Foreign) (dir : Direction) (amount : Nat) : Conversion :=
  let e := s.store.board.rows.get f
  let rates := e.rates.getD (0, 0)
  let decimals := (s.store.currencies.get (currencyOf f)).decimals
  match dir with
  | .buy => convert f .buy amount rates.1 decimals (cashUnit s) e.buyFee
  | .sell => convert f .sell amount rates.2 decimals (cashUnit s) e.sellFee

/-! ### The quote table -/

def isHeld (q : Quote) : Bool := q.state == .held

/-- Slots that hold a HELD quote of a position. -/
def heldSlots (u : Exu) (p : Position) : List (Fin 16 × Quote) :=
  u.quotes.entries.filterMap fun e =>
    e.2.bind fun q => if isHeld q && q.position == p then some (e.1, q) else none

/-- The slot that holds a number, in any state. -/
def quoteSlot (u : Exu) (number : Nat) : Option (Fin 16 × Quote) :=
  u.quotes.entries.findSome? fun e =>
    e.2.bind fun q => if q.number == number then some (e.1, q) else none

def setQuote (i : Fin 16) (q : Quote) (s : State) : State :=
  { s with exu := { s.exu with quotes := s.exu.quotes.set i (some q) } }

/-- Of two slots the one whose quote was made earlier. -/
def earlier (a b : Fin 16 × Quote) : Fin 16 × Quote := if b.2.made < a.2.made then b else a

/-- The quote that R55 step 1 supersedes: of a position that holds two, the one of lower made order. -/
def toSupersede (u : Exu) (p : Position) : Option (Fin 16 × Quote) :=
  match heldSlots u p with
  | a :: b :: rest => some ((b :: rest).foldl earlier a)
  | _ => none

def supersede (u : Exu) (p : Position) : Exu :=
  match toSupersede u p with
  | some (i, q) => { u with quotes := u.quotes.set i (some { q with state := .expired .superseded }) }
  | none => u

/-- The slot a new quote takes: the lowest empty one, else the lowest with an ended quote (R55 step 2). -/
def freeQuoteSlot (u : Exu) : Option (Fin 16) :=
  (u.quotes.findIdx Option.isNone).orElse fun _ =>
    u.quotes.findIdx fun q => q.elim false fun q => !isHeld q

/-- The number after `n`, 65,535 followed by 1 (R55 step 3). -/
def numberAfter (top n : Nat) : Nat := if n < top then n + 1 else 1

/-- From `n` on, the first number that is not held; `fuel` exceeds the numbers a table can hold. -/
def firstFree (held : Nat → Bool) (top : Nat) : Nat → Nat → Nat
  | 0, n => n
  | k + 1, n => if held n then firstFree held top k (numberAfter top n) else n

def quoteNumber (s : State) (u : Exu) : Nat :=
  firstFree (fun n => (quoteSlot u n).isSome) 65535 17 s.store.board.nextQuote

/-- A quote's state as the detail of a NO_QUOTE refusal, in the order of R24 and R58: EXPIRED with its reason
1, USED 2, not held 3.  A quote HELD for another position or direction is not held here (log entry 7). -/
def quoteDetail (u : Exu) (number : Nat) : List (Option (List Item)) :=
  match quoteSlot u number with
  | some (_, q) =>
    match q.state with
    | .expired r => [some [.num 1], some [.num r.place]]
    | .used => [some [.num 2]]
    | .held => [some [.num 3]]
  | none => [some [.num 3]]

def quoteRequestChecks (h : ReqHead) (r : QuoteReq) (s : State) : List Check :=
  let p := positionOf r.position
  let f := foreignOf r.currency
  let dir := r.direction.getD .buy
  let amount := r.amount.int.toNat
  let v := quoteValues s f dir amount
  let lowest := faceOf s (denomOf (currencyOf f) 0)
  positionChecks h s r.position ++
    [⟨dayIs s [.opened], .dayState, []⟩,
     ⟨(boundDrawer s p).isSome, .wrongState, []⟩,
     ⟨!isLocked s p, .positionLocked, []⟩,
     ⟨!h.spare && foreignDefined s r.currency && r.direction.required (fun _ => true) &&
       (r.amount.required fun i => decide (1 ≤ i ∧ i ≤ 1000000000)) && amount % lowest == 0, .badField, []⟩,
     ⟨(s.store.board.rows.get f).rates.isSome, .wrongState, []⟩,
     ⟨v.gross ≤ Config.amountLimit, .amountLimit, []⟩,
     ⟨dir == .sell || v.fee < v.gross, .badField, []⟩,
     ⟨dir == .buy || v.net ≤ Config.amountLimit, .amountLimit, []⟩,
     ⟨dir == .sell || 0 < v.cash, .badField, []⟩,
     ⟨(freeQuoteSlot (supersede s.exu p)).isSome, .quoteBusy, []⟩]

/-- The quote that R55 writes. -/
def newQuote (s : State) (number : Nat) (p : Position) (dir : Direction) (v : Conversion) : Quote :=
  ⟨number, .held, p, s.exu.made + 1, dir, v, s.store.board.generation, s.store.board.lifetime⟩

/-- The quote as its answer gives it (R56); A and r are amounts, of three words each (R192; log entry 46). -/
def quoteFields (q : Quote) (superseded : Option Nat) : List (Option (List Item)) :=
  let v := q.values
  [some [.num q.number], some [.num (v.currency.val + 1)], some [.num (directionPlace q.direction)],
    some [.amount v.amount], some [.wide v.rate], some [.amount v.gross], some [.amount v.fee],
    some [.amount v.net], some [.amount v.cash], some [.amount v.remainder], some [.num q.generation],
    some [.num q.life], superseded.map numField]

/-- Allocation of the quote (R55) and its answer (R56). -/
def quoteRequestTaken (r : QuoteReq) (s : State) : Verdict :=
  let p := positionOf r.position
  let dir := r.direction.getD .buy
  let v := quoteValues s (foreignOf r.currency) dir r.amount.int.toNat
  let u := supersede s.exu p
  let number := quoteNumber s u
  let q := newQuote s number p dir v
  let slot := (freeQuoteSlot u).getD 0
  let s' := modifyBoard (fun b => { b with nextQuote := numberAfter 65535 number })
    { s with exu := ⟨u.quotes.set slot (some q), s.exu.made + 1⟩ }
  takeMasked (report [.quoteLeft p] s')
    (quoteFields q ((toSupersede s.exu p).map fun e => e.2.number))

/-- The number is in the table and its quote is HELD for the position (R58). -/
def heldFor (u : Exu) (number : Nat) (p : Position) : Bool :=
  (quoteSlot u number).elim false fun e => isHeld e.2 && e.2.position == p

def quoteReleaseChecks (h : ReqHead) (r : ReleaseReq) (s : State) : List Check :=
  let p := positionOf r.position
  [⟨!h.spare && inRange 0 11 r.position && inRange 1 65535 r.number, .badField, []⟩] ++
    forPosition h s p ++
    [⟨heldFor s.exu r.number.nat p, .noQuote, quoteDetail s.exu r.number.nat⟩]

/-- End a slot's quote in the state given. -/
def endQuote (number : Nat) (state : QuoteState) (s : State) : State :=
  match quoteSlot s.exu number with
  | some (i, q) => setQuote i { q with state := state } s
  | none => s

def quoteReleaseTaken (r : ReleaseReq) (s : State) : Verdict :=
  take (report [.quoteLeft (positionOf r.position)] (endQuote r.number.nat (.expired .released) s)) []

/-- A HELD quote that satisfies `p` ends EXPIRED with the reason. -/
def endHeld (p : Quote → Bool) (reason : ExpiryReason) (q : Quote) : Quote :=
  if isHeld q && p q then { q with state := .expired reason } else q

/-- Every HELD quote that satisfies `p` ends EXPIRED with the reason (R59). -/
def expireHeld (p : Quote → Bool) (reason : ExpiryReason) (s : State) : State :=
  { s with exu := { s.exu with quotes := s.exu.quotes.map (Option.map (endHeld p reason)) } }

/-- The positions that hold a HELD quote, in ascending order. -/
def holdingPositions (u : Exu) : List Position :=
  (List.finRange 12).filter fun p => !(heldSlots u p).isEmpty

/-- Sign-off: the position's HELD quotes end SIGNOFF (R59). -/
def expireSignoff (p : Position) (s : State) : State :=
  report [.quoteLeft p] (expireHeld (fun q => q.position == p) .signoff s)

/-- DAY.CLOSE: every HELD quote ends DAY_CLOSE (R59). -/
def expireDayClose (s : State) : State :=
  report ((holdingPositions s.exu).map .quoteLeft) (expireHeld (fun _ => true) .dayClose s)

/-! ### Life (R57) -/

/-- A quote after one second tick: a HELD quote loses a second, and at 0 it is EXPIRED (TIME). -/
def tickQuote (q : Quote) : Quote :=
  if isHeld q then
    if q.life ≤ 1 then { q with state := .expired .time, life := 0 } else { q with life := q.life - 1 }
  else q

/-- The tick ends this quote. -/
def expiresAtTick (q : Quote) : Bool := isHeld q && q.life ≤ 1

/-- QUOTE_EXPIRED to the serving master of the quote's position (R57). -/
def raiseExpired (s : State) (q : Quote) : State := raiseAt q.position (.quoteExpired q.number) s

/-- The Exchange Unit takes a second tick (R57); the quotes that end at it are told in ascending slot order (log
entry 48). -/
def tickExu (s : State) : State :=
  let ended := (s.exu.quotes.list.filterMap id).filter expiresAtTick
  let positions := holdingPositions s.exu
  let s := { s with exu := { s.exu with quotes := s.exu.quotes.map (Option.map tickQuote) } }
  report (positions.map .quoteLeft) (ended.foldl raiseExpired s)

/-- The tick's part at one quote: with at most one second of life left the HELD quote ends (R57; log
entry 12). -/
def quoteTimesOut (number : Nat) (s : State) : State :=
  match quoteSlot s.exu number with
  | some (i, q) =>
    if expiresAtTick q then report [.quoteLeft q.position] (raiseExpired (setQuote i (tickQuote q) s) q)
    else s
  | none => s

/-- The quote use asked by the Drawer Unit (R60): the quote's values and the state with it USED. -/
def useQuote (number : Nat) (s : State) : State :=
  match quoteSlot s.exu number with
  | some (i, q) => report [.quoteLeft q.position] (setQuote i { q with state := .used } s)
  | none => s

end Sys2Proof.Machine
end

