-- ==== Sys2Proof/Machine/Transfers.lean ====
section
/-! DEFINITION. The Transfer Unit: offers and their ends (R63 to R75), and the vault movements that carry
its codes (R76, R77). -/

namespace Sys2Proof.Machine

/-! ### Slots and numbers (R64) -/

/-- The lowest empty slot, else the lowest that holds a terminal transfer (R64). -/
def freeTransferSlot (s : State) : Option (Fin 8) :=
  (s.store.transfers.findIdx Option.isNone).orElse fun _ =>
    s.store.transfers.findIdx fun t => t.elim false fun t => !isOffered t

/-- The number of a new transfer: from the next number on, the first that no slot holds (R64). -/
def transferNumber (s : State) : Nat :=
  firstFree (fun n => (transferSlot s n).isSome) 255 9 s.store.nextTransfer

/-! ### TRANSFER.OFFER (R65, R66) -/

/-- The from-drawer: the position's bound drawer, or without a position the vault. -/
def offerFrom (s : State) (r : OfferReq) : DrawerNo :=
  if r.position.present then (boundDrawer s (positionOf r.position)).getD vault else vault

/-- The position an offer is made from, when it is given. -/
def offerPosition (r : OfferReq) : Option Position :=
  if r.position.present then some (positionOf r.position) else none

def offerAuthority (h : ReqHead) (r : OfferReq) (s : State) : List Check :=
  if r.position.present then positionChecks h s r.position else officerOnly h

/-- The position given has a bound drawer and its screen is not LOCKED. -/
def offerPositionChecks (r : OfferReq) (s : State) : List Check :=
  match offerPosition r with
  | some p => [⟨(boundDrawer s p).isSome, .wrongState, []⟩, ⟨!isLocked s p, .positionLocked, []⟩]
  | none => []

def offerTender (r : OfferReq) : Counts := summedCounts (r.tender.getD [])

def offerTimeout (r : OfferReq) : Nat := (r.timeout.toOption.map (clamp 60 3600)).getD 900

def transferOfferChecks (h : ReqHead) (r : OfferReq) (s : State) : List Check :=
  let source := offerFrom s r
  let target := drawerOf r.toDrawer
  let short := reserveShort (s.store.drawers.get source) (offerTender r)
  offerAuthority h r s ++
    [⟨dayIs s [.opened, .closing], .dayState, []⟩] ++
    offerPositionChecks r s ++
    [⟨!h.spare && inRange 0 12 r.toDrawer && target != source &&
        r.tender.required (fun l => lengthOk l && l.all (cashEntryOk s)) &&
        r.timeout.optional fun _ => true, .badField, []⟩,
     ⟨!isSettled s source && !isSettled s target, .wrongState, []⟩,
     ⟨!isMarked s target, .excessRestricted, []⟩,
     ⟨short.isNone, .shortCount, denomDetail short⟩,
     ⟨(freeTransferSlot s).isSome, .tableFull, []⟩,
     ⟨roomFor s .ordinary 2, .journalFull, []⟩]

/-- The transfer that an offer makes (R63, R66 step 3). -/
def newTransfer (r : OfferReq) (s : State) : Transfer where
  number := transferNumber s
  state := .offered
  fromDrawer := offerFrom s r
  toDrawer := drawerOf r.toDrawer
  tender := offerTender r
  timeout := offerTimeout r
  remaining := offerTimeout r
  offerSeq := nextSequence s
  endSeq := none

def setNextTransfer (n : Nat) (s : State) : State := { s with store := { s.store with nextTransfer := n } }

/-- Commit an offer in the slot given (R66): append with the slot, reserve, applied mark, notice.  Of the two
records held the second stands on as the end hold. -/
def commitOffer (slot : Fin 8) (t : Transfer) (p : Option Position) (s : State) : State :=
  let record := transferRecord s .transferOut p t.fromDrawer t.toDrawer (negate (toDeltas t.tender)) 0 none
  let s := setNextTransfer (numberAfter 255 t.number) (modifyTransfer slot t (appendRecord record s))
  let s := reserveCash t.fromDrawer t.tender t.offerSeq (addHolds 1 s)
  raiseTransfer .offered t.toDrawer t (setApplied t.offerSeq .none s)

def transferOfferTaken (h : ReqHead) (r : OfferReq) (s : State) : Verdict :=
  let t := newTransfer r s
  let s' := commitOffer ((freeTransferSlot s).getD 0) t (offerPosition r) s
  takeMasked s' [some [.num t.number], some [.num t.offerSeq], some [.num t.remaining],
    (shownTotal s' h.master t.fromDrawer).map fun n => [.amount n]]

/-! ### TRANSFER.ACCEPT (R68, R69) -/

/-- The state found by an acceptance or decline, in the order of R68: ACCEPTED 1, DECLINED 2, RETURNED 3,
"not held" 4 (log entry 7). -/
def transferDetail (found : Option (Fin 8 × Transfer)) : List (Option (List Item)) :=
  match found with
  | some e => [some [.num (e.2.state.place - 1)]]
  | none => [some [.num 4]]

/-- Steps 2 and 3 of R68: the transfer is OFFERED, and the request may end it. -/
def transferEndChecks (h : ReqHead) (number : Nat) (s : State) : List Check :=
  match transferSlot s number with
  | some e =>
    ⟨isOffered e.2, .wrongState, transferDetail (some e)⟩ :: forDrawer h s e.2.toDrawer
  | none => [⟨false, .wrongState, transferDetail none⟩]

/-- The screen of the to-drawer's bound position is not LOCKED (R68 step 4). -/
def receiverUnlocked (s : State) (d : DrawerNo) : Bool :=
  (boundPosition s d).elim true fun p => !isLocked s p

/-- The first currency in which the counted tender differs from the offer, with the signed difference of
value (R68). -/
def mismatchDetail (s : State) (counted offered : Counts) : List (Option (List Item)) :=
  match changedCurrencies counted offered with
  | c :: _ => [some [.num c.val], some [.amount ((valueOf s c counted : Int) - valueOf s c offered)]]
  | [] => []

def transferAcceptChecks (h : ReqHead) (r : AcceptReq) (s : State) : List Check :=
  let counted := summedCounts (r.tender.getD [])
  [⟨!h.spare && inRange 1 255 r.number &&
      r.tender.required (fun l => lengthOk l && l.all (cashEntryOk s)), .badField, []⟩] ++
    transferEndChecks h r.number.nat s ++
    match transferSlot s r.number.nat with
    | none => []
    | some (_, t) =>
      [⟨receiverUnlocked s t.toDrawer, .positionLocked, []⟩,
       ⟨counted == t.tender, .tenderMismatch, mismatchDetail s counted t.tender⟩,
       ⟨!isSettled s t.toDrawer, .wrongState, []⟩,
       ⟨!isMarked s t.toDrawer, .excessRestricted, []⟩,
       ⟨(receiveOver (s.store.drawers.get t.toDrawer) t.tender).isNone, .countLimit, []⟩]

/-- Steps 1 and 2 of R69: TRANSFER_IN appended with the slot ACCEPTED, and the receive.  Its end hold may stand past
sequence 16,352 (log entry 53). -/
def commitAccept (slot : Fin 8) (t : Transfer) (s : State) : State :=
  let sequence := nextSequence s
  let record := transferRecord s .transferIn (boundPosition s t.toDrawer) t.toDrawer t.fromDrawer
    (toDeltas t.tender) 0 (some t.offerSeq)
  let s := modifyTransfer slot { t with state := .accepted, endSeq := some sequence } (appendRecord record s)
  receiveCash t.toDrawer t.tender sequence (dropHold s)

/-- The acceptance is committed as far as the receive, after which the deliver is asked of the Drawer Unit; the deliver,
the applied mark and the answer follow in `finishDelivery` (R69). -/
def transferAcceptTaken (h : ReqHead) (r : AcceptReq) (s : State) : Verdict :=
  match transferSlot s r.number.nat with
  | none => refuse s ⟨false, .wrongState, transferDetail none⟩
  | some (slot, t) =>
    let s' := commitAccept slot t s
    let d : Delivery := ⟨h, t.number, nextSequence s, t.fromDrawer, t.toDrawer, t.tender,
      homeTotal s' (s'.store.drawers.get t.toDrawer), isMarked s' t.toDrawer⟩
    { take (ask .deliver { s' with delivery := some d }) [] with answered := false }

/-- The acceptance restarts the idle count of the to-drawer's bound position (R68). -/
def restartReceiver (number : Fld Nat) (s : State) : State :=
  match (transferSlot s number.nat).bind fun e => boundPosition s e.2.toDrawer with
  | some p => restartIdle p s
  | none => s

def acceptBody (h : ReqHead) (r : AcceptReq) (s : State) : Verdict :=
  judge (transferAcceptChecks h r s) s (transferAcceptTaken h r s)

/-! ### TRANSFER.DECLINE (R70) and the timeout (R71) -/

def transferDeclineChecks (h : ReqHead) (number : Fld Nat) (s : State) : List Check :=
  ⟨!h.spare && inRange 1 255 number, .badField, []⟩ :: transferEndChecks h number.nat s

def transferDeclineTaken (number : Fld Nat) (s : State) : Verdict :=
  match transferSlot s number.nat with
  | none => refuse s ⟨false, .wrongState, transferDetail none⟩
  | some (slot, t) =>
    let s' := commitReturn slot t .declined (boundPosition s t.toDrawer) 1 s
    take (raiseTransfer .declined t.fromDrawer t s') [numField t.number, numField (nextSequence s)]

/-- TRANSFER_TIMEOUT: the tick's part at one transfer with at most one second left (R71; log entry 12). -/
def timeoutTransfer (number : Nat) (s : State) : State :=
  match transferSlot s number with
  | some e => if isOffered e.2 && e.2.remaining ≤ 1 then returnTimedOut s e else s
  | none => s

/-! ### Vault movements (R76, R77) -/

def vaultTenderOk (h : ReqHead) (r : VaultReq) (s : State) : Bool :=
  !h.spare && isDigits12 r.reference && r.tender.required fun l => lengthOk l && l.all (cashEntryOk s)

/-- Steps 1 to 4 of R76. -/
def vaultChecks (h : ReqHead) (r : VaultReq) (s : State) : List Check :=
  officerOnly h ++
    [⟨dayIs s [.opened, .closing], .dayState, []⟩,
     ⟨vaultTenderOk h r s, .badField, []⟩,
     ⟨!isSettled s vault, .wrongState, []⟩]

/-- Commit a vault movement and answer it (R77). -/
def vaultTaken (k : RecordKind) (r : VaultReq) (deltas : Deltas) (s : State) : Verdict :=
  let sequence := nextSequence s
  let record := { emptyRecord k with
    drawer := some vault
    account := some r.reference.nat
    homeAmount := some (deltaValue s 0 deltas)
    tender := deltaEntries deltas
    narrative := some 0 }
  let s := setApplied sequence .none (cashChange vault deltas sequence 0 (appendRecord record s))
  take s [numField sequence,
    (definedCurrencies s).map fun c => .amount (valueOf s c (s.store.drawers.get vault).current)]

def vaultDeltas (r : VaultReq) : Deltas := toDeltas (summedCounts (r.tender.getD []))

def vaultReceiveChecks (h : ReqHead) (r : VaultReq) (s : State) : List Check :=
  let excess := overSlot (s.store.drawers.get vault) (vaultDeltas r)
  vaultChecks h r s ++
    [⟨excess.isNone, .countLimit, denomDetail excess⟩, ⟨roomFor s .ordinary 1, .journalFull, []⟩]

def vaultDispatchChecks (h : ReqHead) (r : VaultReq) (s : State) : List Check :=
  let short := shortSlot (s.store.drawers.get vault) (negate (vaultDeltas r))
  vaultChecks h r s ++
    [⟨short.isNone, .shortCount, denomDetail short⟩, ⟨roomFor s .ordinary 1, .journalFull, []⟩]

end Sys2Proof.Machine
end

