-- ==== Sys2Proof/Machine/Screens.lean ====
section
/-! DEFINITION. The Screen Unit: row buffers and live fields (R139 to R145), screens and their maps
(R146 to R148), refresh over the display lines (R149 to R151), and the idle lock (R152 to R158). -/

namespace Sys2Proof.Machine

def stateOf (s : State) (p : Position) : ScreenState := screenState (s.scu.screens.get p)

/-- Set a buffer and mark the rows that show it (R148). -/
def putBuffer (b : BufferNo) (r : RowBuffer) (s : State) : State :=
  { s with scu := markDirty { s.scu with buffers := s.scu.buffers.set b r } }

def bufferIs (s : State) (b : BufferNo) (o : Owner) : Bool := (s.scu.buffers.get b).owner == o

/-- The buffer is owned by the calling master. -/
def ownedBy (h : ReqHead) (s : State) (b : BufferNo) : Bool := bufferIs s b (.master h.master)

/-! ### ROW.CLAIM and ROW.FREE (R141) -/

/-- The lowest-numbered free master buffer. -/
def freeBufferNo (s : State) : Option BufferNo := s.scu.buffers.findIdx fun b => b.owner == .free

def claimedBuffer (m : Master) : RowBuffer := { freeBuffer with owner := .master m }

def rowClaimChecks (h : ReqHead) (s : State) : List Check :=
  anyMaster h ++ [bodyCheck h, ⟨(freeBufferNo s).isSome, .tableFull, []⟩]

def rowClaimTaken (h : ReqHead) (s : State) : Verdict :=
  let b := (freeBufferNo s).getD 0
  take { s with scu := { s.scu with buffers := s.scu.buffers.set b (claimedBuffer h.master) } }
    [numField b.val]

def rowFreeChecks (h : ReqHead) (buffer : Fld Nat) (s : State) : List Check :=
  let b := bufferOf buffer
  anyMaster h ++
    [⟨!h.spare && inRange 0 191 buffer, .badField, []⟩,
     ⟨ownedBy h s b, .notOwner, []⟩,
     ⟨(s.scu.buffers.get b).refs == 0, .wrongState, []⟩]

def rowFreeTaken (buffer : Fld Nat) (s : State) : Verdict :=
  take { s with scu := { s.scu with buffers := s.scu.buffers.set (bufferOf buffer) freeBuffer } } []

/-! ### ROW.WRITE (R142) -/

/-- A character code as the Screen Unit stores it (R139). -/
def storedCode (n : Nat) : Nat := if between 32 126 n then n else 63

def storedCell (c : Cell) : Cell := { c with code := storedCode c.code }

/-- The columns a live field covers. -/
def covers (f : LiveField) (column : Nat) : Bool := f.column ≤ column && column < f.column + f.width

/-- The column lies within a live field of the buffer. -/
def inField (b : RowBuffer) (column : Nat) : Bool :=
  b.fields.list.any fun f => f.elim false fun f => covers f column

/-- A given cell reaches the column: it is not cut off and not kept by a field. -/
def writesCell (b : RowBuffer) (column count i : Nat) : Bool :=
  column ≤ i && i < column + count && !inField b i

def writeCells (b : RowBuffer) (column : Nat) (cells : List Cell) : RowCells :=
  Table.ofFn fun i =>
    if writesCell b column cells.length i.val then
      ((cells[i.val - column]?).map storedCell).getD (b.cells.get i)
    else b.cells.get i

def cellsWritten (b : RowBuffer) (column count : Nat) : Nat :=
  ((List.range 80).filter (writesCell b column count)).length

def rowWriteChecks (h : ReqHead) (r : RowWriteReq) (s : State) : List Check :=
  anyMaster h ++
    [⟨!h.spare && inRange 0 191 r.buffer && inRange 0 79 r.column &&
        r.cells.required (fun l => between 1 48 l.length), .badField, []⟩,
     ⟨ownedBy h s (bufferOf r.buffer), .notOwner, []⟩]

def rowWriteTaken (r : RowWriteReq) (s : State) : Verdict :=
  let b := s.scu.buffers.get (bufferOf r.buffer)
  let cells := r.cells.getD []
  let written := { b with cells := writeCells b r.column.nat cells, changed := true }
  take (putBuffer (bufferOf r.buffer) written s) [numField (cellsWritten b r.column.nat cells.length)]

/-! ### FIELD.BIND (R143) -/

/-- The source a field names, its parameters in range; `some none` for NONE. -/
def checkedSource (s : State) : SourceField → Option (Option Source)
  | .drawerTotal d c =>
    if d ≤ 12 ∧ c ≤ 3 ∧ isDefined s (Fin.ofNat 4 c) = true then
      some (some (.drawerTotal (Fin.ofNat 13 d) (Fin.ofNat 4 c)))
    else none
  | .drawerState d => if d ≤ 12 then some (some (.drawerState (Fin.ofNat 13 d))) else none
  | .rate c d =>
    if 1 ≤ c ∧ c ≤ 3 ∧ 1 ≤ d ∧ d ≤ 2 then
      some (some (.rate (Fin.ofNat 3 (c - 1)) (if d = 1 then .buy else .sell)))
    else none
  | .quoteLeft p => if p ≤ 11 then some (some (.quoteLeft (Fin.ofNat 12 p))) else none
  | .jobState p => if p ≤ 11 then some (some (.jobState (Fin.ofNat 12 p))) else none
  | .dayState => some (some .dayState)
  | .clock => some (some .clock)
  | .none => some none

/-- The source of a FIELD.BIND, none when its parameters are out of range or it is missing. -/
def boundSource (s : State) (r : BindReq) : Option (Option Source) :=
  match r.source with
  | .value f => checkedSource s f
  | _ => none

def isNoneSource (r : BindReq) : Bool := r.source == .value .none

/-- The drawer that a drawer source names. -/
def sourceDrawer : Source → Option DrawerNo
  | .drawerTotal d _ => some d
  | .drawerState d => some d
  | _ => none

/-- A station master may bind a drawer source only to a drawer bound to a position it serves (R143). -/
def mayBindSource (h : ReqHead) (s : State) (src : Option Source) : Bool :=
  match src.bind sourceDrawer with
  | some d => isOfficer h || (boundPosition s d).elim false fun p => servingMaster s p == h.master
  | none => true

/-- The width in force (R143); for source NONE too, where a width that is not given counts as 0 (log entry 55). -/
def widthInForce (r : BindReq) : Nat := clamp 1 20 r.width.nat

def slotOf (r : BindReq) : Fin 5 := Fin.ofNat 5 r.slot.nat

/-- The field's cells overlap a bound slot other than its own. -/
def overlapsOther (b : RowBuffer) (slot : Fin 5) (column width : Nat) : Bool :=
  b.fields.entries.any fun e =>
    e.1 != slot && e.2.elim false fun f => f.column < column + width && column < f.column + f.width

def placeOk (s : State) (r : BindReq) : Bool :=
  let b := s.scu.buffers.get (bufferOf r.buffer)
  inRange 0 79 r.column && r.width.required (fun _ => true) && r.column.nat + widthInForce r ≤ 80 &&
    !overlapsOther b (slotOf r) r.column.nat (widthInForce r)

def fieldBindChecks (h : ReqHead) (r : BindReq) (s : State) : List Check :=
  anyMaster h ++
    [⟨!h.spare && inRange 0 191 r.buffer && inRange 0 3 r.slot, .badField, []⟩,
     ⟨ownedBy h s (bufferOf r.buffer), .notOwner, []⟩,
     ⟨isNoneSource r || placeOk s r, .badField, []⟩,
     ⟨(boundSource s r).isSome, .badField, []⟩,
     ⟨mayBindSource h s ((boundSource s r).getD none), .notPermitted, []⟩]

/-- The cells of a buffer with the field a slot holds blanked. -/
def blankField (b : RowBuffer) (slot : Fin 5) : RowCells :=
  match b.fields.get slot with
  | some f => putText f.column (List.replicate f.width 32) b.cells
  | none => b.cells

/-- The buffer with a slot emptied and the new field, if any, bound and rendered (R143). -/
def bindField (s : State) (b : RowBuffer) (slot : Fin 5) (f : Option LiveField) : RowBuffer :=
  let blanked := blankField b slot
  { b with
    fields := b.fields.set slot f
    cells := match f with
      | some f => renderField s b.owner f blanked
      | none => blanked
    changed := true }

def fieldBindTaken (r : BindReq) (s : State) : Verdict :=
  let b := s.scu.buffers.get (bufferOf r.buffer)
  let f := ((boundSource s r).getD none).map fun src => LiveField.mk r.column.nat (widthInForce r) src
  take (putBuffer (bufferOf r.buffer) (bindField s b (slotOf r) f) s) [numField (widthInForce r)]

/-! ### MAP.SET (R147) -/

def rowOf (f : Fld Nat) : Row := Fin.ofNat 24 f.nat

/-- The buffer named, if any. -/
def mapTarget (r : MapReq) : Option BufferNo := if r.buffer.present then some (bufferOf r.buffer) else none

/-- A buffer owned by PART, by the calling master or by master 4. -/
def mayShow (h : ReqHead) (s : State) (b : BufferNo) : Bool :=
  bufferIs s b .part || ownedBy h s b || bufferIs s b (.master officerMaster)

def mapSetChecks (h : ReqHead) (r : MapReq) (s : State) : List Check :=
  ⟨!h.spare && inRange 0 11 r.screen && inRange 0 23 r.row && r.buffer.optional (between 0 191),
      .badField, []⟩ ::
    forPosition h s (positionOf r.screen) ++
    [⟨(mapTarget r).elim true (mayShow h s), .notOwner, []⟩]

/-- Change the reference count of the buffer a map entry names. -/
def changeRefs (f : Nat → Nat) (b : Option BufferNo) (t : Table RowBuffer 192) : Table RowBuffer 192 :=
  match b with
  | some b => t.modify b fun r => { r with refs := f r.refs }
  | none => t

/-- Set one map entry: the reference counts of the buffer before and of the buffer now (R147). -/
def setMap (p : Position) (row : Row) (b : Option BufferNo) (s : State) : State :=
  let old := (s.scu.screens.get p).map.get row
  { s with scu := { s.scu with
    buffers := changeRefs (· + 1) b (changeRefs (· - 1) old s.scu.buffers)
    screens := s.scu.screens.modify p fun sc =>
      { sc with map := sc.map.set row b, dirty := sc.dirty.set row true } } }

def mapSetTaken (r : MapReq) (s : State) : Verdict :=
  let p := positionOf r.screen
  let s := setMap p (rowOf r.row) (mapTarget r) s
  take s [numField (stateOf s p).place]

/-! ### Idle lock (R152 to R156) -/

/-- When a position's lock ends or its teller leaves: lock held cleared; a LOCKED screen has all its
dirty flags set (R153, R154). -/
def clearLock (sc : Screen) : Screen :=
  let open' := { sc with lockHeld := false }
  if screenState sc = .locked then allDirty open' else open'

/-- The end of a position's binding at its screen: the count stops and lock held is cleared (R153). -/
def endScreenBinding (p : Position) (s : State) : State :=
  modifyScreen p (fun sc => { clearLock sc with idle := none }) s

/-- A binding starts at a position's screen, where the idle count starts, or ends there (R152, R153). -/
def takeBinding (p : Position) (starts : Bool) (s : State) : State :=
  if starts then restartIdle p s else endScreenBinding p s

/-- The start or the end of a binding reaches the Screen Unit after the Drawer Unit's report of it, in the order asked
(R144, R153). -/
def bindScreen (p : Position) (starts : Bool) (s : State) : State :=
  if waitsAt [.scu] s.port.order s then ask (.binding p starts) s else takeBinding p starts s

/-- Lock held is set, the count stops; a LIVE or DARK screen becomes LOCKED with all its rows dirty (R152). -/
def lockScreen (sc : Screen) : Screen :=
  let locked := { sc with lockHeld := true, idle := none }
  if screenState sc = .live ∨ screenState sc = .dark then allDirty locked else locked

/-- The idle count of a position expires (R152). -/
def expireIdle (p : Position) (s : State) : State := raiseAt p (.screen .locked p) (modifyScreen p lockScreen s)

/-- One second of a position's idle count (R152). -/
def tickIdle (s : State) (p : Position) : State :=
  match (s.scu.screens.get p).idle with
  | some n => if n ≤ 1 then expireIdle p s else modifyScreen p (fun sc => { sc with idle := some (n - 1) }) s
  | none => s

/-- The Screen Unit takes a second tick: the CLOCK fields, then the idle counts, in ascending position, an order that
the manual does not give (R144, R152; log entry 48). -/
def tickScu (s : State) : State := (List.finRange 12).foldl tickIdle (takeReports [.clock] s)

/-- The tick's part at an idle count with at most one second left (R152; log entry 12). -/
def idleTimesOut (p : Position) (s : State) : State :=
  match (s.scu.screens.get p).idle with
  | some n => if n ≤ 1 then expireIdle p s else s
  | none => s

def screenUnlockChecks (h : ReqHead) (r : UnlockReq) (s : State) : List Check :=
  let p := positionOf r.position
  ⟨!h.spare && inRange 0 11 r.position && inRange 0 9999 r.teller, .badField, []⟩ ::
    forPosition h s p ++
    [⟨isLocked s p, .wrongState, []⟩,
     ⟨isOfficer h || tellerAt s p == some r.teller.nat, .notPermitted, []⟩]

def screenUnlockTaken (r : UnlockReq) (s : State) : Verdict :=
  let p := positionOf r.position
  let s := restartIdle p (modifyScreen p clearLock s)
  take s [numField (stateOf s p).place]

def screenActivityChecks (h : ReqHead) (position : Fld Nat) (s : State) : List Check :=
  ⟨!h.spare && inRange 0 11 position, .badField, []⟩ :: forPosition h s (positionOf position)

/-- The restart itself is made for every request that names the position (R152). -/
def screenActivityTaken (position : Fld Nat) (s : State) : Verdict :=
  let p := positionOf position
  takeMasked s [some [.num (stateOf s p).place], (s.scu.screens.get p).idle.map numField]

def screenSettingsChecks (h : ReqHead) (r : ScreenSettingsReq) : List Check :=
  officerOnly h ++
    [⟨!h.spare && r.timeout.optional (fun _ => true) && r.text.optional fun _ => true, .badField, []⟩]

/-- An idle timeout as it is taken: 0 is off, any other value is clamped into 30 to 1800 (R156). -/
def idleSetting (n : Nat) : Nat := if n = 0 then 0 else clamp 30 1800 n

/-- A lock text as it is stored: cut off at 80, its codes stored as R139 gives (R156). -/
def storedText (cs : List Nat) : List Nat := (cs.take 80).map storedCode

/-- A position's count after a new idle timeout: running counts restart, 0 stops them, and from 0 they start
where the conditions of R152 hold (R156). -/
def resetCount (s : State) (timeout : Nat) (p : Position) (sc : Screen) : Screen :=
  if timeout = 0 then { sc with idle := none }
  else if (s.store.positions.get p).teller.isSome && !sc.lockHeld &&
      (sc.idle.isSome || s.scu.idleTimeout == 0) then { sc with idle := some timeout }
  else sc

def setIdleTimeout (n : Nat) (s : State) : State :=
  { s with scu := { s.scu with
    idleTimeout := n
    screens := Table.ofFn fun p => resetCount s n p (s.scu.screens.get p) } }

/-- Row 12 of a LOCKED screen becomes dirty. -/
def lockTextDirty (sc : Screen) : Screen :=
  if screenState sc = .locked then { sc with dirty := sc.dirty.set 12 true } else sc

def setLockText (cs : List Nat) (s : State) : State :=
  { s with scu := { s.scu with lockText := storedText cs, screens := s.scu.screens.map lockTextDirty } }

def screenSettingsTaken (r : ScreenSettingsReq) (s : State) : Verdict :=
  let s := match r.timeout with
    | .value n => setIdleTimeout (idleSetting n) s
    | _ => s
  let s := match r.text with
    | .value cs => setLockText cs s
    | _ => s
  take s [numField s.scu.idleTimeout, [.flag (r.timeout.present && r.timeout.nat != idleSetting r.timeout.nat)]]

/-! ### Refresh over the display line (R149 to R151) -/

/-- Row `n` of the lock form (R149). -/
def lockRow (u : Scu) (n : Row) : RowCells := if n = 12 then putText 0 u.lockText blankRow else blankRow

/-- The cells sent for a row of a screen as it stands (R149). -/
def cellsToSend (u : Scu) (sc : Screen) (n : Row) : RowCells :=
  if screenState sc = .locked then lockRow u n
  else ((sc.map.get n).map fun b => (u.buffers.get b).cells).getD blankRow

/-- A frame leaves on a display line. -/
def emitDisplay (p : Position) (f : Frame) (s : State) : State :=
  { s with out := { s.out with displays := s.out.displays.modify p (· ++ [f]) } }

/-- One send of a row: its dirty flag is cleared, the send number advances, and the frame carries the cells
as they stand (R149, R150). -/
def sendRow (p : Position) (n : Row) (tries : Nat) (s : State) : State :=
  let sc := s.scu.screens.get p
  let number := sc.sendNo + 1
  emitDisplay p (rowFrame number n (cellsToSend s.scu sc n))
    (modifyScreen p (fun sc =>
      { sc with dirty := sc.dirty.set n false, sendNo := number, inFlight := some n, tries := tries }) s)

/-- The lowest-numbered dirty row. -/
def firstDirty (sc : Screen) : Option Row := sc.dirty.findIdx id

/-- The row that R149 would send next: none while a row is in flight or the screen is OFFLINE. -/
def nextRow (sc : Screen) : Option Row :=
  if sc.inFlight.isNone && !sc.silent then firstDirty sc else none

/-- A display line sends its next row, if one is due (R149). -/
def sendNextRow (p : Position) (s : State) : State :=
  match nextRow (s.scu.screens.get p) with
  | some n => sendRow p n 1 s
  | none => s

/-- The frame check of a display-line frame that carries a send number holds (R193). -/
def sendNumberCheck (kind : Nat) (number : Byte) (check : Word) : Bool :=
  check == Frame.check ⟨kind, [number]⟩

/-- A row's acknowledgement carries the latest send number while the row is in flight (R150). -/
def acknowledges (sc : Screen) (number : Byte) : Bool :=
  sc.inFlight.isSome && sc.sendNo == number && !sc.silent

/-- An acknowledgement that the line awaits ends its row's flight (R150); tries are 0 after it, the model's value while no
row is in flight (log entry 61). -/
def takeRowAck (p : Position) (number : Byte) (check : Word) (s : State) : State :=
  if s.power ≠ .off ∧ sendNumberCheck 9 number check = true ∧
      acknowledges (s.scu.screens.get p) number = true then
    modifyScreen p (fun sc => { sc with inFlight := none, tries := 0 }) s
  else s

/-- The line is declared silent: the row in flight is dirty again and the screen OFFLINE (R150); tries are 0 after it, the
model's value while no row is in flight (log entry 61). -/
def silenceLine (p : Position) (n : Row) (s : State) : State :=
  raiseAt p (.screen .offline p) (modifyScreen p (fun sc =>
    { sc with silent := true, inFlight := none, tries := 0, dirty := sc.dirty.set n true, probe := none }) s)

/-- The acknowledgement timer of a row in flight expires: one retry, and then the line is silent (R150). -/
def ackTimesOut (p : Position) (s : State) : State :=
  if s.power = .off then s
  else match (s.scu.screens.get p).inFlight with
    | some n => if (s.scu.screens.get p).tries ≤ 1 then sendRow p n 2 s else silenceLine p n s
    | none => s

/-- One probe of a silent line (R151). -/
def sendProbe (p : Position) (s : State) : State :=
  let number := (s.scu.screens.get p).sendNo + 1
  emitDisplay p (probeFrame number)
    (modifyScreen p (fun sc => { sc with sendNo := number, probe := some number }) s)

/-- The probe timer of a silent line expires (R151). -/
def probeTimesOut (p : Position) (s : State) : State :=
  if s.power = .off then s else if (s.scu.screens.get p).silent then sendProbe p s else s

/-- The line has answered its latest probe: every row is dirty and the state is taken anew (R151). -/
def restoreLine (p : Position) (s : State) : State :=
  raiseAt p (.screen .online p)
    (modifyScreen p (fun sc => { allDirty sc with silent := false, probe := none }) s)

def answersProbe (sc : Screen) (number : Byte) : Bool := sc.silent && sc.probe == some number

/-- An answer to the latest probe brings the line back (R151). -/
def takeProbeAnswer (p : Position) (number : Byte) (check : Word) (s : State) : State :=
  if s.power ≠ .off ∧ sendNumberCheck 10 number check = true ∧
      answersProbe (s.scu.screens.get p) number = true then restoreLine p s else s

/-! ### Power-up and format (R157, R158) -/

/-- A screen after STORE.FORMAT: blank map, no lock, no count, every row dirty; its line goes on (R158). -/
def formatScreen (sc : Screen) : Screen :=
  { sc with
    lockHeld := false
    idle := none
    map := Table.fill 24 none
    dirty := Table.fill 24 true }

/-- Every master buffer free, every part-owned buffer with its labels and fields (R140, R157). -/
def freshBuffers : Table RowBuffer 192 :=
  Table.ofFn fun b => if partOwned b then partBuffer b else freeBuffer

/-- The Screen Unit's part in STORE.FORMAT (R158): the settings and pool at their format values, the part
rows rendered from their sources. -/
def formatScu (s : State) : State :=
  takeReports [.all] { s with scu :=
    ⟨freshBuffers, s.scu.screens.map formatScreen, 300, defaultLockText⟩ }

/-- The Screen Unit at power-up, after the restore (R157). -/
def powerUpScu (s : State) : State :=
  takeReports [.all] { s with scu :=
    ⟨freshBuffers,
     Table.ofFn fun p => powerUpScreen (s.store.positions.get p).teller.isSome,
     300, defaultLockText⟩ }

end Sys2Proof.Machine
end

