-- ==== Sys2Proof/Machine/Drawers.lean ====
section
/-! DEFINITION. The Drawer Unit's requests apart from postings: currencies (R1, R2), limits (R9), sign-on and
sign-off (R13, R14), balancing at close (R15 to R18) and enquiry (R19); its part in the opening and
clearing of a day and in STORE.FORMAT (R11, R12, R22). -/

namespace Sys2Proof.Machine

/-! ### CURRENCY.DEFINE (R2) -/

/-- Every face is 1 to 1,000,000 and they are strictly increasing (R1). -/
def facesOk : List Nat → Bool
  | [] => true
  | [a] => between 1 Config.faceMax a
  | a :: b :: rest => between 1 Config.faceMax a && a < b && facesOk (b :: rest)

/-- The decimals value fits the currency: 2 for home, 0 or 2 for a foreign currency. -/
def decimalsOk (currency : Nat) (f : Fld Nat) : Bool :=
  f.required fun d => d == 2 || (currency != 0 && d == 0)

/-- The list holds as many faces as the face count names (R192). -/
def facesMatch (r : CurrencyDefineReq) : Bool :=
  match r.faces with
  | .value l => l.length == r.faceCount.nat && facesOk l
  | .absent => r.faceCount.nat == 0
  | .malformed => false

def currencyDefineOk (r : CurrencyDefineReq) : Bool :=
  inRange 0 3 r.currency && inRange 0 12 r.faceCount && facesMatch r &&
    if r.faceCount.nat = 0 then r.currency.nat != 0 else decimalsOk r.currency.nat r.decimals

/-- Counts of a currency are zero in a drawer: current, reserved and opening (R2). -/
def holdsNone (c : Currency) (d : Drawer) : Bool :=
  (slotsOf c).all fun x => d.current.get x == 0 && d.reserved.get x == 0 && d.opening.get x == 0

def currencyNo (f : Fld Nat) : Currency := Fin.ofNat 4 f.nat

def currencyDefineChecks (h : ReqHead) (r : CurrencyDefineReq) (s : State) : List Check :=
  officerOnly h ++
    [⟨!h.spare && currencyDefineOk r, .badField, []⟩,
     ⟨dayIs s [.noDay], .dayState, []⟩,
     ⟨s.store.drawers.list.all (holdsNone (currencyNo r.currency)), .wrongState, []⟩]

/-- The entry that the request defines; a face count of 0 makes the currency undefined, with a decimals value that the
manual does not give (log entry 56). -/
def definedEntry (r : CurrencyDefineReq) : CurrencyEntry :=
  if r.faceCount.nat = 0 then ⟨false, 0, []⟩ else ⟨true, r.decimals.nat, r.faces.getD []⟩

def clearCounts (c : Currency) (t : Counts) : Counts :=
  Table.ofFn fun d => if denomCurrency d = c then 0 else t.get d

/-- A drawer with its counts and totals for a currency set to zero (R2). -/
def clearCurrency (c : Currency) (d : Drawer) : Drawer :=
  { d with
    opening := clearCounts c d.opening
    current := clearCounts c d.current
    reserved := clearCounts c d.reserved
    receipts := d.receipts.set c 0
    payments := d.payments.set c 0
    transfersIn := d.transfersIn.set c 0
    transfersOut := d.transfersOut.set c 0 }

def drawerNos : List DrawerNo := List.finRange 13

/-- DRAWER_STATE reports of every drawer (R20). -/
def allDrawerReports : List Report := drawerNos.map fun d => .drawer d none

/-- The Exchange Unit's part for a foreign currency: its entry emptied, the generation raised (R44, R49). -/
def boardAfterDefine (c : Currency) (s : State) : State :=
  if c = 0 then s
  else
    let f : Foreign := Fin.ofNat 3 (c.val - 1)
    report (rateReports f) (modifyBoard (clearBoardEntry f) s)

def currencyDefineTaken (r : CurrencyDefineReq) (s : State) : Verdict :=
  let c := currencyNo r.currency
  let s := { s with store := { s.store with
    currencies := s.store.currencies.set c (definedEntry r)
    drawers := s.store.drawers.map (clearCurrency c) } }
  take (report allDrawerReports (boardAfterDefine c s)) []

/-! ### DRAWER.SIGNON and DRAWER.SIGNOFF (R13, R14) -/

/-- The position has neither a signed-on teller nor a bound drawer. -/
def positionFree (s : State) (p : Position) : Bool :=
  (tellerAt s p).isNone && (boundDrawer s p).isNone

def drawerSignonChecks (h : ReqHead) (r : SignonReq) (s : State) : List Check :=
  let p := positionOf r.position
  let d := drawerOf r.drawer
  positionChecks h s r.position ++
    [⟨dayIs s [.opened, .closing], .dayState, []⟩,
     ⟨!h.spare && inRange 1 9999 r.teller && inRange 0 11 r.drawer, .badField, []⟩,
     ⟨positionFree s p, .wrongState, []⟩,
     ⟨(boundPosition s d).isNone, .wrongState, []⟩,
     ⟨(s.store.drawers.get d).state != .closed, .wrongState, []⟩]

/-- Steps 1 to 3 of R13: the binding, and an IDLE drawer OPEN. -/
def bindDrawer (p : Position) (teller : Nat) (d : DrawerNo) (s : State) : State :=
  modifyPosition p (fun e => { e with drawer := some d, teller := some teller })
    (modifyDrawer d (fun r =>
      { r with bound := some p, state := if r.state = .idle then .opened else r.state }) s)

/-- The DRAWER_STATE source and the DRAWER_TOTAL sources of every defined currency of a drawer (R13, R20). -/
def drawerReports (s : State) (d : DrawerNo) (binding : Option Position) : List Report :=
  .drawer d binding :: (definedCurrencies s).map (.total d)

/-- The sign-on taken; the re-raise of offers is an operation that it asks of the Transfer Unit and does not wait for
(R13, R67, R73). -/
def drawerSignonTaken (h : ReqHead) (r : SignonReq) (s : State) : Verdict :=
  let p := positionOf r.position
  let d := drawerOf r.drawer
  let s := bindDrawer p r.teller.nat d s
  let s := askReraise d (bindScreen p true (report (drawerReports s d (some p)) s))
  takeMasked s [some [.num (s.store.drawers.get d).state.place],
    (shownTotal s h.master d).map fun t => [.amount t], some [.flag (isMarked s d)]]

def drawerSignoffChecks (h : ReqHead) (position : Fld Nat) (s : State) : List Check :=
  let p := positionOf position
  ⟨!h.spare && inRange 0 11 position, .badField, []⟩ :: forPosition h s p ++
    [⟨(tellerAt s p).isSome, .wrongState, []⟩]

/-- The binding of a position ends in both tables (R12, R14). -/
def unbind (p : Position) (s : State) : State :=
  let s' := match boundDrawer s p with
    | some d => modifyDrawer d (fun r => { r with bound := none }) s
    | none => s
  modifyPosition p (fun e => { e with drawer := none, teller := none }) s'

/-- The DRAWER_STATE report of a position's ended binding. -/
def unbindReports (p : Position) (d : Option DrawerNo) : List Report :=
  match d with
  | some d => [.drawer d (some p)]
  | none => []

def drawerSignoffTaken (position : Fld Nat) (s : State) : Verdict :=
  let p := positionOf position
  let d := boundDrawer s p
  take (bindScreen p false (report (unbindReports p d) (expireSignoff p (unbind p s))))
    [numField (d.elim 0 fun d => d.val)]

/-! ### DRAWER.LIMITS (R9) -/

def notNegative (f : Fld Int) : Bool := f.required fun i => decide (0 ≤ i)

def withinLimit (f : Fld Int) : Bool := f.required fun i => decide (i ≤ (Config.amountLimit : Int))

def drawerLimitsChecks (h : ReqHead) (r : LimitsReq) : List Check :=
  officerOnly h ++
    [⟨!h.spare && inRange 0 11 r.drawer && notNegative r.soft && notNegative r.hard, .badField, []⟩,
     ⟨withinLimit r.soft && withinLimit r.hard, .amountLimit, []⟩,
     ⟨r.soft.int == 0 || r.hard.int == 0 || decide (r.soft.int ≤ r.hard.int), .badField, []⟩]

def drawerLimitsTaken (r : LimitsReq) (s : State) : Verdict :=
  let d := drawerOf r.drawer
  let s := evaluateExcess d (modifyDrawer d (fun x =>
    { x with soft := r.soft.int.toNat, hard := r.hard.int.toNat }) s)
  let x := s.store.drawers.get d
  take s [[.amount x.soft], [.amount x.hard], [.amount (homeTotal s x)], [.flag x.excess]]

/-! ### DRAWER.COUNT and DRAWER.ACCEPT (R16 to R18) -/

/-- The counts given are one for each denomination of each defined currency (R16). -/
def countsGiven (s : State) (f : Fld (List Nat)) : Bool :=
  f.required fun l => l.length == (definedDenoms s).length && l.all fun n => decide (n ≤ Config.countMax)

def countedCounts (s : State) (r : CountReq) : Counts := countsOfList s (r.counts.getD [])

/-- Every counted count equals the current count of the same denomination (R16). -/
def countsAgree (s : State) (counted : Counts) (d : Drawer) : Bool :=
  (definedDenoms s).all fun x => counted.get x == d.current.get x

/-- The attempts check: against 3, or against 4 for an officer request with the officer flag (R16, R18). -/
def mayCount (h : ReqHead) (d : Drawer) : Bool :=
  match d.state with
  | .idle => true
  | .opened => true
  | .difference => d.attempts < if h.officer then 4 else 3
  | .closed => false

/-- No reserved counts (R16). -/
def noReserved (d : Drawer) : Bool := d.reserved.list.all (· == 0)

def drawerCountChecks (h : ReqHead) (r : CountReq) (s : State) : List Check :=
  let n := drawerOf r.drawer
  let d := s.store.drawers.get n
  ⟨inRange 0 12 r.drawer, .badField, []⟩ :: forDrawer h s n ++
    [⟨dayIs s [.closing], .dayState, []⟩,
     ⟨!h.spare && countsGiven s r.counts, .badField, []⟩,
     ⟨mayCount h d, .wrongState, []⟩,
     ⟨noReserved d && !isReceiver s n, .wrongState, []⟩,
     ⟨!countsAgree s (countedCounts s r) d || roomFor s .reserve 1, .journalFull, []⟩]

/-- A drawer's record in the journal: the position if it is bound, and the teller signed on there (R16, R17). -/
def drawerRecord (s : State) (k : RecordKind) (n : DrawerNo) (tender : List (Denom × Int)) : Record :=
  { emptyRecord k with
    position := boundPosition s n
    teller := (boundPosition s n).bind (tellerAt s)
    drawer := some n
    tender := tender }

def setCounted (n : DrawerNo) (c : Option Counts) (s : State) : State :=
  { s with counted := s.counted.set n c }

/-- DRAWER_CLOSE: the record appended with the closing counts, the drawer CLOSED, the mark set (R16, R17). -/
def closeDrawer (n : DrawerNo) (s : State) : State :=
  let sequence := nextSequence s
  let entries := closingEntries s (s.store.drawers.get n).current
  let s := appendRecord (drawerRecord s .drawerClose n entries) s
  let s := modifyDrawer n (fun d => { d with state := .closed, lastApplied := sequence }) s
  report [.drawer n none] (setApplied sequence .none (setCounted n none s))

/-- A disagreeing count: kept in the drawer record, one attempt more, at most 3 (R16, R18). -/
def storeDifference (n : DrawerNo) (counted : Counts) (s : State) : State :=
  report [.drawer n none] (modifyDrawer n (fun d =>
    { d with state := .difference, attempts := min 3 (d.attempts + 1) }) (setCounted n (some counted) s))

/-- The difference in value of every defined currency (R16). -/
def valueDifferences (s : State) (counted : Counts) (d : Drawer) : List Item :=
  (definedCurrencies s).map fun c => .amount ((valueOf s c counted : Int) - valueOf s c d.current)

/-- A count is taken: the drawer closes, or is left in difference (R16).  The answer is "balanced" 1, or "difference" 2
with the attempts and the differences, without a presence mask before it (R192; log entry 58). -/
def drawerCountTaken (r : CountReq) (s : State) : Verdict :=
  let n := drawerOf r.drawer
  let d := s.store.drawers.get n
  let counted := countedCounts s r
  if countsAgree s counted d then take (closeDrawer n s) [numField 1]
  else
    let s' := storeDifference n counted s
    take s' [numField 2, numField (s'.store.drawers.get n).attempts, valueDifferences s counted d]

/-- The deltas, counted minus current, of one currency (R17). -/
def differenceDeltas (counted : Counts) (d : Drawer) (c : Currency) : Deltas :=
  Table.ofFn fun x => if denomCurrency x = c then (counted.get x : Int) - d.current.get x else 0

/-- The defined currencies in which some counted count differs from the current count. -/
def differingCurrencies (s : State) (n : DrawerNo) : List Currency :=
  match s.counted.get n with
  | some counted =>
    (changedCurrencies counted (s.store.drawers.get n).current).filter (isDefined s)
  | none => []

def drawerAcceptChecks (h : ReqHead) (drawer : Fld Nat) (s : State) : List Check :=
  let n := drawerOf drawer
  officerOnly h ++
    [⟨!h.spare && inRange 0 12 drawer, .badField, []⟩,
     ⟨dayIs s [.closing], .dayState, []⟩,
     ⟨(s.store.drawers.get n).state == .difference && (s.counted.get n).isSome, .wrongState, []⟩,
     ⟨roomFor s .reserve ((differingCurrencies s n).length + 1), .journalFull, []⟩]

/-- One DIFFERENCE record, its deltas applied and its mark set (R17). -/
def acceptCurrency (n : DrawerNo) (counted : Counts) (s : State) (c : Currency) : State :=
  let sequence := nextSequence s
  let deltas := differenceDeltas counted (s.store.drawers.get n) c
  let s := appendRecord (drawerRecord s .difference n (deltaEntries deltas)) s
  setApplied sequence .none (cashChange n deltas sequence 0 s)

def drawerAcceptTaken (drawer : Fld Nat) (s : State) : Verdict :=
  let n := drawerOf drawer
  let cs := differingCurrencies s n
  let s' := match s.counted.get n with
    | some counted => closeDrawer n (cs.foldl (acceptCurrency n counted) s)
    | none => s
  take s' [numField cs.length, (List.range cs.length).map fun i => .num (nextSequence s + i)]

/-! ### DRAWER.ENQUIRE (R19) -/

def drawerEnquireChecks (h : ReqHead) (drawer : Fld Nat) (s : State) : List Check :=
  ⟨!h.spare && inRange 0 12 drawer, .badField, []⟩ :: forDrawer h s (drawerOf drawer)

/-- A field that the blind-count rule keeps from a station master (R15). -/
def unlessBlind (h : ReqHead) (s : State) (n : DrawerNo) (items : List Item) : Option (List Item) :=
  if !isOfficer h && blind s n then none else some items

/-- The record as it stands (R19), without what R15 names as not given where the count is blind.  Whether the last
applied sequence, which R15 names neither as given nor as not given, stands in a blind response is the model's choice:
it does, and so does the teller, as part of the binding (log entry 64). -/
def drawerEnquireTaken (h : ReqHead) (drawer : Fld Nat) (s : State) : Verdict :=
  let n := drawerOf drawer
  let d := s.store.drawers.get n
  let shown := unlessBlind h s n
  takeMasked s
    [some [.num d.state.place], d.bound.map (fun p => [.num p.val]),
     (d.bound.bind (tellerAt s)).map numField,
     shown (countItems s d.opening), shown (countItems s d.current), shown (countItems s d.reserved),
     shown (moneyItems s d.receipts), shown (moneyItems s d.payments),
     shown (moneyItems s d.transfersIn), shown (moneyItems s d.transfersOut),
     shown [.amount d.tally], some [.amount d.soft], some [.amount d.hard], some [.flag d.excess],
     some [.num d.attempts], some [.num d.lastApplied]]

/-! ### The day's opening and clearing at the drawers (R11, R12) -/

/-- The counts of the defined currencies of `new`, and of the others as in `old`. -/
def definedCounts (s : State) (new old : Counts) : Counts :=
  Table.ofFn fun d => if isDefined s (denomCurrency d) then new.get d else old.get d

/-- DAY_OPEN applied to a drawer (R11). -/
def openDrawer (s : State) (d : Drawer) : Drawer :=
  { d with
    opening := definedCounts s d.current d.opening
    receipts := zeroMoney
    payments := zeroMoney
    transfersIn := zeroMoney
    transfersOut := zeroMoney
    tally := 0
    attempts := 0
    state := .idle
    lastApplied := 1 }

/-- DAY_OPEN applied to each drawer that `p` admits (R11). -/
def openDrawers (p : Drawer → Bool) (s : State) : State :=
  report allDrawerReports { s with
    store := { s.store with drawers := s.store.drawers.map fun d => if p d then openDrawer s d else d }
    counted := Table.ofFn fun n => if p (s.store.drawers.get n) then none else s.counted.get n }

/-- DAY.CLEAR at the drawers and positions: bindings ended, last applied sequences 0 (R12, R96). -/
def clearBindings (s : State) : State :=
  { s with store := { s.store with
    drawers := s.store.drawers.map fun d => { d with bound := none, lastApplied := 0 }
    positions := s.store.positions.map fun e => { e with drawer := none, teller := none } } }

end Sys2Proof.Machine
end

