-- ==== Sys2Proof/Machine/Passbook.lean ====
section
/-! DEFINITION. The Passbook Line Unit: classes (R97, R98), the account table (R99 to R105), its operations
for print jobs (R106 to R110), new books and enquiry (R111, R112), carry-over (R113) and replay (R114). -/

namespace Sys2Proof.Machine

/-! ### Classes (R97, R98) -/

/-- The class entry matches the account's leading digits. -/
def classMatches (e : ClassEntry) (account : Nat) : Bool :=
  e.length != 0 && account / 10 ^ (12 - e.length) == e.lead

/-- The first class entry that matches an account. -/
def classOf (s : State) (account : Nat) : Option (Fin 8) :=
  s.store.classes.findIdx fun e => classMatches e account

def isPassbook (s : State) (account : Nat) : Bool :=
  (classOf s account).elim false fun i => (s.store.classes.get i).passbook

/-- The class has its digits, given from the first with the unused ones zero (R98, R192). -/
def leadOk (r : ClassReq) : Bool :=
  r.lead.required fun n => fitsDigits n && n % 10 ^ (12 - r.length.nat) == 0

def classSetChecks (h : ReqHead) (r : ClassReq) : List Check :=
  officerOnly h ++
    [⟨!h.spare && inRange 0 7 r.index && inRange 0 12 r.length && leadOk r &&
        r.passbook.required fun _ => true, .badField, []⟩]

def classEntryOf (r : ClassReq) : ClassEntry :=
  ⟨r.length.nat, r.lead.nat / 10 ^ (12 - r.length.nat), r.passbook.getD false⟩

def classItems (e : ClassEntry) : List Item :=
  [.num e.length, .digits (e.lead * 10 ^ (12 - e.length)), .flag e.passbook]

def classSetTaken (r : ClassReq) (s : State) : Verdict :=
  let s := { s with store := { s.store with
    classes := s.store.classes.set (Fin.ofNat 8 r.index.nat) (classEntryOf r) } }
  take s (s.store.classes.list.map classItems)

/-! ### Entries and lines (R99, R102, R103) -/

def Key.lt (a b : Key) : Bool := a.date < b.date || (a.date == b.date && a.sequence < b.sequence)

def Key.least (a b : Key) : Key := if b.lt a then b else a
def Key.greatest (a b : Key) : Key := if a.lt b then b else a

/-- Pending: neither void nor in a snapshot (R99). -/
def isPending (l : Line) : Bool := !l.void && !l.inSnapshot

/-- The account has something to print (R99). -/
def hasSomething (e : Account) : Bool := e.lines.any isPending || e.summary.isSome

def accountSlot (s : State) (number : Nat) : Option (Fin 64 × Account) :=
  s.store.accounts.entries.findSome? fun e =>
    e.2.bind fun a => if a.number == number then some (e.1, a) else none

def setAccount (i : Fin 64) (a : Account) (s : State) : State :=
  { s with store := { s.store with accounts := s.store.accounts.set i (some a) } }

/-- The entry with the current time as its last activity. -/
def touch (s : State) (a : Account) : Account :=
  { a with activeDay := s.clock.day, activeSecond := s.clock.seconds }

/-- Reclaimable: no line that is not void, no summary or taken summary, job reference and new-book flag clear
(R102). -/
def isReclaimable (a : Account) : Bool :=
  a.lines.all Line.void && a.summary.isNone && a.taken.isNone && !a.jobRef && !a.newBook

/-- Of two entries the one with the earlier last activity, the first of equals. -/
def lessActive (a b : Fin 64 × Account) : Fin 64 × Account :=
  if b.2.activeDay < a.2.activeDay ∨
      (b.2.activeDay = a.2.activeDay ∧ b.2.activeSecond < a.2.activeSecond) then b else a

/-- The reclaimable entry of earliest activity. -/
def oldestReclaimable (s : State) : Option (Fin 64) :=
  match s.store.accounts.entries.filterMap fun e =>
      e.2.bind fun a => if isReclaimable a then some (e.1, a) else none with
  | a :: rest => some (rest.foldl lessActive a).1
  | [] => none

/-- The entry that an account without one takes (R102). -/
def entryToTake (s : State) : Option (Fin 64) :=
  (s.store.accounts.findIdx Option.isNone).orElse fun _ => oldestReclaimable s

def emptyAccount (number : Nat) : Account := ⟨number, [], none, none, none, false, false, 0, 0⟩

/-- The account's entry, or the one taken for it (R102). -/
def entryFor (s : State) (number : Nat) : Option (Fin 64 × Account) :=
  match accountSlot s number with
  | some e => some e
  | none => (entryToTake s).map fun i => (i, touch s (emptyAccount number))

/-- A line joins a list in its key order (R103). -/
def insertLine (l : Line) : List Line → List Line
  | [] => [l]
  | a :: rest => if l.key.lt a.key then l :: a :: rest else a :: insertLine l rest

/-- A line folded into a summary (R103); that the count stops at 65,535 is log entry 63. -/
def foldInto (o : Option Summary) (l : Line) : Summary :=
  match o with
  | none => ⟨1, l.amount, l.key, l.key⟩
  | some m => ⟨min 65535 (m.count + 1), m.net + l.amount, m.first.least l.key, m.last.greatest l.key⟩

/-- Remove the first line that satisfies `p`. -/
def dropFirst (p : Line → Bool) (ls : List Line) : List Line := ls.eraseP p

/-- A line is added to an entry, room made for it where the list holds 24 lines (R103). -/
def addLine (l : Line) (a : Account) : Account :=
  if a.lines.length < 24 then { a with lines := insertLine l a.lines }
  else if a.lines.any Line.void then { a with lines := insertLine l (dropFirst Line.void a.lines) }
  else match a.lines.find? isPending with
    | some old =>
      { a with
        lines := insertLine l (dropFirst isPending a.lines)
        summary := some (foldInto a.summary old) }
    | none => { a with summary := some (foldInto a.summary l) }

/-! ### The intake of a posting's line (R101) -/

/-- The business date of the day. -/
def businessDate (s : State) : Nat := s.store.day.date.getD 0

def recordKey (s : State) (sequence : Nat) : Key := ⟨businessDate s, sequence⟩

/-- The key is at or below the last taken key: already acted on (R101, R114). -/
def alreadyTaken (s : State) (k : Key) : Bool := s.store.lastTaken.elim false fun t => !t.lt k

def setLastTaken (k : Key) (s : State) : State := { s with store := { s.store with lastTaken := some k } }

def setLastAnswer (a : LineAnswer) (s : State) : State :=
  { s with store := { s.store with lastAnswer := a } }

/-- The account's list holds the line of a key. -/
def holdsLine (s : State) (account : Nat) (k : Key) : Bool :=
  (accountSlot s account).elim false fun e => e.2.lines.any fun l => l.key == k

/-- DAY_EVENT "passbook table full" (R101). -/
def raiseFull (account : Nat) (s : State) : State := raiseOfficer (.passbookFull account) s

/-- A line into the account's entry, or one taken for it; without one the table is full (R101 steps 2, 4, 5). -/
def placeLine (account : Nat) (l : Line) (s : State) : State × Bool :=
  match entryFor s account with
  | some (i, a) => (setAccount i (touch s (addLine l a)) s, true)
  | none => (raiseFull account s, false)

/-- The disposition that a second intake of one posting answers (R101 step 1). -/
def earlierDisposition (account : Nat) (k : Key) (s : State) : Disposition :=
  if holdsLine s account k then .held else if isPassbook s account then .notHeld else .none

/-- Steps 2 to 5 of R101. -/
def takeLine (account : Nat) (l : Line) (s : State) : State × Disposition :=
  if (accountSlot s account).isNone && !isPassbook s account then (s, .none)
  else
    let (s', held) := placeLine account l s
    (s', if held then .held else .notHeld)

/-- The line intake of a DEPOSIT or WITHDRAWAL record (R101). -/
def intakeLine (r : Record) (s : State) : State × Disposition :=
  let k := recordKey s r.sequence
  let account := r.account.getD 0
  if alreadyTaken s k then (s, earlierDisposition account k s)
  else
    let l : Line := ⟨k, r.narrative.getD 0, r.homeAmount.getD 0, r.balance, none, false, false⟩
    let (s', d) := takeLine account l s
    (setLastTaken k s', d)

/-! ### The handover of a reversal (R104) -/

def LineAnswer.place : LineAnswer → Nat
  | .voided => 1 | .contraHeld => 2 | .contraNotHeld => 3 | .none => 4

/-- The reversal record's disposition (R42). -/
def LineAnswer.disposition : LineAnswer → Disposition
  | .contraHeld => .held
  | .contraNotHeld => .notHeld
  | _ => .none

/-- Set the void flag of the line of a key. -/
def voidLine (k : Key) (ls : List Line) : List Line :=
  ls.map fun l => if l.key = k then { l with void := true } else l

/-- The account's list holds a pending line of the key. -/
def pendingLine (s : State) (account : Nat) (k : Key) : Option (Fin 64 × Account) :=
  (accountSlot s account).bind fun e =>
    if e.2.lines.any fun l => l.key == k && isPending l then some e else none

/-- What the Passbook Line Unit answers again for a reversal it has acted on: its latest answer where that was the
latest handover, and otherwise what the lists still show of it (R104; log entry 13). -/
def earlierAnswer (account : Nat) (original reversal : Key) (disposition : Disposition) (s : State) :
    LineAnswer :=
  if s.store.lastTaken = some reversal then s.store.lastAnswer
  else if disposition ≠ .held then .none
  else if holdsLine s account reversal then .contraHeld
  else if (accountSlot s account).elim false fun e => e.2.lines.any fun l => l.key == original && l.void
    then .voided
  else .contraNotHeld

/-- The cases of R104's table, in order. -/
def actOnReversal (r : Record) (original : Nat) (disposition : Disposition) (s : State) :
    State × LineAnswer :=
  let account := r.account.getD 0
  let k := recordKey s r.sequence
  if disposition ≠ .held then (s, .none)
  else match pendingLine s account (recordKey s original) with
    | some (i, a) =>
      (setAccount i (touch s { a with lines := voidLine (recordKey s original) a.lines }) s, .voided)
    | none =>
      let contra : Line :=
        ⟨k, r.narrative.getD 0, r.homeAmount.getD 0, none, some original, false, false⟩
      let (s', held) := placeLine account contra s
      (s', if held then .contraHeld else .contraNotHeld)

/-- The handover of a REVERSAL record of a DEPOSIT or WITHDRAWAL whose original had the disposition given
(R104). -/
def handReversal (r : Record) (original : Nat) (disposition : Disposition) (s : State) :
    State × LineAnswer :=
  let k := recordKey s r.sequence
  if alreadyTaken s k then
    (s, earlierAnswer (r.account.getD 0) (recordKey s original) k disposition s)
  else
    let (s', a) := actOnReversal r original disposition s
    (setLastAnswer a (setLastTaken k s'), a)

/-! ### Operations for print jobs (R106 to R109) -/

/-- The account may be registered for a job: its reference is clear and there is something to print or a new
book (R106). -/
def mayRegister (s : State) (account : Nat) : Bool :=
  (accountSlot s account).elim false fun e => !e.2.jobRef && (hasSomething e.2 || e.2.newBook)

/-- Change the entry of an account, with its last activity set. -/
def changeAccount (account : Nat) (f : Account → Account) (s : State) : State :=
  match accountSlot s account with
  | some (i, a) => setAccount i (touch s (f a)) s
  | none => s

def registerJob (account : Nat) (s : State) : State :=
  changeAccount account (fun a => { a with jobRef := true }) s

def endJobReference (account : Nat) (s : State) : State :=
  changeAccount account (fun a => { a with jobRef := false }) s

/-- The entry after its snapshot: void lines discarded, the others marked, the summary taken (R107). -/
def snapshotEntry (a : Account) : Account :=
  { a with
    lines := (a.lines.filter fun l => !l.void).map fun l => { l with inSnapshot := true }
    summary := none
    taken := a.summary.or a.taken }

/-- What a snapshot answers: the summary, if any, then the lines in key order (R107). -/
def snapshotItems (a : Account) : List PrintItem :=
  (a.summary.toList.map .summary) ++ (a.lines.filter fun l => !l.void).map .line

/-- Merge two summaries (R109). -/
def mergeSummaries (a b : Summary) : Summary :=
  ⟨min 65535 (a.count + b.count), a.net + b.net, a.first.least b.first, a.last.greatest b.last⟩

/-- The taken summary goes back into the account (R109). -/
def mergeTaken (a : Account) : Option Summary :=
  match a.taken, a.summary with
  | some t, some m => some (mergeSummaries m t)
  | some t, none => some t
  | none, m => m

/-- The release of a snapshot (R109). -/
def releaseEntry (a : Account) : Account :=
  { a with
    lines := a.lines.map fun l => { l with inSnapshot := false }
    summary := mergeTaken a
    taken := none }

def releaseSnapshot (account : Nat) (s : State) : State := changeAccount account releaseEntry s

/-- The printed report of an item at a page and line (R108). -/
def reportPrinted (account : Nat) (item : PrintItem) (page line : Nat) (s : State) : State :=
  changeAccount account (fun a =>
    let a := { a with printed := some (page, line), newBook := false }
    match item with
    | .summary _ => { a with taken := none }
    | .line l => { a with lines := a.lines.eraseP fun x => x.key == l.key }) s

/-- The book's account has its new-book flag set (R124). -/
def newBookSet (s : State) (account : Nat) : Bool :=
  (accountSlot s account).elim false fun e => e.2.newBook

def printedThrough (s : State) (account : Nat) : Option (Nat × Nat) :=
  (accountSlot s account).bind fun e => e.2.printed

/-! ### PASSBOOK.NEWBOOK (R111) -/

/-- The state check of the mode: an entry or a passbook class for SET, a set flag for WITHDRAW. -/
def newBookState (s : State) (r : NewBookReq) : Bool :=
  match r.mode.getD .set with
  | .set => (accountSlot s r.account.nat).isSome || isPassbook s r.account.nat
  | .withdraw => newBookSet s r.account.nat

def passbookNewbookChecks (h : ReqHead) (r : NewBookReq) (s : State) : List Check :=
  let entry := accountSlot s r.account.nat
  positionChecks h s r.position ++
    [⟨dayIs s [.noDay, .opened, .closing], .dayState, []⟩,
     ⟨!h.spare && isDigits12 r.account && r.mode.required fun _ => true, .badField, []⟩,
     ⟨newBookState s r, .wrongState, []⟩,
     ⟨entry.elim true fun e => !e.2.jobRef, .wrongState, []⟩,
     ⟨r.mode.getD .set == .withdraw || (entryFor s r.account.nat).isSome, .tableFull, []⟩]

/-- The entry after the request (R111). -/
def newBookEntry (m : BookMode) (a : Account) : Account :=
  match m with
  | .set => { a with newBook := true, printed := none }
  | .withdraw => { a with newBook := false }

def pendingCount (a : Account) : Nat := (a.lines.filter isPending).length

def passbookNewbookTaken (r : NewBookReq) (s : State) : Verdict :=
  match entryFor s r.account.nat with
  | some (i, a) =>
    let a := touch s (newBookEntry (r.mode.getD .set) a)
    take (setAccount i a s) [numField (pendingCount a), [.flag a.summary.isSome]]
  | none => refuse s ⟨false, .tableFull, []⟩

/-! ### PASSBOOK.ENQUIRE (R112) -/

def passbookEnquireChecks (h : ReqHead) (r : PassbookReq) : List Check :=
  anyMaster h ++ [⟨!h.spare && isDigits12 r.account && inRange 0 23 r.first, .badField, []⟩]

def keyItems (k : Key) : List Item := [.date k.date, .num k.sequence]

def summaryItems (m : Summary) : List Item :=
  [.num m.count, .amount m.net] ++ keyItems m.first ++ keyItems m.last

/-- One line: a mask of its two optional fields, then its fields in the order of R99 (log entry 14). -/
def lineItems (l : Line) : List Item :=
  [.num (presenceMask [l.balance.map fun _ => (), l.reverses.map fun _ => ()]),
    .num l.key.sequence, .date l.key.date, .num l.narrative, .amount l.amount] ++
    (l.balance.toList.map .amount) ++ (l.reverses.toList.map .num) ++ [.flag l.void, .flag l.inSnapshot]

/-- What is told of an entry that is present, in the order of R112's table, each item of the list one bit of the mask
(log entry 60). -/
def entryItems (first : Nat) (a : Account) : List (Option (List Item)) :=
  let lines := (a.lines.drop first).take 8
  [some [.num a.lines.length], a.summary.map summaryItems, a.taken.map summaryItems,
    a.printed.map fun p => [.num p.1, .num p.2], some [.flag a.newBook], some [.flag a.jobRef],
    some [.num a.activeDay, .wide a.activeSecond],
    some (.num lines.length :: lines.flatMap lineItems)]

/-- The answer of PASSBOOK.ENQUIRE.  Which of the values of R112 share a bit of the presence mask is the model's choice: the
class entry index and the passbook flag are two fields, the entry's presence is a field of its own, and the fields after it
are absent with it (R112, R192; log entry 60). -/
def passbookEnquireTaken (r : PassbookReq) (s : State) : Verdict :=
  let entry := accountSlot s r.account.nat
  takeMasked s ([(classOf s r.account.nat).map fun i => [.num i.val],
      some [.flag (isPassbook s r.account.nat)], some [.flag entry.isSome]] ++
    match entry with
    | some e => entryItems r.first.nat e.2
    | none => List.replicate 8 none)

/-! ### Carry-over (R113) and power-up (R114) -/

/-- Accounts held, in ascending account number. -/
def accountsByNumber (s : State) : List Account :=
  (s.store.accounts.list.filterMap id).insertionSort fun a b => a.number ≤ b.number

/-- A snapshot or taken summary stands somewhere: the freeze is answered "busy" (R113). -/
def freezeBusy (s : State) : Bool :=
  (accountsByNumber s).any fun a => a.taken.isSome || a.lines.any Line.inSnapshot

/-- The carry-over records of one entry: its summary, then its non-void lines. -/
def carryOf (a : Account) : List (Nat × PrintItem) := (snapshotItems a).map fun i => (a.number, i)

/-- The carry-over set in its order (R113). -/
def carrySet (s : State) : List (Nat × PrintItem) := (accountsByNumber s).flatMap carryOf

/-- An entry after a power-up (R114). -/
def powerUpAccount (a : Account) : Account := { releaseEntry a with jobRef := false }

def powerUpPlu (s : State) : State :=
  { s with store := { s.store with accounts := s.store.accounts.map (Option.map powerUpAccount) } }

end Sys2Proof.Machine
end

