-- ==== Sys2Proof/Machine/Postings.lean ====
section
/-! DEFINITION. Postings and reversals: CASH.POST (R23 to R37) and CASH.REVERSE (R38 to R43). -/

namespace Sys2Proof.Machine

/-! ### The fields of a posting (R23) -/

def isAbsent {α : Type} (f : Fld α) : Bool := f.optional fun _ => false

def amountGiven (f : Fld Int) : Bool := f.required fun i => decide (1 ≤ i)

/-- Fields required, optional or absent as R23's table gives for the kind. -/
def kindFieldsOk (r : PostReq) : PostKind → Bool
  | .deposit | .withdrawal =>
    isDigits12 r.account && amountGiven r.amount && isAbsent r.quote && r.balance.optional fun _ => true
  | .exchangeBuy | .exchangeSell =>
    r.account.optional fitsDigits && isAbsent r.amount && inRange 1 65535 r.quote && isAbsent r.balance
  | .change => isAbsent r.account && isAbsent r.amount && isAbsent r.quote && isAbsent r.balance

def postKindOf (r : PostReq) : PostKind := r.kind.getD .change

/-- Every field is present or absent as R23 requires and in its range (R24 step 4). -/
def postFieldsOk (h : ReqHead) (r : PostReq) (s : State) : Bool :=
  !h.spare && r.kind.required (fun _ => true) && kindFieldsOk r (postKindOf r) &&
    inRange 0 63 r.narrative && r.tender.required fun l => lengthOk l && l.all (postEntryOk s)

/-- Amount and balance-after are within the amount limit (R23). -/
def postAmountsOk (r : PostReq) : Bool :=
  decide (r.amount.int ≤ (Config.amountLimit : Int)) && decide (r.balance.int.natAbs ≤ Config.amountLimit)

/-! ### The quote and the tender (R24 steps 5 and 6, R26) -/

/-- The direction of the quote that a kind cites. -/
def directionOf : PostKind → Option Direction
  | .exchangeBuy => some .buy
  | .exchangeSell => some .sell
  | _ => none

/-- The quote cited is HELD, of this position and of the posting's direction (R24 step 5, R60). -/
def quoteUsable (s : State) (r : PostReq) (dir : Direction) : Bool :=
  (quoteSlot s.exu r.quote.nat).elim false fun e =>
    isHeld e.2 && e.2.position == positionOf r.position && e.2.direction == dir

def quoteCitedOk (s : State) (r : PostReq) : Bool :=
  (directionOf (postKindOf r)).elim true (quoteUsable s r)

/-- The frozen values of the quote an exchange cites (R31). -/
def citedValues (s : State) (r : PostReq) : Option Conversion :=
  (directionOf (postKindOf r)).bind fun _ => (quoteSlot s.exu r.quote.nat).map fun e => e.2.values

/-- The net value in minus out that a currency must show; none where no entry may name it (R26). -/
def expectedNet (r : PostReq) (v : Option Conversion) (c : Currency) : Option Int :=
  match postKindOf r, v with
  | .deposit, _ => if c = 0 then some r.amount.int else none
  | .withdrawal, _ => if c = 0 then some (-r.amount.int) else none
  | .change, _ => some 0
  | .exchangeBuy, some v =>
    if c = 0 then some (-(v.cash : Int)) else if c = currencyOf v.currency then some v.amount else none
  | .exchangeSell, some v =>
    if c = 0 then some v.cash else if c = currencyOf v.currency then some (-(v.amount : Int)) else none
  | _, none => none

def postTender (r : PostReq) : List PostEntry := r.tender.getD []

def postDeltas (r : PostReq) : Deltas := netDeltas (postTender r)

/-- The currency's net meets the kind's condition (R26). -/
def netMeets (s : State) (r : PostReq) (v : Option Conversion) (c : Currency) : Bool :=
  match expectedNet r v c with
  | some n => deltaValue s c (postDeltas r) == n
  | none => !namesCurrency (postTender r) c

/-- A CHANGE whose entries all cancel leaves no delta (R26). -/
def leavesNothing (r : PostReq) : Bool := postKindOf r == .change && (deltaEntries (postDeltas r)).isEmpty

/-- The first currency whose net does not meet its condition; for a CHANGE that leaves no delta, the first
that an entry names (R24, R26; log entry 15). -/
def mismatch (s : State) (r : PostReq) : Option Currency :=
  (currencies.find? fun c => !netMeets s r (citedValues s r) c).orElse fun _ =>
    if leavesNothing r then some ((currencies.find? (namesCurrency (postTender r))).getD 0) else none

/-- The currency and the net value found there (R24). -/
def tenderDetail (s : State) (r : PostReq) : List (Option (List Item)) :=
  match mismatch s r with
  | some c => [some [.num c.val], some [.amount (deltaValue s c (postDeltas r))]]
  | none => []

/-! ### Checks (R24) -/

/-- Kinds that raise the drawer's home cash (R27). -/
def raisesHome : PostKind → Bool
  | .deposit | .exchangeSell => true
  | _ => false

/-- The drawer bound to the position a request names. -/
def drawerAt (s : State) (f : Fld Nat) : DrawerNo := (boundDrawer s (positionOf f)).getD 0

/-- Steps 1 to 3 of R24 and R38. -/
def counterChecks (h : ReqHead) (s : State) (position : Fld Nat) : List Check :=
  let p := positionOf position
  positionChecks h s position ++
    [⟨dayIs s [.opened], .dayState, []⟩,
     ⟨(boundDrawer s p).isSome, .wrongState, []⟩,
     ⟨!isLocked s p, .positionLocked, []⟩]

def cashPostChecks (h : ReqHead) (r : PostReq) (s : State) : List Check :=
  let d := s.store.drawers.get (drawerAt s r.position)
  counterChecks h s r.position ++
    [⟨postFieldsOk h r s, .badField, []⟩,
     ⟨postAmountsOk r, .amountLimit, []⟩,
     ⟨quoteCitedOk s r, .noQuote, quoteDetail s.exu r.quote.nat⟩,
     ⟨(mismatch s r).isNone, .tenderMismatch, tenderDetail s r⟩,
     ⟨!(raisesHome (postKindOf r) && d.excess), .excessRestricted, []⟩] ++
    countChecks d (postDeltas r) ++
    [⟨roomFor s .ordinary 1, .journalFull, []⟩]

/-! ### Commit (R30 to R35) -/

/-- The home amount of the record (R32). -/
def homeAmountOf (r : PostReq) (v : Option Conversion) : Int :=
  match postKindOf r with
  | .deposit => r.amount.int
  | .withdrawal => -r.amount.int
  | .exchangeBuy => -(v.elim 0 fun v => (v.cash : Int))
  | .exchangeSell => v.elim 0 fun v => (v.cash : Int)
  | .change => 0

/-- The POSTING record, its sequence, time and check not yet stamped (R32). -/
def postRecord (s : State) (r : PostReq) : Record :=
  let p := positionOf r.position
  let v := citedValues s r
  { emptyRecord .posting with
    position := some p
    teller := tellerAt s p
    drawer := some (drawerAt s r.position)
    account := r.account.toOption
    postKind := some (postKindOf r)
    homeAmount := some (homeAmountOf r v)
    exchange := v.map fun v => .conversion v r.quote.nat
    tender := deltaEntries (postDeltas r)
    narrative := some r.narrative.nat
    balance := r.balance.toOption }

/-- A kind that is handed to the Passbook Line Unit (R34, R42). -/
def makesLine (k : Option PostKind) : Bool := k == some .deposit || k == some .withdrawal

/-- The handover of a POSTING's line, where its kind makes one (R34). -/
def handLine (r : Record) (s : State) : State × Disposition :=
  if makesLine r.postKind then intakeLine r s else (s, .none)

/-- The rounding remainder a record adds to its drawer's tally: the quote's r for a POSTING (R6). -/
def remainderOf (r : Record) : Int :=
  match r.exchange with
  | some (.conversion v _) => if r.kind = .reversal then -(v.remainder : Int) else v.remainder
  | _ => 0

/-- The quote use of an exchange (R31). -/
def useCited (r : PostReq) (s : State) : State :=
  if (directionOf (postKindOf r)).isSome then useQuote r.quote.nat s else s

/-- The quote use, the append, the apply, the line and the applied mark of a posting, in that order (R30 to
R35), with the disposition. -/
def commitPost (r : PostReq) (s : State) : State × Disposition :=
  let sequence := nextSequence s
  let record := { postRecord s r with sequence := sequence }
  let s := appendRecord record (useCited r s)
  let s := cashChange (drawerAt s r.position) (postDeltas r) sequence (remainderOf record) s
  let (s, d) := handLine record s
  (setApplied sequence d s, d)

/-- The exchange values of the response: A, C and r, and the quote number (R35); A and r are amounts, of three
words each (R192; log entry 46). -/
def exchangeFields (v : Option Conversion) (quote : Nat) : List (Option (List Item)) :=
  [v.map fun v => [.amount v.amount, .amount v.cash, .amount v.remainder, .num quote]]

def cashPostTaken (r : PostReq) (s : State) : Verdict :=
  let n := drawerAt s r.position
  let (s', d) := commitPost r s
  let x := s'.store.drawers.get n
  takeMasked s' ([some [.num (nextSequence s)], some [.num n.val], some [.amount (homeTotal s' x)],
    some [.flag x.excess], some [.num d.place]] ++ exchangeFields (citedValues s r) r.quote.nat)

/-! ### Reversals (R38 to R43) -/

/-- What the reversal lookup answers (R95). -/
inductive Lookup where
  | checkFailed
  | reversed
  | found (r : Record)
deriving DecidableEq, Repr

/-- The records from a sequence + 1 to journal used. -/
def recordsAfter (s : State) (sequence : Nat) : List Record :=
  (s.store.journal.take s.store.day.used).drop sequence

/-- Search the records in ascending order for a REVERSAL of the sequence, verifying the check of each record read:
a failed check is captured, and that of a REVERSAL fails the whole lookup (R83, R95).  The search ends at the
REVERSAL it looks for (log entry 47). -/
def searchReversal (sequence : Nat) (original : Record) : List Record → State → State × Lookup
  | [], s => (s, .found original)
  | r :: rest, s =>
    let s := captureFailed s r
    if r.kind == .reversal && !r.checkOk then (s, .checkFailed)
    else if r.kind == .reversal && r.reverses == some sequence then (s, .reversed)
    else searchReversal sequence original rest s

/-- The reversal lookup, with the faults of the failed checks it captures: the record named is read and verified, and
the search is made whatever its check shows; a failed check of the record is the answer (R83, R95). -/
def reversalLookup (sequence : Nat) (s : State) : State × Lookup :=
  match recordAt s sequence with
  | none => (s, .reversed)
  | some r =>
    let (found, answer) := searchReversal sequence r (recordsAfter s sequence) (captureFailed s r)
    (found, if r.checkOk then answer else .checkFailed)

/-- Steps 1 to 4 of R38. -/
def reverseFirstChecks (h : ReqHead) (r : ReverseReq) (s : State) : List Check :=
  counterChecks h s r.position ++
    [⟨!h.spare && inRange 1 16384 r.sequence && r.sequence.nat ≤ s.store.day.used, .badField, []⟩]

/-- The inverse of a record's tender deltas (R40). -/
def inverseDeltas (r : Record) : Deltas := negate (entryDeltas r.tender)

/-- Kinds whose reversal raises home cash (R40). -/
def reversalRaisesHome (k : Option PostKind) : Bool := k == some .withdrawal || k == some .exchangeBuy

/-- Steps 5 to 9 of R38, for the record found. -/
def reverseLaterChecks (s : State) (n : DrawerNo) (r : Record) : List Check :=
  let d := s.store.drawers.get n
  [⟨r.kind == .posting && r.drawer == some n, .wrongState, []⟩,
   ⟨!(reversalRaisesHome r.postKind && d.excess), .excessRestricted, []⟩] ++
    countChecks d (inverseDeltas r) ++
    [⟨roomFor s .ordinary 1, .journalFull, []⟩]

/-- The REVERSAL record, its sequence, time and check not yet stamped (R41). -/
def reverseRecord (s : State) (p : Position) (n : DrawerNo) (original : Record) : Record :=
  { emptyRecord .reversal with
    position := some p
    teller := tellerAt s p
    drawer := some n
    account := original.account
    postKind := original.postKind
    homeAmount := original.homeAmount.map fun i => -i
    exchange := original.exchange
    tender := deltaEntries (inverseDeltas original)
    narrative := original.narrative
    reverses := some original.sequence }

/-- The handover of a REVERSAL, where its kind makes a line (R42). -/
def handReversalLine (r : Record) (original : Record) (s : State) : State × LineAnswer :=
  if makesLine r.postKind then handReversal r original.sequence original.disposition s else (s, .none)

/-- The append, the apply, the handover and the applied mark of a reversal (R41, R42). -/
def commitReverse (p : Position) (n : DrawerNo) (original : Record) (s : State) : State × LineAnswer :=
  let sequence := nextSequence s
  let record := { reverseRecord s p n original with sequence := sequence }
  let s := appendRecord record s
  let s := cashChange n (inverseDeltas original) sequence (remainderOf record) s
  let (s, a) := handReversalLine record original s
  (setApplied sequence a.disposition s, a)

def cashReverseTaken (r : ReverseReq) (original : Record) (s : State) : Verdict :=
  let n := drawerAt s r.position
  let (s', a) := commitReverse (positionOf r.position) n original s
  let x := s'.store.drawers.get n
  take s' [numField (nextSequence s), numField n.val, [.amount (homeTotal s' x)], [.flag x.excess],
    numField a.place]

/-- Steps 5 to 9 of R38 and the commit.  A lookup that failed a check, or found the posting reversed, refuses the
reversal WRONG_STATE (R39, R95). -/
def reverseFound (r : ReverseReq) (s : State) : Verdict :=
  match reversalLookup r.sequence.nat s with
  | (s, .checkFailed) => refuse s ⟨false, .wrongState, []⟩
  | (s, .reversed) => refuse s ⟨false, .wrongState, []⟩
  | (s, .found original) =>
    judge (reverseLaterChecks s (drawerAt s r.position) original) s (cashReverseTaken r original s)

def cashReverseBody (h : ReqHead) (r : ReverseReq) (s : State) : Verdict :=
  judge (reverseFirstChecks h r s) s (reverseFound r s)

end Sys2Proof.Machine
end

