-- ==== Sys2Proof/Machine/Journal.lean ====
section
/-! DEFINITION. JOURNAL.READ (R94): records as the Formats chapter lays them out. -/

namespace Sys2Proof.Machine

def journalReadChecks (h : ReqHead) (r : JournalReq) (s : State) : List Check :=
  anyMaster h ++
    [⟨!h.spare && inRange 1 8 r.count && inRange 1 16384 r.sequence &&
        r.sequence.nat ≤ s.store.day.used, .badField, []⟩]

/-- The record names a drawer that is not yet CLOSED. -/
def namesOpenDrawer (s : State) (r : Record) : Bool :=
  (r.drawer.toList ++ r.second.toList).any fun d => (s.store.drawers.get d).state != .closed

/-- R94: while the day is CLOSING, a station master is given such a record withheld. -/
def withheld (h : ReqHead) (s : State) (r : Record) : Bool :=
  !isOfficer h && dayIs s [.closing] && namesOpenDrawer s r

/-- A record in the response: its length in bytes with the check-failed flag in bit 15 and the withheld flag
in bit 14, then its image. -/
def recordWords (h : ReqHead) (s : State) (r : Record) : List Word :=
  let image := r.image (withheld h s r)
  BitVec.ofNat 16 (image.length + 32768 * (!r.checkOk).toNat + 16384 * (withheld h s r).toNat) ::
    wordsOfBytes image

/-- The records from the sequence given, at most `count` and not past journal used (R94). -/
def recordsFrom (s : State) (sequence count : Nat) : List Record :=
  ((s.store.journal.take s.store.day.used).drop (sequence - 1)).take count

def journalReadTaken (h : ReqHead) (r : JournalReq) (s : State) : Verdict :=
  let records := recordsFrom s r.sequence.nat r.count.nat
  take (records.foldl captureFailed s)
    [numField s.store.day.used, [.date (businessDate s)], numField s.store.header.readGeneration,
      [.words (records.flatMap (recordWords h s))]]

end Sys2Proof.Machine
end

