-- ==== Sys2Proof/Machine/Printers.lean ====
section
/-! DEFINITION. The Printer Unit: engines, jobs and notes (R115 to R119), requests (R120, R131, R132, R135),
mechanism events (R121 to R130), pacing (R133, R134), the seal question (R136), power and format (R137, R138). -/

namespace Sys2Proof.Machine

/-! ### Records -/

def engineOf (s : State) (p : PrinterNo) : Engine := s.pru.engines.get p

def modifyEngine (p : PrinterNo) (f : Engine → Engine) (s : State) : State :=
  { s with pru := { s.pru with engines := s.pru.engines.modify p f } }

/-- Another motion begins; the book position stays the last edge or line position (log entry 54). -/
def setMotion (p : PrinterNo) (m : Motion) (s : State) : State := modifyEngine p (fun e => { e with motion := m }) s

/-- The slot that holds a job id. -/
def jobSlot (s : State) (id : Nat) : Option (Fin 16 × Job) :=
  s.pru.jobs.entries.findSome? fun e => e.2.bind fun j => if j.id == id then some (e.1, j) else none

/-- The printer's current job. -/
def currentJob (s : State) (p : PrinterNo) : Option (Fin 16 × Job) :=
  (engineOf s p).current.bind (jobSlot s)

def setJob (i : Fin 16) (j : Job) (s : State) : State :=
  { s with pru := { s.pru with jobs := s.pru.jobs.set i (some j) } }

/-- The position's newest-job note takes a job's state, if it is that job's (R118). -/
def setNote (j : Job) (status : NoteStatus) (s : State) : State :=
  match s.pru.notes.get j.position with
  | some n =>
    if n.id = j.id then
      report [.jobState j.position]
        { s with pru := { s.pru with notes := s.pru.notes.set j.position (some ⟨j.id, status⟩) } }
    else s
  | none => s

/-- A job changes state, with its note (R118). -/
def moveJob (i : Fin 16) (j : Job) (state : JobState) (s : State) : State :=
  setNote j (.live state) (setJob i { j with state := state } s)

/-- PRINT_ATTENTION to the serving master of the job's position (R118). -/
def raiseAttention (c : PrintCondition) (j : Job) (s : State) : State :=
  raiseAt j.position (.printAttention c j.id j.printer j.attempts) s

/-! ### A job leaves the queue (R121), and ends (R117) -/

/-- The head of an IDLE printer's queue becomes current, AWAITING_BOOK (R121). -/
def startNext (p : PrinterNo) (s : State) : State :=
  match (engineOf s p).state, (engineOf s p).queue with
  | .idle, id :: rest =>
    match jobSlot s id with
    | some (i, j) =>
      let s := modifyEngine p (fun e => { e with state := .busy, current := some id, queue := rest }) s
      raiseAttention .insertBook j (moveJob i j .awaitingBook s)
    | none => s
  | _, _ => s

/-- Steps 1 and 2 of R117: the release of unprinted items, and the job reference. -/
def endAtPlu (j : Job) (s : State) : State :=
  endJobReference j.account
    (if (j.snapshot.getD []).isEmpty then s else releaseSnapshot j.account s)

/-- Step 3 of R117: the job leaves its slot and its printer's queue. -/
def removeJob (i : Fin 16) (j : Job) (s : State) : State :=
  modifyEngine j.printer (fun e => { e with queue := e.queue.filter (· != j.id) })
    { s with pru := { s.pru with jobs := s.pru.jobs.set i none } }

/-- Step 6 of R117: a BUSY printer whose current job this was becomes IDLE and starts its queue. -/
def freePrinter (j : Job) (s : State) : State :=
  if (engineOf s j.printer).current = some j.id ∧ (engineOf s j.printer).state = .busy then
    startNext j.printer (modifyEngine j.printer (fun e => { e with state := .idle, current := none }) s)
  else s

/-- A job ends (R117). -/
def endJob (i : Fin 16) (j : Job) (e : JobEnd) (s : State) : State :=
  let s := setNote j (.ended e) (removeJob i j (endAtPlu j s))
  freePrinter j (raiseAt j.position (.printDone j.id j.printer e) s)

/-- A book left in the feed is carried back to the throat (R119). -/
def clearBook (p : PrinterNo) (s : State) : State :=
  if (engineOf s p).inFeed then setMotion p (.eject .clearing) s else s

/-! ### Wrong books and misfeeds (R125) -/

/-- What R125 takes. -/
inductive BadBook where
  | wrongBook | noEdge | beyondTravel
deriving DecidableEq, Repr

def BadBook.reason : BadBook → AbortReason
  | .wrongBook => .wrongBook
  | _ => .misfeed

def BadBook.condition : BadBook → PrintCondition
  | .wrongBook => .wrongBook
  | _ => .insertBook

/-- The eject of a re-prompt: a READING or PRINTING job becomes AWAITING_BOOK as it starts (R125 step 3). -/
def rePrompt (p : PrinterNo) (i : Fin 16) (j : Job) (c : PrintCondition) (s : State) : State :=
  let s := setMotion p (.eject .retry) s
  let s := if j.state = .reading ∨ j.state = .printing then moveJob i j .awaitingBook s else setJob i j s
  raiseAttention c j s

/-- A wrong book or misfeed (R125). -/
def takeBad (p : PrinterNo) (i : Fin 16) (j : Job) (b : BadBook) (s : State) : State :=
  let j := { j with attempts := j.attempts + 1 }
  if 2 ≤ j.attempts then clearBook p (endJob i j (.aborted b.reason) (setMotion p .still s))
  else if b = .beyondTravel then setJob i j (setMotion p (.write .retry false) s)
  else rePrompt p i j b.condition s

/-! ### Lines, pages and the stripe (R126 to R128, R134) -/

def paceOf (s : State) (p : PrinterNo) : PacePair := s.store.pacing.get p

/-- The staged values become the applied values (R134). -/
def applyPace (p : PrinterNo) (s : State) : State :=
  { s with store := { s.store with
    pacing := s.store.pacing.modify p fun x => { x with applied := x.staged } } }

/-- The line position of R126 step 2. -/
def linePosition (pace : Pace) (edge line : Nat) : Nat := edge + pace.margin + (line - 1) * pace.pitch

/-- The next item starts to print at the job's next position (R126). -/
def beginLine (p : PrinterNo) (i : Fin 16) (j : Job) (s : State) : State :=
  let s := setJob i j (applyPace p s)
  let position := linePosition (paceOf s p).applied (j.edge.getD 0) (j.next.getD (1, 1)).2
  if Config.maxTravel < position then takeBad p i j .beyondTravel s
  else modifyEngine p (fun e => { e with bookPosition := position, motion := .line }) s

/-- WRITING_STRIPE with a pending outcome (R124, R127, R128). -/
def beginStripe (p : PrinterNo) (i : Fin 16) (j : Job) (e : JobEnd) (s : State) : State :=
  moveJob i { j with outcome := some e } .writingStripe (setMotion p (.write .finish false) s)

/-- The page turn: the stripe is written at page + 1, line 1 (R127). -/
def beginTurn (p : PrinterNo) (i : Fin 16) (j : Job) (page : Nat) (s : State) : State :=
  moveJob i { j with next := some (page + 1, 1) } .turnPage (setMotion p (.write .turn false) s)

/-- The cases that R124, R127 and R128 share: nothing left, book full, page full, next line. -/
def proceed (p : PrinterNo) (i : Fin 16) (j : Job) (s : State) : State :=
  if (j.snapshot.getD []).isEmpty then beginStripe p i j .done s
  else
    match j.next.getD (1, 1) with
    | (page, line) =>
      if line < 21 then
        beginLine p i { j with state := .printing }
          (if j.state = .printing then s else moveJob i j .printing s)
      else if page < 12 then beginTurn p i j page s
      else raiseAttention .bookFull j (beginStripe p i j (.partly .bookFull) s)

/-! ### Insertion and stripe read (R122 to R124, R128) -/

/-- A job state and motion in which an insertion is taken (R122). -/
def takesInsertion (state : JobState) (m : Motion) : Bool :=
  match state, m with
  | .awaitingBook, _ => true
  | .turnPage, .write _ _ => false
  | .turnPage, .eject .turn => false
  | .turnPage, _ => true
  | _, _ => false

def startFeed (e : Engine) : Engine := { e with motion := .feed, bookPosition := 0, inFeed := true }

/-- The insertion of a book whose sensor was clear (R122). -/
def insertBook (p : PrinterNo) (s : State) : State :=
  match currentJob s p with
  | some (_, j) => if takesInsertion j.state (engineOf s p).motion then modifyEngine p startFeed s else s
  | none => s

/-- A book comes into the throat: the sensor changes from clear to present (R122). -/
def bookArrives (p : PrinterNo) (s : State) : State :=
  if (engineOf s p).present then s
  else
    let s := modifyEngine p (fun e => { e with present := true }) s
    if s.power = .up then insertBook p s else s

/-- The top edge of a feed: E, the stripe read, and READING on a first insertion (R122).  A job keeps its edge until
the next top edge (log entry 54). -/
def takeEdge (p : PrinterNo) (steps : Nat) (s : State) : State :=
  let s := modifyEngine p (fun e => { e with motion := .read, bookPosition := steps }) s
  match currentJob s p with
  | some (i, j) =>
    let j := { j with edge := some steps }
    if j.state = .awaitingBook then moveJob i j .reading s else setJob i j s
  | none => s

/-- The top edge ends a feed that runs (R122). -/
def edgeFound (p : PrinterNo) (steps : Nat) (s : State) : State :=
  if s.power = .up ∧ (engineOf s p).motion = .feed then takeEdge p steps s else s

/-- The step limit ends a feed that runs: a misfeed of kind "no edge" (R122). -/
def limitReached (p : PrinterNo) (s : State) : State :=
  if s.power = .up ∧ (engineOf s p).motion = .feed then
    match currentJob s p with
    | some (i, j) => takeBad p i j .noEdge (modifyEngine p (fun e => { e with bookPosition := 4095 }) s)
    | none => s
  else s

/-- Positions are compared page first and then line (R123). -/
def laterPosition (a b : Nat × Nat) : Nat × Nat :=
  if a.1 < b.1 ∨ (a.1 = b.1 ∧ a.2 < b.2) then b else a

/-- The position after printed-through (R123). -/
def recordPosition (printed : Option (Nat × Nat)) : Option (Nat × Nat) := printed.map fun p => (p.1, p.2 + 1)

/-- The start position of a first insertion; none is a wrong book (R123). -/
def startPosition (s : State) (account : Nat) (stripe : Option StripeData) : Option (Nat × Nat) :=
  match stripe with
  | some d =>
    if d.account = account then
      some ((recordPosition (printedThrough s account)).elim (d.page, d.line)
        (laterPosition (d.page, d.line)))
    else none
  | none => if newBookSet s account then some (1, 1) else none

/-- The snapshot is taken once per job (R107, R124). -/
def takeSnapshot (j : Job) (s : State) : List PrintItem × State :=
  match j.snapshot with
  | some items => (items, s)
  | none =>
    (((accountSlot s j.account).map fun e => snapshotItems e.2).getD [],
      changeAccount j.account snapshotEntry s)

/-- The stripe of a first insertion is read (R123, R124). -/
def readFirst (p : PrinterNo) (i : Fin 16) (j : Job) (stripe : Option StripeData) (s : State) : State :=
  match startPosition s j.account stripe with
  | some start =>
    let (items, s) := takeSnapshot j s
    proceed p i { j with next := some start, snapshot := some items } s
  | none => takeBad p i j .wrongBook s

/-- The stripe of a reinsertion is read: it must name the account and the page expected (R128). -/
def readAgain (p : PrinterNo) (i : Fin 16) (j : Job) (stripe : Option StripeData) (s : State) : State :=
  let next := j.next.getD (1, 1)
  match stripe with
  | some d =>
    if d.account = j.account ∧ d.page = next.1 then
      proceed p i { j with next := some (laterPosition (d.page, d.line) next) } s
    else takeBad p i j .wrongBook s
  | none => takeBad p i j .wrongBook s

def stripeRead (p : PrinterNo) (stripe : Option StripeData) (s : State) : State :=
  let s := setMotion p .still s
  match currentJob s p with
  | some (i, j) => if j.state = .turnPage then readAgain p i j stripe s else readFirst p i j stripe s
  | none => s

/-- The end of a stripe read that runs (R123, R124, R128). -/
def stripeReadEnds (p : PrinterNo) (stripe : Option (List Byte)) (s : State) : State :=
  if s.power = .up ∧ (engineOf s p).motion = .read then stripeRead p (readStripe stripe) s else s

/-! ### Line done and head home (R126, R127) -/

/-- What an item prints: a line its date, narrative, amount and balance-after; a summary its folded count, its net
amount and the dates of its first and last keys (R126). -/
def printedText : PrintItem → PrintedText
  | .line l => .line l.key.date l.narrative l.amount l.balance
  | .summary m => .summary m.count m.net m.first.date m.last.date

/-- The line that a job's next item prints at its next position (R126). -/
def printedLine (j : Job) : List PrintedLine :=
  match j.snapshot, j.next with
  | some (item :: _), some (page, line) => [⟨page, line, printedText item⟩]
  | _, _ => []

/-- A line stands printed in the book. -/
def emitPrinted (p : PrinterNo) (l : List PrintedLine) (s : State) : State :=
  { s with out := { s.out with printed := s.out.printed.modify p (· ++ l) } }

/-- The 40 columns are done: the line stands in the book and the head returns under the jam timer (R126 step 5). -/
def lineDone (p : PrinterNo) (s : State) : State :=
  let s := setMotion p .headReturn s
  match currentJob s p with
  | some (_, j) => emitPrinted p (printedLine j) s
  | none => s

/-- The end of the 40 columns of a line that runs (R126). -/
def lineEnds (p : PrinterNo) (s : State) : State :=
  if s.power = .up ∧ (engineOf s p).motion = .line then lineDone p s else s

/-- The job after its first item printed at its next position (R127 steps 2 and 3). -/
def advanceJob (j : Job) : Job :=
  { j with snapshot := j.snapshot.map List.tail, next := j.next.map fun n => (n.1, n.2 + 1) }

/-- The item printed is reported to the Passbook Line Unit (R108). -/
def reportItem (j : Job) (s : State) : State :=
  match j.snapshot, j.next with
  | some (item :: _), some (page, line) => reportPrinted j.account item page line s
  | _, _ => s

/-- The line is printed: report, advance and the cases of R127. -/
def linePrinted (p : PrinterNo) (i : Fin 16) (j : Job) (s : State) : State :=
  let s := reportItem j (setMotion p .still s)
  let j := advanceJob j
  if j.cancel then beginStripe p i j (.partly .cancelled) s else proceed p i j s

/-- The head comes home from a line (R127). -/
def headArrives (p : PrinterNo) (s : State) : State :=
  if s.power = .up ∧ (engineOf s p).motion = .headReturn then
    match currentJob s p with
    | some (i, j) => linePrinted p i j s
    | none => s
  else s

/-! ### Stripe write and eject (R125, R127, R128) -/

/-- The stripe cannot be written: EJECTING with PARTIAL (STRIPE_NOT_WRITTEN) (R125, R127, R128).  That this holds too of
a job whose cancel was kept while the stripe of a page turn or of a misfeed was written, where R132 gives PARTIAL
(CANCELLED) at eject done, is the model's choice (log entry 65). -/
def stripeFailed (p : PrinterNo) (i : Fin 16) (j : Job) (s : State) : State :=
  moveJob i { j with outcome := some (.partly .stripeNotWritten) } .ejecting
    (setMotion p (.eject .finish) s)

/-- The stripe is written and verified. -/
def stripeWritten (p : PrinterNo) (i : Fin 16) (j : Job) (why : WritePurpose) (s : State) : State :=
  match why with
  | .finish => moveJob i j .ejecting (setMotion p (.eject .finish) s)
  | .turn => raiseAttention .turnPage j (setMotion p (.eject .turn) s)
  | .retry =>
    if j.cancel then
      moveJob i { j with outcome := some (.partly .cancelled) } .ejecting (setMotion p (.eject .finish) s)
    else rePrompt p i j .insertBook s

/-- The bytes that the job's stripe write puts on the stripe (R128). -/
def stripeOf (j : Job) : List Byte :=
  let next := j.next.getD (1, 1)
  stripeBytes j.account next.1 next.2

def stripeVerified (p : PrinterNo) (why : WritePurpose) (second : Bool) (readBack : Option (List Byte))
    (s : State) : State :=
  match currentJob s p with
  | some (i, j) =>
    if readBack = some (stripeOf j) then stripeWritten p i j why s
    else if second then stripeFailed p i j s
    else setMotion p (.write why true) s
  | none => s

/-- The end of a stripe write that runs, with what was read back (R128). -/
def stripeWriteEnds (p : PrinterNo) (readBack : Option (List Byte)) (s : State) : State :=
  if s.power = .up then
    match (engineOf s p).motion with
    | .write why second => stripeVerified p why second readBack s
    | _ => s
  else s

/-- The end of an eject that belongs to the current job (R125, R128, R132). -/
def ejected (p : PrinterNo) (why : EjectPurpose) (s : State) : State :=
  match currentJob s p, why with
  | some (i, j), .finish => endJob i j (j.outcome.getD .done) s
  | some (i, j), .turn => if j.cancel then endJob i j (.partly .cancelled) s else s
  | _, _ => s

/-- The end of an eject that runs (R119, R128). -/
def ejectEnds (p : PrinterNo) (s : State) : State :=
  if s.power = .off then s
  else match (engineOf s p).motion with
    | .eject why =>
      let s := modifyEngine p (fun e => { e with motion := .still, inFeed := false }) s
      if s.power = .up then ejected p why s else s
    | _ => s

/-! ### Pulled book (R129) -/

/-- The page turn's write or eject still runs. -/
def turning : Motion → Bool
  | .write _ _ => true
  | .eject .turn => true
  | _ => false

/-- The effect of a removal on the current job; `m` is the motion it found (R129).  A job in WRITING_STRIPE with
BOOK_FULL or CANCELLED pending may hold items not yet printed: step 1 of R117 releases them, where R129 says that all
its items are printed (log entry 57). -/
def bookPulled (m : Motion) (i : Fin 16) (j : Job) (s : State) : State :=
  match j.state with
  | .reading => raiseAttention .insertBook j (moveJob i j .awaitingBook s)
  | .printing => endJob i j (.partly .bookPulled) s
  | .turnPage => if turning m then endJob i j (.partly .bookPulled) s else s
  | .writingStripe => endJob i j (.partly .bookPulled) s
  | .ejecting => endJob i j (j.outcome.getD .done) s
  | _ => s

/-- A book leaves the throat: the sensor changes from present to clear (R129). -/
def bookLeaves (p : PrinterNo) (s : State) : State :=
  if (engineOf s p).present then
    let m := (engineOf s p).motion
    let s := modifyEngine p (fun e => { e with present := false, inFeed := false, motion := .still }) s
    match s.power, currentJob s p with
    | .up, some (i, j) => bookPulled m i j s
    | _, _ => s
  else s

/-! ### Jam and reset (R130, R131) -/

/-- The printer jams: OUT_OF_SERVICE, the job ABORTED (JAM), the fault and the notice (R130). -/
def jam (p : PrinterNo) (i : Fin 16) (j : Job) (s : State) : State :=
  let s := modifyEngine p (fun e => { e with state := .outOfService, current := none, motion := .still }) s
  let s := endJob i j (.aborted .jam) s
  raiseAttention .outOfService j
    (captureFault .printerJam .pru [.num (printerPlace p), .num j.id] s)

/-- The jam timer of a head that is returning expires (R130). -/
def jamTimesOut (p : PrinterNo) (s : State) : State :=
  if s.power = .up ∧ (engineOf s p).motion = .headReturn then
    match currentJob s p with
    | some (i, j) => jam p i j s
    | none => s
  else s

def printerOf (f : Fld PrinterNo) : PrinterNo := f.getD 0

def isNamed (f : Fld PrinterNo) : Bool := f.required fun _ => true

def printerResetChecks (h : ReqHead) (printer : Fld PrinterNo) (s : State) : List Check :=
  officerOnly h ++
    [⟨!h.spare && isNamed printer, .badField, []⟩,
     ⟨(engineOf s (printerOf printer)).state == .outOfService, .wrongState, []⟩]

def printerResetTaken (printer : Fld PrinterNo) (s : State) : Verdict :=
  let p := printerOf printer
  let s := modifyEngine p (fun e =>
    { e with state := .idle, motion := if e.present then .eject .clearing else .still }) s
  let s := startNext p s
  take s [numField (engineOf s p).queue.length]

/-! ### PRINT.START (R120) and PRINT.CANCEL (R132) -/

def freeJobSlot (s : State) : Option (Fin 16) := s.pru.jobs.findIdx Option.isNone

/-- From the next job id on, the first that no slot holds (R116). -/
def jobNumber (s : State) : Nat := firstFree (fun n => (jobSlot s n).isSome) 255 17 s.pru.nextJob

/-- "job exists" is 1 and "nothing to print" 2 (R120). -/
def registerDetail (s : State) (account : Nat) : List (Option (List Item)) :=
  if (accountSlot s account).elim false fun e => e.2.jobRef then [some [.num 1]] else [some [.num 2]]

def printStartChecks (h : ReqHead) (r : PrintReq) (s : State) : List Check :=
  let e := engineOf s (printerOf r.printer)
  positionChecks h s r.position ++
    [⟨dayIs s [.noDay, .opened, .closing] && !s.pru.sealAnswered, .dayState, []⟩,
     ⟨!h.spare && isDigits12 r.account && isNamed r.printer, .badField, []⟩,
     ⟨e.state != .outOfService, .wrongState, []⟩,
     ⟨e.queue.length < 6, .queueFull, []⟩,
     ⟨(freeJobSlot s).isSome, .tableFull, []⟩,
     ⟨mayRegister s r.account.nat, .wrongState, registerDetail s r.account.nat⟩]

/-- The job that PRINT.START writes (R120). -/
def newJob (s : State) (r : PrintReq) : Job :=
  ⟨jobNumber s, r.account.nat, positionOf r.position, printerOf r.printer, .queued, none, 0, none, none, none,
    false⟩

/-- The job in its slot and queue, the position's newest-job note (R118, R120). -/
def queueJob (i : Fin 16) (j : Job) (s : State) : State :=
  let s := modifyEngine j.printer (fun e => { e with queue := e.queue ++ [j.id] }) (setJob i j s)
  let s := { s with pru := { s.pru with
    nextJob := numberAfter 255 j.id
    notes := s.pru.notes.set j.position (some ⟨j.id, .live .queued⟩) } }
  report [.jobState j.position] s

/-- The jobs of a queue that stand before an id. -/
def jobsAhead (queue : List Nat) (id : Nat) : Nat := (queue.takeWhile (· != id)).length

/-- The jobs ahead of a job in its printer's queue; none once it has left the queue. -/
def aheadOf (s : State) (j : Job) : Nat :=
  if (engineOf s j.printer).queue.contains j.id then jobsAhead (engineOf s j.printer).queue j.id else 0

def jobStateNow (s : State) (id : Nat) : Option JobState := (jobSlot s id).map fun e => e.2.state

def printStartTaken (r : PrintReq) (s : State) : Verdict :=
  let j := newJob s r
  let s := queueJob ((freeJobSlot s).getD 0) j (registerJob r.account.nat s)
  let s := startNext j.printer s
  take s [numField j.id, numField ((jobStateNow s j.id).elim 1 JobState.place), numField (aheadOf s j)]

/-- The job of the table whose position is the one given. -/
def jobHeldAt (s : State) (r : CancelReq) : Option (Fin 16 × Job) :=
  (jobSlot s r.job.nat).bind fun e => if e.2.position = positionOf r.position then some e else none

def pastCancel (j : JobState) : Bool := j == .writingStripe || j == .ejecting

/-- The job's state, or 12 for "not held" (R132; log entry 7). -/
def cancelDetail (o : Option (Fin 16 × Job)) : List (Option (List Item)) :=
  [some [.num (o.elim 12 fun e => e.2.state.place)]]

def printCancelChecks (h : ReqHead) (r : CancelReq) (s : State) : List Check :=
  let held := jobHeldAt s r
  ⟨!h.spare && inRange 0 11 r.position && inRange 1 255 r.job, .badField, []⟩ ::
    forPosition h s (positionOf r.position) ++
    [⟨held.isSome, .wrongState, cancelDetail none⟩,
     ⟨held.elim false fun e => !pastCancel e.2.state, .wrongState, cancelDetail held⟩]

/-- The effect of a cancel by the job's state (R132); with it the job's state or terminal outcome after. -/
def cancelJob (i : Fin 16) (j : Job) (s : State) : State × NoteStatus :=
  let p := j.printer
  let m := (engineOf s p).motion
  match j.state with
  | .queued => (endJob i j (.cancelled .request) s, .ended (.cancelled .request))
  | .awaitingBook => (clearBook p (endJob i j (.cancelled .request) s), .ended (.cancelled .request))
  | .reading =>
    (moveJob i { j with outcome := some (.partly .cancelled) } .ejecting (setMotion p (.eject .finish) s),
      .live .ejecting)
  | .turnPage =>
    if turning m then (setJob i { j with cancel := true } s, .live .turnPage)
    else (clearBook p (endJob i j (.partly .cancelled) s), .ended (.partly .cancelled))
  | state => (setJob i { j with cancel := true } s, .live state)

def printCancelTaken (r : CancelReq) (s : State) : Verdict :=
  match jobHeldAt s r with
  | some (i, j) =>
    let (s, status) := cancelJob i j s
    take s [numField status.place]
  | none => refuse s ⟨false, .wrongState, cancelDetail none⟩

/-! ### PRINTER.PACE (R133, R135) -/

/-- PRINTER.PACE with all six values absent is a read (R135). -/
def paceIsRead (r : PaceReq) : Bool :=
  !(r.column.present || r.needle.present || r.feed.present || r.pitch.present || r.margin.present ||
    r.jam.present)

def printerPaceChecks (h : ReqHead) (r : PaceReq) : List Check :=
  (if paceIsRead r then anyMaster h else officerOnly h) ++
    [⟨!h.spare && isNamed r.printer && [r.column, r.needle, r.feed, r.pitch, r.margin, r.jam].all
        (fun f => f.optional fun _ => true), .badField, []⟩]

/-- A value of a pacing request as it is taken. -/
def stagedValue (lo hi : Nat) (f : Fld Nat) (old : Nat) : Nat := (f.toOption.map (clamp lo hi)).getD old

/-- The staged values after a request (R133, R135). -/
def stagedPace (r : PaceReq) (old : Pace) : Pace where
  column := stagedValue 200 5000 r.column old.column
  needle := stagedValue 50 5000 r.needle old.needle
  feed := stagedValue 500 10000 r.feed old.feed
  pitch := stagedValue 24 96 r.pitch old.pitch
  margin := stagedValue 0 400 r.margin old.margin
  jam := stagedValue 50 2000 r.jam old.jam

/-- Whether a value present was clamped. -/
def wasClamped (lo hi : Nat) (f : Fld Nat) : Option (List Item) :=
  f.toOption.map fun n => [.flag (clamp lo hi n != n)]

def paceItems (x : Pace) : List Item :=
  [.num x.column, .num x.needle, .num x.feed, .num x.pitch, .num x.margin, .num x.jam]

def printerPaceTaken (r : PaceReq) (s : State) : Verdict :=
  let p := printerOf r.printer
  let s := { s with store := { s.store with
    pacing := s.store.pacing.modify p fun x => { x with staged := stagedPace r x.staged } } }
  takeMasked s
    [some (paceItems (paceOf s p).staged), some (paceItems (paceOf s p).applied),
     wasClamped 200 5000 r.column, wasClamped 50 5000 r.needle, wasClamped 500 10000 r.feed,
     wasClamped 24 96 r.pitch, wasClamped 0 400 r.margin, wasClamped 50 2000 r.jam]

/-! ### The day seal (R136) -/

def jobsOf (s : State) : List (Fin 16 × Job) :=
  s.pru.jobs.entries.filterMap fun e => e.2.map fun j => (e.1, j)

/-- A job that a seal may cancel. -/
def sealable (j : Job) : Bool := j.state == .queued || j.state == .awaitingBook

/-- The printers answer "busy" (R136). -/
def printersBusy (s : State) : Bool := (jobsOf s).any fun e => !sealable e.2

/-- One slot's job, as it stands by now, ends CANCELLED (DAY_SEAL). -/
def cancelForSeal (s : State) (i : Fin 16) : State :=
  match s.pru.jobs.get i with
  | some j => endJob i j (.cancelled .daySeal) s
  | none => s

/-- The book of a printer in service is cleared; a jammed printer's is left where it stands (R119, R130). -/
def clearServed (p : PrinterNo) (s : State) : State :=
  if (engineOf s p).state = .outOfService then s else clearBook p s

def clearBooks (s : State) : State := clearServed 1 (clearServed 0 s)

/-- Every job ends in ascending slot order, books are cleared and the seal-answered flag is set (R136). -/
def sealPrinters (s : State) : State :=
  let s := clearBooks ((List.finRange 16).foldl cancelForSeal s)
  { s with pru := { s.pru with sealAnswered := true } }

/-! ### Power and format (R137, R138) -/

/-- The power warning at one mechanism: everything stops and a book present is ejected (R137). -/
def stopEngine (e : Engine) : Engine :=
  { e with motion := if e.present || e.inFeed then .eject .clearing else .still }

def stopPrinters (s : State) : State :=
  { s with pru := { s.pru with engines := s.pru.engines.map stopEngine } }

/-- An engine at power-up of a part in STORE_INVALID: a book present is ejected once (R115). -/
def invalidEngine (e : Engine) : Engine :=
  { powerUpEngine e.present e.inFeed with
    motion := if e.present || e.inFeed then .eject .clearing else .still }

/-- The Printer Unit at power-up (R137). -/
def powerUpPrinters (invalid : Bool) (s : State) : State :=
  { s with pru := powerUpPru (s.pru.engines.map fun e =>
      if invalid then invalidEngine e else powerUpEngine e.present e.inFeed) }

/-- PRINT_DONE for each job that STORE.FORMAT ends (R138). -/
def raiseFormatted (s : State) : State :=
  (jobsOf s).foldl (fun s e =>
    raiseAt e.2.position (.printDone e.2.id e.2.printer (.cancelled .format)) s) s

/-- The Printer Unit's part in STORE.FORMAT: jobs gone, engines IDLE, books cleared (R138). -/
def formatPru (s : State) : State :=
  { s with pru := powerUpPru (s.pru.engines.map fun e => powerUpEngine e.present e.inFeed) }

end Sys2Proof.Machine
end

