-- ==== Sys2Proof/Machine/Line.lean ====
section
/-! DEFINITION. The head-office line: the day-end file (R168, R169), the sender (R170 to R175) and
LINE.SETTINGS (R167). -/

namespace Sys2Proof.Machine

/-! ### The day state as others see it (R159) -/

/-- A change of the day state is raised to master 4 and reported to the Screen Unit (R159). -/
def dayChanged (state : DayState) (s : State) : State := report [.dayState] (raiseOfficer (.dayChanged state) s)

def setDayState (state : DayState) (s : State) : State := modifyDay (fun d => { d with state := state }) s

/-! ### The day-end file (R168, R169) -/

/-- Blocks of 32 records. -/
def blocksOf (records : Nat) : Nat := divUp records 32

/-- The journal count n of the sealed day. -/
def journalCount (s : State) : Nat := s.store.day.used

/-- T, the file's total block count (R168). -/
def totalBlocks (s : State) : Nat := 3 + blocksOf (journalCount s) + blocksOf s.store.carryCount

def branchNumber (s : State) : Nat := s.store.lineSettings.branch.getD 0

def headerRecord (s : State) : List Byte :=
  bytesOf 2 (branchNumber s) ++ packedDigits 4 (businessDate s) ++ bytesOf 2 (journalCount s) ++
    bytesOf 2 s.store.carryCount ++ bytesOf 2 (totalBlocks s)

/-- The counts of every denomination of every defined currency as entries of four bytes. -/
def countEntries (s : State) (t : Counts) : List Byte := (closingEntries s t).flatMap tenderBytes

def drawerSection (s : State) (n : DrawerNo) : List Byte :=
  let d := s.store.drawers.get n
  bytesOf 1 n.val ++ countEntries s d.opening ++ countEntries s d.current ++ amountBytes d.tally ++
    bytesOf 1 d.attempts

def keyBytes (k : Key) : List Byte := packedDigits 4 k.date ++ bytesOf 2 k.sequence

/-- A carry-over record: account, form byte, then the fields of R169. -/
def carryBytes (e : Nat × PrintItem) : List Byte :=
  packedDigits 6 e.1 ++
    match e.2 with
    | .summary m =>
      bytesOf 1 1 ++ bytesOf 2 m.count ++ amountBytes m.net ++ keyBytes m.first ++ keyBytes m.last
    | .line l =>
      bytesOf 1 2 ++ keyBytes l.key ++ bytesOf 1 l.narrative ++ amountBytes l.amount ++
        optBytes amountBytes l.balance ++ optBytes (bytesOf 2) l.reverses

/-- The journal of the day. -/
def dayJournal (s : State) : List Record := s.store.journal.take s.store.day.used

def countKind (k : RecordKind) (l : List Record) : Nat := (l.filter fun r => r.kind == k).length

/-- POSTING and REVERSAL records, whose home amounts the trailer sums. -/
def isCash (r : Record) : Bool := r.kind == .posting || r.kind == .reversal

/-- The sum of home amounts modulo 2^32 (R169). -/
def homeSum (l : List Record) : Nat :=
  (((l.filter isCash).foldr (fun r acc => r.homeAmount.getD 0 + acc) 0) % (4294967296 : Int)).toNat

def trailerRecord (s : State) : List Byte :=
  let n := journalCount s
  let m := s.store.carryCount
  let l := dayJournal s
  [n, 13, m, 1 + n + 13 + m + 1, totalBlocks s, countKind .posting l, countKind .reversal l,
    homeSum l].flatMap (bytesOf 4)

/-- Sections of the file (R168). -/
inductive FileSection where
  | header | journal | drawers | carry | trailer
deriving DecidableEq, Repr

def FileSection.code : FileSection → Nat
  | .header => 1 | .journal => 2 | .drawers => 3 | .carry => 4 | .trailer => 5

/-- The section of a block, and the block's index within it from 0 (R168). -/
def blockPlace (s : State) (b : Nat) : FileSection × Nat :=
  let j := blocksOf (journalCount s)
  if b ≤ 1 then (.header, 0)
  else if b ≤ 1 + j then (.journal, b - 2)
  else if b = 2 + j then (.drawers, 0)
  else if b < totalBlocks s then (.carry, b - 3 - j)
  else (.trailer, 0)

/-- At most 32 items, from the index of a block. -/
def window {α : Type} (index : Nat) (l : List α) : List α := (l.drop (32 * index)).take 32

/-- The journal records a block is built from, whose checks are verified (R83, R169). -/
def recordsRead (s : State) (b : Nat) : List Record :=
  match blockPlace s b with
  | (.journal, i) => window i (dayJournal s)
  | (.trailer, _) => dayJournal s
  | _ => []

/-- The records of a block (R169). -/
def blockRecords (s : State) (b : Nat) : List (List Byte) :=
  match blockPlace s b with
  | (.header, _) => [headerRecord s]
  | (.journal, i) => (window i (dayJournal s)).map fun r => { r with applied := true }.image false
  | (.drawers, _) => drawerNos.map (drawerSection s)
  | (.carry, i) => (window i (carrySet s)).map carryBytes
  | (.trailer, _) => [trailerRecord s]

/-- The BLOCK frame of a block, built afresh (R168, R193). -/
def blockFrame (s : State) (b : Nat) : Frame :=
  let records := blockRecords s b
  ⟨2, bytesOf 2 b ++ bytesOf 1 (blockPlace s b).1.code ++ bytesOf 1 records.length ++
    records.flatMap fun r => bytesOf 2 r.length ++ r⟩

/-! ### The sender (R170 to R175) -/

def modifySender (f : Sender → Sender) (s : State) : State := { s with sender := f s.sender }

def emitLine (f : Frame) (s : State) : State := { s with out := { s.out with line := s.out.line ++ [f] } }

def setLineReady (b : Bool) (s : State) : State := { s with out := { s.out with lineReady := b } }

/-- Acknowledged-through, k. -/
def ackThrough (s : State) : Nat := s.store.day.ackThrough

def setAckThrough (k : Nat) (s : State) : State := modifyDay (fun d => { d with ackThrough := k }) s

def responseTimeout (s : State) : Nat := s.store.lineSettings.timeout

/-- CALL is sent: the call count rises, the timer starts, WAIT_READY (R171). -/
def sendCall (s : State) : State :=
  emitLine ⟨1, bytesOf 2 (branchNumber s) ++ packedDigits 4 (businessDate s) ++
      bytesOf 2 (totalBlocks s) ++ bytesOf 2 (ackThrough s + 1)⟩
    (modifySender (fun x => { x with
      state := .waitReady
      calls := x.calls + 1
      wait := none
      timer := some (responseTimeout s) }) s)

/-- The lowest outstanding block, or k + 1 (R175). -/
def lowestOutstanding (s : State) : Nat := (s.sender.outstanding.head?.map OutBlock.block).getD (ackThrough s + 1)

/-- The SEND_FAILED fault of a failure, captured for every reason but STORE_CHECK (R175). -/
def failureFault (reason : SendFailure) (s : State) : State :=
  if reason = .storeCheck then s
  else captureFault .sendFailed .dlu [.num reason.place, .num (lowestOutstanding s)] s

/-- The sender fails: FAILED, line ready dropped, the day SEALED, the notices and the fault (R175). -/
def failSender (reason : SendFailure) (s : State) : State :=
  let s := failureFault reason s
  let s := setLineReady false (modifySender (fun x => { x with
    state := .failed
    outstanding := []
    wait := none
    timer := none
    failure := some reason }) s)
  raiseOfficer (.sendFailed reason (ackThrough s)) (dayChanged .sealed (setDayState .sealed s))

/-- The first record of a block whose check fails. -/
def failingRecord (s : State) (b : Nat) : Option Record := (recordsRead s b).find? fun r => !r.checkOk

/-- A block is built and sent, or the sender fails on a record whose check fails (R169, R175). -/
def sendBlock (b : Nat) (s : State) : State :=
  match failingRecord s b with
  | some r => failSender .storeCheck (storeCheckFault r.sequence s)
  | none => emitLine (blockFrame s b) s

/-- END is sent, and its timer starts (R174). -/
def sendEnd (tries : Nat) (s : State) : State :=
  emitLine ⟨3, bytesOf 2 (totalBlocks s)⟩
    (modifySender (fun x => { x with
      state := .waitClosed
      outstanding := []
      endTries := tries
      timer := some (responseTimeout s) }) s)

/-- The block after the highest outstanding one, or k + 1 (R172). -/
def nextBlock (s : State) : Nat :=
  (s.sender.outstanding.getLast?.map fun b => b.block + 1).getD (ackThrough s + 1)

/-- Send the next block when fewer than two are outstanding (R172). -/
def sendNext (s : State) : State :=
  if s.sender.state = .sending ∧ s.sender.outstanding.length < 2 ∧ nextBlock s ≤ totalBlocks s then
    sendBlock (nextBlock s) (modifySender (fun x => { x with
      outstanding := x.outstanding ++ [⟨nextBlock s, 0, 0, responseTimeout s⟩] }) s)
  else s

/-- Fill the window of two blocks (R172). -/
def fillWindow (s : State) : State := sendNext (sendNext s)

/-- k has moved: END when it is T, otherwise the window is filled (R171, R172). -/
def goOn (s : State) : State := if ackThrough s = totalBlocks s then sendEnd 1 s else fillWindow s

/-- A block's age is 0 again, and its timeout the one now in force (R167, R173). -/
def restartAge (s : State) (block : Nat) (b : OutBlock) : OutBlock :=
  if b.block = block then { b with age := 0, limit := responseTimeout s } else b

/-- Send an outstanding block again (R173). -/
def resendBlock (s : State) (block : Nat) : State :=
  if s.sender.state = .sending ∧ (s.sender.outstanding.any fun b => b.block == block) = true then
    sendBlock block (modifySender (fun x => { x with
      outstanding := x.outstanding.map (restartAge s block) }) s)
  else s

/-- The retries of an outstanding block. -/
def retriesOf (s : State) (block : Nat) : Nat :=
  ((s.sender.outstanding.find? fun b => b.block == block).map OutBlock.retries).getD 0

def countRetry (block : Nat) (b : OutBlock) : OutBlock :=
  if b.block = block then { b with retries := b.retries + 1 } else b

/-- A retry of an outstanding block: resent with the next one, or the fifth and the sender fails (R173). -/
def retryBlock (block : Nat) (s : State) : State :=
  if 4 ≤ retriesOf s block then failSender .retryLimit s
  else
    let s := modifySender (fun x => { x with outstanding := x.outstanding.map (countRetry block) }) s
    resendBlock (resendBlock s block) (block + 1)

/-! ### Frames from head office (R170 to R174, R193) -/

/-- Frames change nothing in IDLE, DONE or FAILED (R170). -/
def listening (s : State) : Bool :=
  match s.sender.state with
  | .idle | .done | .failed => false
  | _ => true

/-- A frame that the state does not admit (R170). -/
def anomaly (s : State) : State := modifySender (fun x => { x with anomalies := min 65535 (x.anomalies + 1) }) s

/-- An arriving frame is taken when its check holds and the sender listens; otherwise it changes nothing. -/
def takeFrame (f : Frame) (check : Word) (k : State → State) (s : State) : State :=
  if s.power = .up ∧ check = f.check ∧ listening s = true then k s else s

/-- READY(e) in WAIT_READY (R171). -/
def takeReady (e : Nat) (s : State) : State :=
  if e = 0 then anomaly s
  else if ackThrough s + 1 < e then failSender .badResume (emitLine ⟨4, []⟩ s)
  else
    goOn (modifySender (fun x => { x with state := .sending, timer := none, outstanding := [] })
      (setAckThrough (e - 1) s))

/-- A READY frame (R171). -/
def readyArrives (block check : Word) (s : State) : State :=
  takeFrame ⟨17, bytesOf 2 block.toNat⟩ check
    (fun s => if s.sender.state = .waitReady then takeReady block.toNat s else anomaly s) s

/-- BUSY in WAIT_READY (R171). -/
def takeBusy (s : State) : State :=
  if s.sender.calls < 5 then
    modifySender (fun x => { x with state := .calling, timer := none, wait := some 30 }) s
  else failSender .busyLimit s

/-- A BUSY frame (R171). -/
def busyArrives (check : Word) (s : State) : State :=
  takeFrame ⟨18, []⟩ check (fun s => if s.sender.state = .waitReady then takeBusy s else anomaly s) s

def isOutstanding (s : State) (block : Nat) : Bool :=
  s.sender.state == .sending && s.sender.outstanding.any fun b => b.block == block

/-- ACK of an outstanding block: every block up to it is acknowledged (R172). -/
def takeAck (block : Nat) (s : State) : State :=
  goOn (modifySender (fun x => { x with
    outstanding := x.outstanding.filter fun b => decide (block < b.block) }) (setAckThrough block s))

/-- An ACK frame (R172). -/
def ackArrives (block check : Word) (s : State) : State :=
  takeFrame ⟨19, bytesOf 2 block.toNat⟩ check
    (fun s => if isOutstanding s block.toNat then takeAck block.toNat s else anomaly s) s

/-- A NAK frame (R173). -/
def nakArrives (block check : Word) (s : State) : State :=
  takeFrame ⟨20, bytesOf 2 block.toNat⟩ check
    (fun s => if isOutstanding s block.toNat then retryBlock block.toNat s else anomaly s) s

/-- The day reference is 1 to 16 characters of codes 32 to 126 (R174). -/
def referenceOk (reference : List Byte) : Bool :=
  between 1 16 reference.length && reference.all fun b => between 32 126 b.toNat

/-- CLOSED in WAIT_CLOSED: the day is DELIVERED and the sender DONE (R174). -/
def takeClosed (reference : List Byte) (s : State) : State :=
  let s := modifyDay (fun d => { d with reference := some reference, state := .delivered }) s
  let s := setLineReady false (modifySender (fun x => { x with state := .done, timer := none }) s)
  raiseOfficer (.delivered reference) (dayChanged .delivered s)

/-- A CLOSED frame (R174). -/
def closedArrives (reference : List Byte) (check : Word) (s : State) : State :=
  takeFrame ⟨21, bytesOf 1 reference.length ++ reference⟩ check
    (fun s => if s.sender.state = .waitClosed ∧ referenceOk reference = true then takeClosed reference s
      else anomaly s) s

/-- The kind and payload length of a frame that head office may send (R193). -/
def knownFrame (kind : Nat) (payload : List Byte) : Bool :=
  match kind with
  | 17 | 19 | 20 => payload.length == 2
  | 18 => payload.isEmpty
  | 21 => (payload.head?.map fun b => b.toNat + 1 == payload.length).getD false
  | _ => false

/-- A frame of at least five bytes whose check holds (R193). -/
def frameStands (bytes : List Byte) : Bool :=
  let body := bytes.take (bytes.length - 2)
  5 ≤ bytes.length && bytes.drop (bytes.length - 2) == bytesOf 2 (crc16 body).toNat

/-- The bytes are a frame of a known kind whose length agrees with it. -/
def isKnownFrame (bytes : List Byte) : Bool :=
  let payload := (bytes.take (bytes.length - 2)).drop 3
  match bytes with
  | kind :: hi :: lo :: _ => knownFrame kind.toNat payload && pairValue hi lo == payload.length
  | _ => false

/-- A frame of unknown kind or of a length that disagrees with its kind (R170, R193). -/
def unknownArrives (bytes : List Byte) (s : State) : State :=
  if s.power = .up ∧ frameStands bytes = true ∧ isKnownFrame bytes = false ∧ listening s = true then anomaly s
  else s

/-! ### Seconds (R170, R171, R173, R174) -/

/-- The wait for the next CALL ends (R171). -/
def waitEnds (s : State) : State := if s.sender.state = .calling then sendCall s else s

/-- The response timer reaches 0 in WAIT_READY (R171). -/
def callTimesOut (s : State) : State := if s.sender.calls < 5 then sendCall s else failSender .noAnswer s

/-- The response timer reaches 0 in WAIT_CLOSED (R174). -/
def endTimesOut (s : State) : State :=
  if s.sender.endTries < 5 then sendEnd (s.sender.endTries + 1) s else failSender .endLimit s

/-- The oldest outstanding block. -/
def oldestBlock (s : State) : Option OutBlock := s.sender.outstanding.head?

/-- An age reaches the response timeout at the next second. -/
def agesOut (b : OutBlock) : Bool := b.limit ≤ b.age + 1

def tickCalling (s : State) : State :=
  match s.sender.wait with
  | some n => if n ≤ 1 then waitEnds s else modifySender (fun x => { x with wait := some (n - 1) }) s
  | none => waitEnds s

/-- One second of the response timer; at 0 `expire` is taken. -/
def tickTimer (expire : State → State) (s : State) : State :=
  match s.sender.timer with
  | some n => if n ≤ 1 then expire s else modifySender (fun x => { x with timer := some (n - 1) }) s
  | none => s

/-- One second of the outstanding blocks' ages; the oldest reaching its timeout is retried (R173). -/
def tickSending (s : State) : State :=
  let aged := modifySender (fun x => { x with
    outstanding := x.outstanding.map fun b => { b with age := b.age + 1 } }) s
  match oldestBlock s with
  | some b => if agesOut b then retryBlock b.block aged else aged
  | none => aged

/-- The Day and Line Unit takes a second tick (R170). -/
def tickDlu (s : State) : State :=
  match s.sender.state with
  | .calling => tickCalling s
  | .waitReady => tickTimer callTimesOut s
  | .sending => tickSending s
  | .waitClosed => tickTimer endTimesOut s
  | _ => s

/-- The response timer has at most one second left. -/
def timerDue (s : State) : Bool := s.sender.timer.elim false fun n => n ≤ 1

/-- The wait for the next CALL has at most one second left. -/
def callWaitDue (s : State) : State := if s.power = .up ∧ s.sender.wait.getD 0 ≤ 1 then waitEnds s else s

/-- The response timer in WAIT_READY has at most one second left (R171). -/
def responseTimerDue (s : State) : State :=
  if s.power = .up ∧ s.sender.state = .waitReady ∧ timerDue s = true then callTimesOut s else s

/-- The response timer in WAIT_CLOSED has at most one second left (R174). -/
def endTimerDue (s : State) : State :=
  if s.power = .up ∧ s.sender.state = .waitClosed ∧ timerDue s = true then endTimesOut s else s

/-- The oldest outstanding block's age reaches the response timeout (R173). -/
def blockAgeDue (s : State) : State :=
  if s.power = .up ∧ s.sender.state = .sending then
    match oldestBlock s with
    | some b => if agesOut b then retryBlock b.block s else s
    | none => s
  else s

/-! ### LINE.SETTINGS (R167) -/

/-- LINE.SETTINGS with both fields absent is a read (R167). -/
def lineIsRead (r : LineReq) : Bool := !(r.branch.present || r.timeout.present)

def lineSettingsChecks (h : ReqHead) (r : LineReq) (s : State) : List Check :=
  (if lineIsRead r then anyMaster h else officerOnly h) ++
    [⟨!h.spare && r.branch.optional (between 1 9999) && r.timeout.optional fun _ => true, .badField, []⟩,
     ⟨!r.branch.present || dayIs s [.noDay], .dayState, []⟩]

/-- The settings with the fields given. -/
def settingsAfter (r : LineReq) (x : LineSettings) : LineSettings :=
  ⟨r.branch.toOption.or x.branch, (r.timeout.toOption.map (clamp 2 60)).getD x.timeout⟩

def lineSettingsTaken (r : LineReq) (s : State) : Verdict :=
  let s := { s with store := { s.store with lineSettings := settingsAfter r s.store.lineSettings } }
  let x := s.sender
  takeMasked s
    [s.store.lineSettings.branch.map numField, some [.num s.store.lineSettings.timeout],
     some [.flag (r.timeout.present && clamp 2 60 r.timeout.nat != r.timeout.nat)],
     some [.num x.state.place], x.failure.map (fun f => [.num f.place]), some [.num x.calls],
     some [.num (ackThrough s)],
     some (.num x.outstanding.length :: x.outstanding.map fun b => .num b.block),
     some [.num x.anomalies]]

end Sys2Proof.Machine
end

