-- ==== Sys2Proof/Machine/Day.lean ====
section
/-! DEFINITION. The six day requests (R160 to R166). -/

namespace Sys2Proof.Machine

/-- A day record: no field but its kind, its stamp and, for DAY_OPEN, the date in the account field (R82). -/
def dayRecord (k : RecordKind) (date : Option Nat) : Record := { emptyRecord k with account := date }

/-- A day record is appended in the store write that moves the day state (R81). -/
def appendDay (k : RecordKind) (date : Option Nat) (f : DayRecord → DayRecord) (s : State) : State :=
  modifyDay f (appendRecord (dayRecord k date) s)

/-! ### DAY.OPEN (R160) -/

def isLeap (y : Nat) : Bool := (y % 4 == 0 && y % 100 != 0) || y % 400 == 0

/-- The length of a month. -/
def monthLength (y m : Nat) : Nat :=
  if m = 2 then (if isLeap y then 29 else 28)
  else if m = 4 ∨ m = 6 ∨ m = 9 ∨ m = 11 then 30
  else 31

/-- Eight digits of year, month and day that name a day (R160). -/
def isDate (n : Nat) : Bool :=
  fitsDate n && between 1 12 (n / 100 % 100) && between 1 (monthLength (n / 10000) (n / 100 % 100)) (n % 100)

def dayOpenChecks (h : ReqHead) (date : Fld Nat) (s : State) : List Check :=
  officerOnly h ++
    [⟨dayIs s [.noDay], .dayState, []⟩,
     ⟨!h.spare && date.required isDate, .badField, []⟩,
     ⟨s.store.day.lastDelivered.elim true fun d => d < date.nat, .badField, []⟩,
     ⟨s.store.lineSettings.branch.isSome, .wrongState, []⟩,
     ⟨isDefined s 0, .wrongState, []⟩]

def dayOpenTaken (date : Fld Nat) (s : State) : Verdict :=
  let sequence := nextSequence s
  let s := appendDay .dayOpen (some date.nat) (fun d =>
    { d with state := .opened, date := some date.nat, reference := none }) s
  let s := setApplied sequence .none (openDrawers (fun _ => true) s)
  take (dayChanged .opened s) [numField sequence]

/-! ### DAY.CLOSE (R161) and DAY.REOPEN (R162) -/

def dayCloseChecks (h : ReqHead) (s : State) : List Check :=
  officerOnly h ++
    [bodyCheck h, ⟨dayIs s [.opened], .dayState, []⟩, ⟨roomFor s .reserve 1, .journalFull, []⟩]

def dayCloseTaken (s : State) : Verdict :=
  let sequence := nextSequence s
  let s := appendDay .dayCloseBegin none (fun d => { d with state := .closing }) s
  let s := setApplied sequence .none (expireDayClose s)
  take (dayChanged .closing s) [numField sequence]

/-- The lowest drawer that is CLOSED or in DIFFERENCE. -/
def lowestSettled (s : State) : Option DrawerNo := drawerNos.find? (isSettled s)

def drawerDetail (d : Option DrawerNo) : List (Option (List Item)) :=
  match d with
  | some d => [some [.num d.val]]
  | none => []

def dayReopenChecks (h : ReqHead) (s : State) : List Check :=
  officerOnly h ++
    [bodyCheck h, ⟨dayIs s [.closing], .dayState, []⟩,
     ⟨roomFor s .reserve 1, .journalFull, []⟩,
     ⟨(lowestSettled s).isNone, .wrongState, drawerDetail (lowestSettled s)⟩]

def dayReopenTaken (s : State) : Verdict :=
  let sequence := nextSequence s
  let s := appendDay .dayReopen none (fun d => { d with state := .opened }) s
  take (dayChanged .opened (setApplied sequence .none s)) [numField sequence]

/-! ### DAY.SEAL (R163, R164) -/

/-- The lowest drawer that is not CLOSED. -/
def lowestOpen (s : State) : Option DrawerNo :=
  drawerNos.find? fun d => (s.store.drawers.get d).state != .closed

/-- Steps 1 to 6 of R163.  Details: "drawers" 1, "transfers" 2, "printers" 3, "lines" 4. -/
def daySealChecks (h : ReqHead) (s : State) : List Check :=
  officerOnly h ++
    [bodyCheck h, ⟨dayIs s [.closing], .dayState, []⟩,
     ⟨roomFor s .seal 1, .journalFull, []⟩,
     ⟨(lowestOpen s).isNone, .wrongState, some [.num 1] :: drawerDetail (lowestOpen s)⟩,
     ⟨(offeredSlots s).isEmpty, .wrongState, [some [.num 2], some [.num (offeredSlots s).length]]⟩,
     ⟨!printersBusy s, .wrongState, [some [.num 3]]⟩]

/-- The DAY_SEAL record, the carry count and the state SEALED in one store write (R164). -/
def commitSeal (s : State) : State :=
  let sequence := nextSequence s
  let m := (carrySet s).length
  let s := appendDay .daySeal none (fun d => { d with state := .sealed }) s
  let s := { s with store := { s.store with carryCount := m } }
  dayChanged .sealed (setApplied sequence .none s)

/-- After step 6, whose cancellations stand, step 7 and the commit (R163, R164). -/
def daySealTaken (s : State) : Verdict :=
  let clear := sealPrinters s
  if freezeBusy clear then refuse clear ⟨false, .wrongState, [some [.num 4]]⟩
  else
    let done := commitSeal clear
    take done [numField (nextSequence clear), numField (journalCount done), numField done.store.carryCount,
      numField (totalBlocks done)]

/-! ### DAY.SEND (R165) and DAY.CLEAR (R166) -/

def daySendChecks (h : ReqHead) (s : State) : List Check :=
  officerOnly h ++
    [bodyCheck h, ⟨dayIs s [.sealed], .dayState, []⟩,
     ⟨s.store.lineSettings.branch.isSome, .wrongState, []⟩]

/-- The sender as DAY.SEND sets it (R170). -/
def freshSender : Sender := { idleSender with state := .calling }

/-- The day is SENDING, line ready is raised, and with no wait the first CALL goes out (R165, R171). -/
def daySendTaken (s : State) : Verdict :=
  let s := dayChanged .sending (setDayState .sending s)
  take (sendCall (setLineReady true { s with sender := freshSender }))
    [numField (totalBlocks s), numField (ackThrough s + 1)]

def dayClearChecks (h : ReqHead) (s : State) : List Check :=
  officerOnly h ++ [bodyCheck h, ⟨dayIs s [.delivered], .dayState, []⟩]

/-- The day record after DAY.CLEAR (R96). -/
def clearedDay (d : DayRecord) : DayRecord :=
  { d with
    state := .noDay
    date := none
    lastDelivered := d.date
    ackThrough := 0
    used := 0
    openCommits := [] }

/-- Positions with a binding or a teller. -/
def boundPositions (s : State) : List Position :=
  (List.finRange 12).filter fun p => (boundDrawer s p).isSome || (tellerAt s p).isSome

/-- The store write of DAY.CLEAR (R96). -/
def clearDay (s : State) : State :=
  let s := modifyBoard (fun b => { b with lastApplied := 0 }) (modifyDay clearedDay (clearBindings s))
  { s with store := { s.store with transfers := Table.fill 8 none } }

/-- The DRAWER_STATE reports of the bindings that DAY.CLEAR ends (R12). -/
def clearReports (s : State) : List Report :=
  (boundPositions s).flatMap fun p => unbindReports p (boundDrawer s p)

def dayClearTaken (s : State) : Verdict :=
  let cleared := clearDay s
  let cleared := report (clearReports s) { cleared with
    sender := { cleared.sender with state := .idle }
    pru := { cleared.pru with sealAnswered := false } }
  take (dayChanged .noDay ((boundPositions s).foldl (fun t p => bindScreen p false t) cleared))
    [[.date (businessDate s)]]

end Sys2Proof.Machine
end

