-- ==== Sys2Proof/Machine/Waiting.lean ====
section
/-! DEFINITION. What waits at its unit and is taken when its turn has come: second ticks, re-raises, source reports and
events, in the order asked (R48, R67, R100, R119, R144, R159). -/

namespace Sys2Proof.Machine

/-! ### The effect of what is asked -/

/-- The effect of an event where it is taken. -/
def eventEffect : Instr → State → State
  | .ackTimerExpiry p => ackTimesOut p
  | .probeTimerExpiry p => probeTimesOut p
  | .rowAck p number check => takeRowAck p number check
  | .probeAnswer p number check => takeProbeAnswer p number check
  | .ready block check => readyArrives block check
  | .busy check => busyArrives check
  | .ack block check => ackArrives block check
  | .nak block check => nakArrives block check
  | .closed reference check => closedArrives reference check
  | .unknownFrame bytes => unknownArrives bytes
  | .bookPresent p => bookArrives p
  | .bookRemoved p => bookLeaves p
  | .topEdge p steps => edgeFound p steps.val
  | .stepLimit p => limitReached p
  | .stripeReadComplete p stripe => stripeReadEnds p stripe
  | .stripeWriteComplete p readBack => stripeWriteEnds p readBack
  | .lineDone p => lineEnds p
  | .headHome p => headArrives p
  | .ejectDone p => ejectEnds p
  | .jamTimerExpiry p => jamTimesOut p
  | _ => id

/-- The effect of a second tick at a unit; once the supply is no longer up the Transfer Unit and the line take none. -/
def tickEffect (u : UnitName) (s : State) : State :=
  match u with
  | .exu => tickExu s
  | .scu => tickScu s
  | .tru => if s.power = .up then countTransfers s else s
  | .dlu => if s.power = .up then tickDlu s else s
  | _ => s

/-- The effect of what waits, where it is taken; a request and the deliver are taken at their own commands. -/
def askedEffect : Asked → State → State
  | .tick u => tickEffect u
  | .reraise d => reraiseOffers d
  | .report l => takeReports l
  | .binding p starts => takeBinding p starts
  | .event i => eventEffect i
  | .request _ => id
  | .deliver => id

/-! ### The units asked (R29, R71, R100) -/

/-- Between two states a job has ended, or its snapshot was taken or has given an item: the job end, the snapshot and
the printed report are asked of the Passbook Line Unit (R100). -/
def asksForJob (s t : State) : Bool :=
  (s.pru.jobs.entries.any fun e => e.2.any fun j =>
    (t.pru.jobs.get e.1).elim true fun k => k.snapshot != j.snapshot)

/-- The stripe read of a first insertion reads the account's entry in the operation of the snapshot, unless the stripe
names another account (R123). -/
def readsEntry (i : Instr) (s : State) : Bool :=
  match i with
  | .stripeReadComplete p stripe =>
    (engineOf s p).motion == .read && (currentJob s p).any fun e =>
      e.2.state == .reading && (readStripe stripe).all fun d => d.account == e.2.account
  | _ => false

/-- Between two states a block of the carry-over section has been sent, which is read from the Passbook Line Unit
(R100, R169). -/
def readsCarry (s t : State) : Bool :=
  (t.out.line.drop s.out.line.length).any fun f =>
    f.kind == 2 && f.payload[2]? == some (BitVec.ofNat 8 FileSection.carry.code)

/-- The units at which what is asked is taken: its own, and those of which it asks an operation as the state now is. -/
def unitsAsked (x : Asked) (s : State) : List UnitName :=
  match x with
  | .tick .tru => if tickEnds s then [.tru, .dru] else [.tru]
  | .tick .dlu => if readsCarry s (tickDlu s) then [.dlu, .plu] else [.dlu]
  | .event i =>
    let t := eventEffect i s
    if asksForJob s t || readsEntry i s || readsCarry s t then [eventUnit i, .plu] else [eventUnit i]
  | x => (standsAt s x).toList

/-! ### Asking and taking -/

/-- What is asked is taken at once, or waits in the order asked. -/
def serve (x : Asked) (s : State) : State :=
  if waitsAt (unitsAsked x s) s.port.order s then ask x s else askedEffect x s

/-- It is taken when its turn comes, without a command of its own. -/
def takesItself : Asked → Bool
  | .tick _ | .reraise _ | .report _ | .binding _ _ | .event _ => true
  | .request _ | .deliver => false

/-- From place `k` of the order on, each waiting operation whose turn has come is taken; `fuel` exceeds the operations
that can come up. -/
def takeFrom : (fuel k : Nat) → State → State
  | 0, _, s => s
  | fuel + 1, k, s =>
    match s.port.order[k]? with
    | none => s
    | some x =>
      if takesItself x && !waitsAt (unitsAsked x s) (s.port.order.take k) s then
        takeFrom fuel k (askedEffect x (setOrder (s.port.order.eraseIdx k) s))
      else takeFrom fuel (k + 1) s

/-- Something waits that is taken when its turn comes. -/
def somethingWaits (s : State) : Bool := s.port.order.any takesItself

/-- After an operation has ended: what waited is taken, in the order asked, where its turn has come.  Taking it can ask
reports, which wait as one at the end of the order, so one operation more than those asked can come up. -/
def takeWaiting (s : State) : State := takeFrom (s.port.order.length + 1) 0 s

/-- An event of the units is taken, or waits. -/
def takeEvent (i : Instr) (s : State) : State := serve (.event i) s

end Sys2Proof.Machine
end

