-- ==== Sys2Proof/Machine/Service.lean ====
section
/-! DEFINITION. How a request is carried out: its authority (R179), its entry into execution (R180), its turn at the
units it is for, the answer of a part in STORE_INVALID (R179), and its response (R181); and the deliver for which the
Transfer Unit's other operations wait (R67, R69). -/

namespace Sys2Proof.Machine

/-- The position a live-field source names. -/
def sourcePosition : Fld SourceField → Fld Nat
  | .value (.quoteLeft p) => .value p
  | .value (.jobState p) => .value p
  | _ => .absent

/-- The position a request names as a position (R152); `screen` of MAP.SET is one (R146, R147), and so is
the position that a source of FIELD.BIND names (R143). -/
def namedPosition : Instr → Fld Nat
  | .drawerSignon _ r => r.position
  | .drawerSignoff _ p => p
  | .cashPost _ r => r.position
  | .cashReverse _ r => r.position
  | .quoteRequest _ r => r.position
  | .quoteRelease _ r => r.position
  | .transferOffer _ r => r.position
  | .passbookNewbook _ r => r.position
  | .printStart _ r => r.position
  | .printCancel _ r => r.position
  | .mapSet _ r => r.screen
  | .fieldBind _ r => sourcePosition r.source
  | .screenActivity _ p => p
  | .screenUnlock _ r => r.position
  | .positionBind _ r => r.position
  | _ => .absent

/-- The authority check of a request's rule, as the port makes it in STORE_INVALID (R179; log entry 20).  Of the field checks
that stand before it the port makes that of the position, or of DRAWER.COUNT's and DRAWER.ENQUIRE's drawer, and no other:
not that of SCREEN.UNLOCK's teller, nor those of MAP.SET's row and buffer (log entry 62). -/
def authority (h : ReqHead) (s : State) (i : Instr) : List Check :=
  match i with
  | .currencyDefine _ _ => officerOnly h
  | .drawerSignon _ r => positionChecks h s r.position
  | .drawerSignoff _ p => positionChecks h s p
  | .drawerLimits _ _ => officerOnly h
  | .drawerCount _ r => ⟨inRange 0 12 r.drawer, .badField, []⟩ :: forDrawer h s (drawerOf r.drawer)
  | .drawerAccept _ _ => officerOnly h
  | .drawerEnquire _ d => ⟨inRange 0 12 d, .badField, []⟩ :: forDrawer h s (drawerOf d)
  | .cashPost _ r => positionChecks h s r.position
  | .cashReverse _ r => positionChecks h s r.position
  | .rateSet _ _ => officerOnly h
  | .feeSet _ _ => officerOnly h
  | .quoteRequest _ r => positionChecks h s r.position
  | .quoteRelease _ r => positionChecks h s r.position
  | .transferOffer _ r => if r.position.present then positionChecks h s r.position else officerOnly h
  | .vaultReceive _ _ => officerOnly h
  | .vaultDispatch _ _ => officerOnly h
  | .storeFormat _ => officerOnly h
  | .classSet _ _ => officerOnly h
  | .passbookNewbook _ r => positionChecks h s r.position
  | .printStart _ r => positionChecks h s r.position
  | .printCancel _ r => positionChecks h s r.position
  | .printerPace _ r => if paceIsRead r then anyMaster h else officerOnly h
  | .printerReset _ _ => officerOnly h
  | .mapSet _ r => positionChecks h s r.screen
  | .screenActivity _ p => positionChecks h s p
  | .screenUnlock _ r => positionChecks h s r.position
  | .screenSettings _ _ => officerOnly h
  | .dayOpen _ _ => officerOnly h
  | .dayClose _ => officerOnly h
  | .dayReopen _ => officerOnly h
  | .daySeal _ => officerOnly h
  | .daySend _ => officerOnly h
  | .dayClear _ => officerOnly h
  | .lineSettings _ r => if lineIsRead r then anyMaster h else officerOnly h
  | .positionBind _ _ => officerOnly h
  | .portSettings _ b => if b.present then officerOnly h else anyMaster h
  | .faultClear _ => officerOnly h
  | .clockSet _ _ => officerOnly h
  | _ => anyMaster h

/-- STORE.FORMAT, PART.STATUS, CLOCK.SET and FAULT.READ are handed on in STORE_INVALID (R90, R179). -/
def servedInvalid : Instr → Bool
  | .storeFormat _ => true
  | .partStatus _ => true
  | .clockSet _ _ => true
  | .faultRead _ => true
  | _ => false

/-- The port's own answer in STORE_INVALID: the authority check, then STORE_INVALID (R179). -/
def invalidVerdict (h : ReqHead) (i : Instr) (s : State) : Verdict :=
  judge (authority h s i ++ [⟨false, .storeInvalid, []⟩]) s (take s [])

/-- The request enters execution, or is the one in execution there (R180): a request command stands for
the request its master has in execution, or, with none in execution, for one that the server hands at
this moment, which needs a free place among the waiting responses (log entry 10). -/
def handed (h : ReqHead) (i : Instr) (s : State) : Option State :=
  if s.power = .up then
    match s.port.inExecution.get h.master with
    | some x => if x.request = i then some s else none
    | none =>
      if (s.port.windows.get h.master).responses.length < 8 then
        some { s with port := { s.port with
          inExecution := s.port.inExecution.set h.master (some ⟨i, false⟩)
          order := s.port.order ++ [.request h.master] } }
      else none
  else none

/-! ### Carrying out a request -/

/-- The port answers the request itself: it is one of those that STORE_INVALID shuts out (R179). -/
def shutOut (i : Instr) (s : State) : Bool := s.kept.isSome && !servedInvalid i

/-- Restart the idle count of the position a request names, whatever its outcome (R152). -/
def restartNamed (i : Instr) (s : State) : State :=
  if inRange 0 11 (namedPosition i) then restartIdle (positionOf (namedPosition i)) s else s

/-- Place the response of a verdict that answers now. -/
def settle (h : ReqHead) (i : Instr) (v : Verdict) : State :=
  if v.answered then respond h ((requestKind i).getD 0) v.code v.masked v.fields v.state else v.state

/-- Carry out a request: the port's own answer, or the unit's own part `body` when its turn there has come, after
which what waited for it is taken; until then it stays in execution. -/
def carry (h : ReqHead) (i : Instr) (body : State → Verdict) (s : State) : State :=
  match handed h i s with
  | none => s
  | some s1 =>
    let s2 := restartNamed i s1
    if shutOut i s1 then settle h i (invalidVerdict h i s2)
    else if waitsTurn h i s1 then s1
    else if somethingWaits s1 then takeWaiting (settle h i (body s2))
    else settle h i (body s2)

/-- Steps 3 and 4 of R69 for the acceptance whose deliver is due: the deliver at the from-drawer, the applied mark,
and the response to the acceptance, in which the blind count may now keep the total back (R15). -/
def finishDelivery (s : State) : State :=
  match s.delivery with
  | none => s
  | some d =>
    let s := setOrder (s.port.order.erase .deliver) { s with delivery := none }
    let s := setApplied d.sequence .none (deliverCash d.fromDrawer d.tender d.sequence s)
    respond d.head 65 .done true
      [some [.num d.number], some [.num d.sequence],
        (disclosed s d.head.master d.toDrawer d.total).map fun t => [.amount t], some [.flag d.excess]] s

/-- The deliver that is due is made when its turn at the Drawer Unit has come, and what waited for the acceptance
follows; until then nothing changes (R29, R67, R69; log entry 11). -/
def deliver (s : State) : State :=
  if s.delivery.isSome && !waitsAt [.dru] (askedBefore .deliver s) s then takeWaiting (finishDelivery s) else s

end Sys2Proof.Machine
end

