-- ==== Sys2Proof/Machine/Commands.lean ====
section
/-! DEFINITION. The meaning of each request but those of the port and STORE.FORMAT: its checks and its effect, carried
out in its turn. -/

namespace Sys2Proof.Machine

/-! ### Rate board and quotes -/

/-- RATE.SET (R45). -/
def execRateSet (h : ReqHead) (r : RateReq) (s : State) : Host.Outcome State Fault Refusal :=
  .next (carry h (.rateSet h r) (fun s => judge (rateSetChecks h r s) s (rateSetTaken r s)) s)

/-- FEE.SET (R46). -/
def execFeeSet (h : ReqHead) (r : FeeReq) (s : State) : Host.Outcome State Fault Refusal :=
  .next (carry h (.feeSet h r) (fun s => judge (feeSetChecks h r s) s (feeSetTaken r s)) s)

/-- QUOTE.REQUEST (R54 to R56). -/
def execQuoteRequest (h : ReqHead) (r : QuoteReq) (s : State) : Host.Outcome State Fault Refusal :=
  .next (carry h (.quoteRequest h r)
    (fun s => judge (quoteRequestChecks h r s) s (quoteRequestTaken r s)) s)

/-- QUOTE.RELEASE (R58). -/
def execQuoteRelease (h : ReqHead) (r : ReleaseReq) (s : State) : Host.Outcome State Fault Refusal :=
  .next (carry h (.quoteRelease h r)
    (fun s => judge (quoteReleaseChecks h r s) s (quoteReleaseTaken r s)) s)

/-! ### Transfers and vault movements -/

/-- TRANSFER.OFFER (R65, R66). -/
def execTransferOffer (h : ReqHead) (r : OfferReq) (s : State) : Host.Outcome State Fault Refusal :=
  .next (carry h (.transferOffer h r)
    (fun s => judge (transferOfferChecks h r s) s (transferOfferTaken h r s)) s)

/-- TRANSFER.ACCEPT (R68, R69). -/
def execTransferAccept (h : ReqHead) (r : AcceptReq) (s : State) : Host.Outcome State Fault Refusal :=
  .next (carry h (.transferAccept h r) (fun s => acceptBody h r (restartReceiver r.number s)) s)

/-- TRANSFER.DECLINE (R70). -/
def execTransferDecline (h : ReqHead) (number : Fld Nat) (s : State) : Host.Outcome State Fault Refusal :=
  .next (carry h (.transferDecline h number)
    (fun s => judge (transferDeclineChecks h number s) s (transferDeclineTaken number s)) s)

/-- VAULT.RECEIVE (R76, R77). -/
def execVaultReceive (h : ReqHead) (r : VaultReq) (s : State) : Host.Outcome State Fault Refusal :=
  .next (carry h (.vaultReceive h r)
    (fun s => judge (vaultReceiveChecks h r s) s (vaultTaken .vaultIn r (vaultDeltas r) s)) s)

/-- VAULT.DISPATCH (R76, R77). -/
def execVaultDispatch (h : ReqHead) (r : VaultReq) (s : State) : Host.Outcome State Fault Refusal :=
  .next (carry h (.vaultDispatch h r)
    (fun s => judge (vaultDispatchChecks h r s) s (vaultTaken .vaultOut r (negate (vaultDeltas r)) s)) s)

/-! ### Screens -/

/-- ROW.CLAIM (R141). -/
def execRowClaim (h : ReqHead) (s : State) : Host.Outcome State Fault Refusal :=
  .next (carry h (.rowClaim h) (fun s => judge (rowClaimChecks h s) s (rowClaimTaken h s)) s)

/-- ROW.FREE (R141). -/
def execRowFree (h : ReqHead) (buffer : Fld Nat) (s : State) : Host.Outcome State Fault Refusal :=
  .next (carry h (.rowFree h buffer)
    (fun s => judge (rowFreeChecks h buffer s) s (rowFreeTaken buffer s)) s)

/-- ROW.WRITE (R142). -/
def execRowWrite (h : ReqHead) (r : RowWriteReq) (s : State) : Host.Outcome State Fault Refusal :=
  .next (carry h (.rowWrite h r) (fun s => judge (rowWriteChecks h r s) s (rowWriteTaken r s)) s)

/-- FIELD.BIND (R143). -/
def execFieldBind (h : ReqHead) (r : BindReq) (s : State) : Host.Outcome State Fault Refusal :=
  .next (carry h (.fieldBind h r) (fun s => judge (fieldBindChecks h r s) s (fieldBindTaken r s)) s)

/-- MAP.SET (R147). -/
def execMapSet (h : ReqHead) (r : MapReq) (s : State) : Host.Outcome State Fault Refusal :=
  .next (carry h (.mapSet h r) (fun s => judge (mapSetChecks h r s) s (mapSetTaken r s)) s)

/-- SCREEN.UNLOCK (R154). -/
def execScreenUnlock (h : ReqHead) (r : UnlockReq) (s : State) : Host.Outcome State Fault Refusal :=
  .next (carry h (.screenUnlock h r)
    (fun s => judge (screenUnlockChecks h r s) s (screenUnlockTaken r s)) s)

/-- SCREEN.ACTIVITY (R155). -/
def execScreenActivity (h : ReqHead) (position : Fld Nat) (s : State) : Host.Outcome State Fault Refusal :=
  .next (carry h (.screenActivity h position)
    (fun s => judge (screenActivityChecks h position s) s (screenActivityTaken position s)) s)

/-- SCREEN.SETTINGS (R156). -/
def execScreenSettings (h : ReqHead) (r : ScreenSettingsReq) (s : State) :
    Host.Outcome State Fault Refusal :=
  .next (carry h (.screenSettings h r)
    (fun s => judge (screenSettingsChecks h r) s (screenSettingsTaken r s)) s)

/-! ### Drawers -/

/-- CURRENCY.DEFINE (R2). -/
def execCurrencyDefine (h : ReqHead) (r : CurrencyDefineReq) (s : State) :
    Host.Outcome State Fault Refusal :=
  .next (carry h (.currencyDefine h r)
    (fun s => judge (currencyDefineChecks h r s) s (currencyDefineTaken r s)) s)

/-- DRAWER.SIGNON (R13). -/
def execDrawerSignon (h : ReqHead) (r : SignonReq) (s : State) : Host.Outcome State Fault Refusal :=
  .next (carry h (.drawerSignon h r)
    (fun s => judge (drawerSignonChecks h r s) s (drawerSignonTaken h r s)) s)

/-- DRAWER.SIGNOFF (R14). -/
def execDrawerSignoff (h : ReqHead) (position : Fld Nat) (s : State) : Host.Outcome State Fault Refusal :=
  .next (carry h (.drawerSignoff h position)
    (fun s => judge (drawerSignoffChecks h position s) s (drawerSignoffTaken position s)) s)

/-- DRAWER.LIMITS (R9). -/
def execDrawerLimits (h : ReqHead) (r : LimitsReq) (s : State) : Host.Outcome State Fault Refusal :=
  .next (carry h (.drawerLimits h r) (fun s => judge (drawerLimitsChecks h r) s (drawerLimitsTaken r s)) s)

/-- DRAWER.COUNT (R16). -/
def execDrawerCount (h : ReqHead) (r : CountReq) (s : State) : Host.Outcome State Fault Refusal :=
  .next (carry h (.drawerCount h r) (fun s => judge (drawerCountChecks h r s) s (drawerCountTaken r s)) s)

/-- DRAWER.ACCEPT (R17). -/
def execDrawerAccept (h : ReqHead) (drawer : Fld Nat) (s : State) : Host.Outcome State Fault Refusal :=
  .next (carry h (.drawerAccept h drawer)
    (fun s => judge (drawerAcceptChecks h drawer s) s (drawerAcceptTaken drawer s)) s)

/-- DRAWER.ENQUIRE (R19). -/
def execDrawerEnquire (h : ReqHead) (drawer : Fld Nat) (s : State) : Host.Outcome State Fault Refusal :=
  .next (carry h (.drawerEnquire h drawer)
    (fun s => judge (drawerEnquireChecks h drawer s) s (drawerEnquireTaken h drawer s)) s)

/-! ### Passbook accounts -/

/-- CLASS.SET (R98). -/
def execClassSet (h : ReqHead) (r : ClassReq) (s : State) : Host.Outcome State Fault Refusal :=
  .next (carry h (.classSet h r) (fun s => judge (classSetChecks h r) s (classSetTaken r s)) s)

/-- PASSBOOK.NEWBOOK (R111). -/
def execPassbookNewbook (h : ReqHead) (r : NewBookReq) (s : State) : Host.Outcome State Fault Refusal :=
  .next (carry h (.passbookNewbook h r)
    (fun s => judge (passbookNewbookChecks h r s) s (passbookNewbookTaken r s)) s)

/-- PASSBOOK.ENQUIRE (R112). -/
def execPassbookEnquire (h : ReqHead) (r : PassbookReq) (s : State) : Host.Outcome State Fault Refusal :=
  .next (carry h (.passbookEnquire h r)
    (fun s => judge (passbookEnquireChecks h r) s (passbookEnquireTaken r s)) s)

/-! ### Postings and reversals -/

/-- CASH.POST (R23 to R35). -/
def execCashPost (h : ReqHead) (r : PostReq) (s : State) : Host.Outcome State Fault Refusal :=
  .next (carry h (.cashPost h r) (fun s => judge (cashPostChecks h r s) s (cashPostTaken r s)) s)

/-- CASH.REVERSE (R38 to R43). -/
def execCashReverse (h : ReqHead) (r : ReverseReq) (s : State) : Host.Outcome State Fault Refusal :=
  .next (carry h (.cashReverse h r) (fun s => cashReverseBody h r s) s)

/-! ### Journal -/

/-- JOURNAL.READ (R94). -/
def execJournalRead (h : ReqHead) (r : JournalReq) (s : State) : Host.Outcome State Fault Refusal :=
  .next (carry h (.journalRead h r) (fun s => judge (journalReadChecks h r s) s (journalReadTaken h r s)) s)

/-! ### Printers -/

/-- PRINTER.RESET (R131). -/
def execPrinterReset (h : ReqHead) (printer : Fld PrinterNo) (s : State) :
    Host.Outcome State Fault Refusal :=
  .next (carry h (.printerReset h printer)
    (fun s => judge (printerResetChecks h printer s) s (printerResetTaken printer s)) s)

/-- PRINT.START (R120). -/
def execPrintStart (h : ReqHead) (r : PrintReq) (s : State) : Host.Outcome State Fault Refusal :=
  .next (carry h (.printStart h r) (fun s => judge (printStartChecks h r s) s (printStartTaken r s)) s)

/-- PRINT.CANCEL (R132). -/
def execPrintCancel (h : ReqHead) (r : CancelReq) (s : State) : Host.Outcome State Fault Refusal :=
  .next (carry h (.printCancel h r) (fun s => judge (printCancelChecks h r s) s (printCancelTaken r s)) s)

/-- PRINTER.PACE (R135). -/
def execPrinterPace (h : ReqHead) (r : PaceReq) (s : State) : Host.Outcome State Fault Refusal :=
  .next (carry h (.printerPace h r) (fun s => judge (printerPaceChecks h r) s (printerPaceTaken r s)) s)

/-! ### Head-office line -/

/-- LINE.SETTINGS (R167). -/
def execLineSettings (h : ReqHead) (r : LineReq) (s : State) : Host.Outcome State Fault Refusal :=
  .next (carry h (.lineSettings h r)
    (fun s => judge (lineSettingsChecks h r s) s (lineSettingsTaken r s)) s)

/-! ### The day -/

/-- DAY.OPEN (R160). -/
def execDayOpen (h : ReqHead) (date : Fld Nat) (s : State) : Host.Outcome State Fault Refusal :=
  .next (carry h (.dayOpen h date) (fun s => judge (dayOpenChecks h date s) s (dayOpenTaken date s)) s)

/-- DAY.CLOSE (R161). -/
def execDayClose (h : ReqHead) (s : State) : Host.Outcome State Fault Refusal :=
  .next (carry h (.dayClose h) (fun s => judge (dayCloseChecks h s) s (dayCloseTaken s)) s)

/-- DAY.REOPEN (R162). -/
def execDayReopen (h : ReqHead) (s : State) : Host.Outcome State Fault Refusal :=
  .next (carry h (.dayReopen h) (fun s => judge (dayReopenChecks h s) s (dayReopenTaken s)) s)

/-- DAY.SEAL (R163, R164). -/
def execDaySeal (h : ReqHead) (s : State) : Host.Outcome State Fault Refusal :=
  .next (carry h (.daySeal h) (fun s => judge (daySealChecks h s) s (daySealTaken s)) s)

/-- DAY.SEND (R165). -/
def execDaySend (h : ReqHead) (s : State) : Host.Outcome State Fault Refusal :=
  .next (carry h (.daySend h) (fun s => judge (daySendChecks h s) s (daySendTaken s)) s)

/-- DAY.CLEAR (R166). -/
def execDayClear (h : ReqHead) (s : State) : Host.Outcome State Fault Refusal :=
  .next (carry h (.dayClear h) (fun s => judge (dayClearChecks h s) s (dayClearTaken s)) s)

end Sys2Proof.Machine
end

