-- ==== Sys2Proof/Machine/Events.lean ====
section
/-! DEFINITION. The meaning of each timer, display-line, head-office and printer event and of the deliver: taken at
once, or waiting in the order asked. -/

namespace Sys2Proof.Machine

/-! ### Expiries within a second (log entry 12) -/

/-- QUOTE_TIME_EXPIRY, when its turn at the Exchange Unit has come (R48, R57). -/
def execQuoteTimeExpiry (number : Nat) (s : State) : Host.Outcome State Fault Refusal :=
  .next (if s.power = .off then s else unlessWaits [.exu] (quoteTimesOut number) s)

/-- TRANSFER_TIMEOUT, when its turn at the Transfer and Drawer Units has come (R29, R67, R71). -/
def execTransferTimeout (number : Nat) (s : State) : Host.Outcome State Fault Refusal :=
  .next (if s.power = .up then unlessWaits [.tru, .dru] (timeoutTransfer number) s else s)

/-- IDLE_COUNT_EXPIRY, when its turn at the Screen Unit has come (R144, R152). -/
def execIdleCountExpiry (p : Position) (s : State) : Host.Outcome State Fault Refusal :=
  .next (if s.power = .off then s else unlessWaits [.scu] (idleTimesOut p) s)

/-- CALL_WAIT_EXPIRY, when its turn at the Day and Line Unit has come (R159, R171). -/
def execCallWaitExpiry (s : State) : Host.Outcome State Fault Refusal := .next (unlessWaits [.dlu] callWaitDue s)

/-- RESPONSE_TIMER_EXPIRY, when its turn at the Day and Line Unit has come (R159, R171). -/
def execResponseTimerExpiry (s : State) : Host.Outcome State Fault Refusal :=
  .next (unlessWaits [.dlu] responseTimerDue s)

/-- END_TIMER_EXPIRY, when its turn at the Day and Line Unit has come (R159, R174). -/
def execEndTimerExpiry (s : State) : Host.Outcome State Fault Refusal := .next (unlessWaits [.dlu] endTimerDue s)

/-- BLOCK_AGE_TIMEOUT, when its turn has come at the Day and Line Unit, and at the Passbook Line Unit where a block of
the carry-over section is sent again (R100, R159, R173). -/
def execBlockAgeTimeout (s : State) : Host.Outcome State Fault Refusal :=
  .next (unlessWaits (if readsCarry s (blockAgeDue s) then [.dlu, .plu] else [.dlu]) blockAgeDue s)

/-! ### Display lines -/

/-- ROW_SEND (R149): what the Screen Unit does between its operations. -/
def execRowSend (p : Position) (s : State) : Host.Outcome State Fault Refusal :=
  .next (if s.power = .off then s else sendNextRow p s)

/-- ROW_ACK (R150). -/
def execRowAck (p : Position) (number : Byte) (check : Word) (s : State) : Host.Outcome State Fault Refusal :=
  .next (takeEvent (.rowAck p number check) s)

/-- ACK_TIMER_EXPIRY (R150). -/
def execAckTimerExpiry (p : Position) (s : State) : Host.Outcome State Fault Refusal :=
  .next (takeEvent (.ackTimerExpiry p) s)

/-- PROBE_TIMER_EXPIRY (R151). -/
def execProbeTimerExpiry (p : Position) (s : State) : Host.Outcome State Fault Refusal :=
  .next (takeEvent (.probeTimerExpiry p) s)

/-- PROBE_ANSWER (R151). -/
def execProbeAnswer (p : Position) (number : Byte) (check : Word) (s : State) : Host.Outcome State Fault Refusal :=
  .next (takeEvent (.probeAnswer p number check) s)

/-! ### Frames from head office -/

/-- READY (R171). -/
def execReady (block check : Word) (s : State) : Host.Outcome State Fault Refusal :=
  .next (takeEvent (.ready block check) s)

/-- BUSY (R171). -/
def execBusy (check : Word) (s : State) : Host.Outcome State Fault Refusal := .next (takeEvent (.busy check) s)

/-- ACK (R172). -/
def execAck (block check : Word) (s : State) : Host.Outcome State Fault Refusal :=
  .next (takeEvent (.ack block check) s)

/-- NAK (R173). -/
def execNak (block check : Word) (s : State) : Host.Outcome State Fault Refusal :=
  .next (takeEvent (.nak block check) s)

/-- CLOSED (R174). -/
def execClosed (reference : List Byte) (check : Word) (s : State) : Host.Outcome State Fault Refusal :=
  .next (takeEvent (.closed reference check) s)

/-- UNKNOWN_FRAME (R170, R193). -/
def execUnknownFrame (bytes : List Byte) (s : State) : Host.Outcome State Fault Refusal :=
  .next (takeEvent (.unknownFrame bytes) s)

/-! ### Mechanisms -/

/-- BOOK_PRESENT (R122). -/
def execBookPresent (p : PrinterNo) (s : State) : Host.Outcome State Fault Refusal :=
  .next (takeEvent (.bookPresent p) s)

/-- BOOK_REMOVED (R129). -/
def execBookRemoved (p : PrinterNo) (s : State) : Host.Outcome State Fault Refusal :=
  .next (takeEvent (.bookRemoved p) s)

/-- TOP_EDGE (R122). -/
def execTopEdge (p : PrinterNo) (steps : Fin 4096) (s : State) : Host.Outcome State Fault Refusal :=
  .next (takeEvent (.topEdge p steps) s)

/-- STEP_LIMIT (R122). -/
def execStepLimit (p : PrinterNo) (s : State) : Host.Outcome State Fault Refusal := .next (takeEvent (.stepLimit p) s)

/-- STRIPE_READ_COMPLETE (R123, R124, R128). -/
def execStripeReadComplete (p : PrinterNo) (stripe : Option (List Byte)) (s : State) :
    Host.Outcome State Fault Refusal :=
  .next (takeEvent (.stripeReadComplete p stripe) s)

/-- STRIPE_WRITE_COMPLETE (R128). -/
def execStripeWriteComplete (p : PrinterNo) (readBack : Option (List Byte)) (s : State) :
    Host.Outcome State Fault Refusal :=
  .next (takeEvent (.stripeWriteComplete p readBack) s)

/-- LINE_DONE (R126). -/
def execLineDone (p : PrinterNo) (s : State) : Host.Outcome State Fault Refusal := .next (takeEvent (.lineDone p) s)

/-- HEAD_HOME (R127). -/
def execHeadHome (p : PrinterNo) (s : State) : Host.Outcome State Fault Refusal := .next (takeEvent (.headHome p) s)

/-- EJECT_DONE (R119, R128). -/
def execEjectDone (p : PrinterNo) (s : State) : Host.Outcome State Fault Refusal := .next (takeEvent (.ejectDone p) s)

/-- JAM_TIMER_EXPIRY (R130). -/
def execJamTimerExpiry (p : PrinterNo) (s : State) : Host.Outcome State Fault Refusal :=
  .next (takeEvent (.jamTimerExpiry p) s)

/-! ### The deliver -/

/-- DELIVER: steps 3 and 4 of R69 and the answer to the acceptance. -/
def execDeliver (s : State) : Host.Outcome State Fault Refusal := .next (if s.power = .up then deliver s else s)

end Sys2Proof.Machine
end

