-- ==== Sys2Proof/Machine/Requests.lean ====
section
/-! DEFINITION. The words of a posted request (R191, R192): header, presence mask and fields, read into the
request command they stand for. -/

namespace Sys2Proof.Machine

/-- Reads one field from the words of a body: nothing when the words run out, otherwise the value (none when
the words stand for no value) and the words after it. -/
abbrev FieldReader (α : Type) := List Word → Option (Option α × List Word)

/-- Field `bit` of a body (R192); one whose words run out stands for no value (log entry 9). -/
def takeField {α : Type} (bit : Nat) (read : FieldReader α) (mask : Nat) (ws : List Word) :
    Fld α × List Word :=
  if mask.testBit bit then
    match read ws with
    | some (some v, rest) => (.value v, rest)
    | some (none, rest) => (.malformed, rest)
    | none => (.malformed, [])
  else (.absent, ws)

/-! ### Field encodings (R192) -/

/-- A number of one word. -/
def readOne : FieldReader Nat
  | w :: rest => some (some w.toNat, rest)
  | _ => none

/-- A number of two words. -/
def readTwo : FieldReader Nat
  | a :: b :: rest => some (some (65536 * a.toNat + b.toNat), rest)
  | _ => none

/-- An amount of three words, signed. -/
def readAmount : FieldReader Int
  | a :: b :: c :: rest => some (some (a ++ b ++ c).toInt, rest)
  | _ => none

/-- The bytes of a word, high byte first. -/
def wordBytes (w : Word) : List Byte := [w.extractLsb' 8 8, w.extractLsb' 0 8]

/-- Twelve digits in three words. -/
def readDigits : FieldReader Nat
  | a :: b :: c :: rest => some (unpackDigits ([a, b, c].flatMap wordBytes), rest)
  | _ => none

/-- A date of eight digits in two words. -/
def readDate : FieldReader Nat
  | a :: b :: rest => some (unpackDigits ([a, b].flatMap wordBytes), rest)
  | _ => none

/-- A yes-or-no value. -/
def readFlag : FieldReader Bool
  | w :: rest => some (if w = 1 then some true else if w = 0 then some false else none, rest)
  | _ => none

/-- A named value by its place in its rule's list, the first being 1. -/
def readNamed {α : Type} (names : List α) : FieldReader α
  | w :: rest => some (if w = 0 then none else names[w.toNat - 1]?, rest)
  | _ => none

/-- A number of entries, one after the other; one that stands for no value spoils the list. -/
def readEntries {α : Type} (read : FieldReader α) : Nat → FieldReader (List α)
  | 0, ws => some (some [], ws)
  | n + 1, ws =>
    match read ws with
    | none => none
    | some (v, rest) =>
      match readEntries read n rest with
      | none => none
      | some (vs, rest) => some (v.bind fun v => vs.map (v :: ·), rest)

/-- A list: its entry count, then its entries. -/
def readList {α : Type} (read : FieldReader α) : FieldReader (List α)
  | w :: rest => readEntries read w.toNat rest
  | _ => none

/-- The first word of a tender entry: currency in bits 7 and 6, index in bits 3 to 0, no other bit set. -/
def tenderKey (w : Word) : Option (Nat × Nat) :=
  if w &&& 65328 = 0 then some (w.toNat / 64 % 4, w.toNat % 16) else none

def readPostEntry : FieldReader PostEntry
  | k :: a :: b :: rest =>
    some ((tenderKey k).map fun e => ⟨e.1, e.2, a.toNat, b.toNat⟩, rest)
  | _ => none

def readCashEntry : FieldReader CashEntry
  | k :: a :: rest => some ((tenderKey k).map fun e => ⟨e.1, e.2, a.toNat⟩, rest)
  | _ => none

/-- A fee schedule: per-mille, minimum, maximum. -/
def readFee : FieldReader FeeFields
  | p :: ws =>
    match readAmount ws with
    | some (lo, ws) =>
      match readAmount ws with
      | some (hi, ws) => some (lo.bind fun lo => hi.map fun hi => ⟨p.toNat, lo, hi⟩, ws)
      | none => none
    | none => none
  | _ => none

/-- A cell: code in the high byte, attributes in bits 3 to 0, bits 7 to 4 clear. -/
def readCell : FieldReader Cell
  | w :: rest =>
    some (if w &&& 240 = 0 then
      some ⟨w.toNat / 256, w.getLsbD 0, w.getLsbD 1, w.getLsbD 2, w.getLsbD 3⟩ else none, rest)
  | _ => none

/-- The characters of a text in its words; the odd last byte is zero. -/
def readChars (count : Nat) (ws : List Word) : Option (List Nat) :=
  let bytes := ws.flatMap wordBytes
  if (bytes.drop count).all (· == 0) then some ((bytes.take count).map BitVec.toNat) else none

/-- A text: its character count, then its codes, two to a word. -/
def readText : FieldReader (List Nat)
  | w :: rest =>
    let words := (w.toNat + 1) / 2
    if words ≤ rest.length then some (readChars w.toNat (rest.take words), rest.drop words) else none
  | _ => none

/-- The counted counts take every word that is left (R192). -/
def readCounts : FieldReader (List Nat) := fun ws => some (some (ws.map BitVec.toNat), [])

/-- A live-field source: its place in the list of R143, then its parameters (R192).  That a number outside the list takes
one word, the words after it being left over, is the model's choice (log entry 67). -/
def readSource : FieldReader SourceField
  | w :: rest =>
    match w.toNat, rest with
    | 1, a :: b :: rest => some (some (.drawerTotal a.toNat b.toNat), rest)
    | 1, _ => none
    | 2, a :: rest => some (some (.drawerState a.toNat), rest)
    | 2, _ => none
    | 3, a :: b :: rest => some (some (.rate a.toNat b.toNat), rest)
    | 3, _ => none
    | 4, a :: rest => some (some (.quoteLeft a.toNat), rest)
    | 4, _ => none
    | 5, a :: rest => some (some (.jobState a.toNat), rest)
    | 5, _ => none
    | 6, rest => some (some .dayState, rest)
    | 7, rest => some (some .clock, rest)
    | 8, rest => some (some .none, rest)
    | _, rest => some (none, rest)
  | _ => none

def readPrinter : FieldReader PrinterNo := readNamed [0, 1]

def readKind : FieldReader PostKind :=
  readNamed [.deposit, .withdrawal, .exchangeBuy, .exchangeSell, .change]

def readDirection : FieldReader Direction := readNamed [.buy, .sell]

def readMode : FieldReader BookMode := readNamed [.set, .withdraw]

/-! ### Bodies -/

/-- The body names something beyond its `n` fields: a mask bit past them, or words left over (R192). -/
def spareAfter (n mask : Nat) (rest : List Word) : Bool := mask / 2 ^ n != 0 || !rest.isEmpty

def body0 (mk : Bool → Instr) (mask : Nat) (ws : List Word) : Instr := mk (spareAfter 0 mask ws)

def body1 {α : Type} (a : FieldReader α) (mk : Bool → Fld α → Instr) (mask : Nat) (ws : List Word) : Instr :=
  let (x, ws) := takeField 0 a mask ws
  mk (spareAfter 1 mask ws) x

def body2 {α β : Type} (a : FieldReader α) (b : FieldReader β) (mk : Bool → Fld α → Fld β → Instr)
    (mask : Nat) (ws : List Word) : Instr :=
  let (x, ws) := takeField 0 a mask ws
  let (y, ws) := takeField 1 b mask ws
  mk (spareAfter 2 mask ws) x y

def body3 {α β γ : Type} (a : FieldReader α) (b : FieldReader β) (c : FieldReader γ)
    (mk : Bool → Fld α → Fld β → Fld γ → Instr) (mask : Nat) (ws : List Word) : Instr :=
  let (x, ws) := takeField 0 a mask ws
  let (y, ws) := takeField 1 b mask ws
  let (z, ws) := takeField 2 c mask ws
  mk (spareAfter 3 mask ws) x y z

def body4 {α β γ δ : Type} (a : FieldReader α) (b : FieldReader β) (c : FieldReader γ) (d : FieldReader δ)
    (mk : Bool → Fld α → Fld β → Fld γ → Fld δ → Instr) (mask : Nat) (ws : List Word) : Instr :=
  let (x, ws) := takeField 0 a mask ws
  let (y, ws) := takeField 1 b mask ws
  let (z, ws) := takeField 2 c mask ws
  let (t, ws) := takeField 3 d mask ws
  mk (spareAfter 4 mask ws) x y z t

/-- CASH.POST: the fields in the order of R23's table. -/
def bodyPost (h : Bool → ReqHead) (mask : Nat) (ws : List Word) : Instr :=
  let (position, ws) := takeField 0 readOne mask ws
  let (kind, ws) := takeField 1 readKind mask ws
  let (account, ws) := takeField 2 readDigits mask ws
  let (amount, ws) := takeField 3 readAmount mask ws
  let (quote, ws) := takeField 4 readOne mask ws
  let (narrative, ws) := takeField 5 readOne mask ws
  let (balance, ws) := takeField 6 readAmount mask ws
  let (tender, ws) := takeField 7 (readList readPostEntry) mask ws
  .cashPost (h (spareAfter 8 mask ws))
    ⟨position, kind, account, amount, quote, narrative, balance, tender⟩

/-- CURRENCY.DEFINE: the face count is the list's own count (R192). -/
def bodyDefine (h : Bool → ReqHead) (mask : Nat) (ws : List Word) : Instr :=
  let (currency, ws) := takeField 0 readOne mask ws
  let (decimals, ws) := takeField 1 readOne mask ws
  let (faceCount, ws) := takeField 2 readOne mask ws
  let (faces, ws) := takeField 3 (readEntries readTwo (faceCount.getD 0)) mask ws
  .currencyDefine (h (spareAfter 4 mask ws)) ⟨currency, decimals, faceCount, faces⟩

/-- PRINTER.PACE. -/
def bodyPace (h : Bool → ReqHead) (mask : Nat) (ws : List Word) : Instr :=
  let (printer, ws) := takeField 0 readPrinter mask ws
  let (column, ws) := takeField 1 readOne mask ws
  let (needle, ws) := takeField 2 readOne mask ws
  let (feed, ws) := takeField 3 readOne mask ws
  let (pitch, ws) := takeField 4 readOne mask ws
  let (margin, ws) := takeField 5 readOne mask ws
  let (jam, ws) := takeField 6 readOne mask ws
  .printerPace (h (spareAfter 7 mask ws)) ⟨printer, column, needle, feed, pitch, margin, jam⟩

/-- FIELD.BIND. -/
def bodyBind (h : Bool → ReqHead) (mask : Nat) (ws : List Word) : Instr :=
  let (buffer, ws) := takeField 0 readOne mask ws
  let (slot, ws) := takeField 1 readOne mask ws
  let (column, ws) := takeField 2 readOne mask ws
  let (width, ws) := takeField 3 readOne mask ws
  let (source, ws) := takeField 4 readSource mask ws
  .fieldBind (h (spareAfter 5 mask ws)) ⟨buffer, slot, column, width, source⟩

/-- The request of a kind, its body read with a mask and the words after it; none for a code that is not in
the table of requests (R191). -/
def readBody (h : Bool → ReqHead) (kind mask : Nat) (ws : List Word) : Option Instr :=
  match kind with
  | 16 => some (bodyDefine h mask ws)
  | 17 => some (body3 readOne readOne readOne (fun b x y z => .drawerSignon (h b) ⟨x, y, z⟩) mask ws)
  | 18 => some (body1 readOne (fun b x => .drawerSignoff (h b) x) mask ws)
  | 19 => some (body3 readOne readAmount readAmount (fun b x y z => .drawerLimits (h b) ⟨x, y, z⟩) mask ws)
  | 20 => some (body2 readOne readCounts (fun b x y => .drawerCount (h b) ⟨x, y⟩) mask ws)
  | 21 => some (body1 readOne (fun b x => .drawerAccept (h b) x) mask ws)
  | 22 => some (body1 readOne (fun b x => .drawerEnquire (h b) x) mask ws)
  | 32 => some (bodyPost h mask ws)
  | 33 => some (body2 readOne readOne (fun b x y => .cashReverse (h b) ⟨x, y⟩) mask ws)
  | 48 => some (body3 readOne readTwo readTwo (fun b x y z => .rateSet (h b) ⟨x, y, z⟩) mask ws)
  | 49 => some (body4 readOne readFee readFee readOne (fun b x y z t => .feeSet (h b) ⟨x, y, z, t⟩) mask ws)
  | 50 => some (body4 readOne readOne readDirection readAmount
      (fun b x y z t => .quoteRequest (h b) ⟨x, y, z, t⟩) mask ws)
  | 51 => some (body2 readOne readOne (fun b x y => .quoteRelease (h b) ⟨x, y⟩) mask ws)
  | 64 => some (body4 readOne readOne (readList readCashEntry) readOne
      (fun b x y z t => .transferOffer (h b) ⟨x, y, z, t⟩) mask ws)
  | 65 => some (body2 readOne (readList readCashEntry) (fun b x y => .transferAccept (h b) ⟨x, y⟩) mask ws)
  | 66 => some (body1 readOne (fun b x => .transferDecline (h b) x) mask ws)
  | 67 => some (body2 readDigits (readList readCashEntry) (fun b x y => .vaultReceive (h b) ⟨x, y⟩) mask ws)
  | 68 => some (body2 readDigits (readList readCashEntry) (fun b x y => .vaultDispatch (h b) ⟨x, y⟩) mask ws)
  | 80 => some (body2 readOne readOne (fun b x y => .journalRead (h b) ⟨x, y⟩) mask ws)
  | 81 => some (body0 (fun b => .storeFormat (h b)) mask ws)
  | 96 => some (body4 readOne readOne readDigits readFlag (fun b x y z t => .classSet (h b) ⟨x, y, z, t⟩)
      mask ws)
  | 97 => some (body2 readDigits readOne (fun b x y => .passbookEnquire (h b) ⟨x, y⟩) mask ws)
  | 98 => some (body3 readOne readDigits readMode (fun b x y z => .passbookNewbook (h b) ⟨x, y, z⟩) mask ws)
  | 112 => some (body3 readOne readDigits readPrinter (fun b x y z => .printStart (h b) ⟨x, y, z⟩) mask ws)
  | 113 => some (body2 readOne readOne (fun b x y => .printCancel (h b) ⟨x, y⟩) mask ws)
  | 114 => some (bodyPace h mask ws)
  | 115 => some (body1 readPrinter (fun b x => .printerReset (h b) x) mask ws)
  | 128 => some (body0 (fun b => .rowClaim (h b)) mask ws)
  | 129 => some (body1 readOne (fun b x => .rowFree (h b) x) mask ws)
  | 130 => some (body3 readOne readOne (readList readCell) (fun b x y z => .rowWrite (h b) ⟨x, y, z⟩) mask ws)
  | 131 => some (body3 readOne readOne readOne (fun b x y z => .mapSet (h b) ⟨x, y, z⟩) mask ws)
  | 132 => some (bodyBind h mask ws)
  | 133 => some (body1 readOne (fun b x => .screenActivity (h b) x) mask ws)
  | 134 => some (body2 readOne readOne (fun b x y => .screenUnlock (h b) ⟨x, y⟩) mask ws)
  | 135 => some (body2 readOne readText (fun b x y => .screenSettings (h b) ⟨x, y⟩) mask ws)
  | 144 => some (body1 readDate (fun b x => .dayOpen (h b) x) mask ws)
  | 145 => some (body0 (fun b => .dayClose (h b)) mask ws)
  | 146 => some (body0 (fun b => .dayReopen (h b)) mask ws)
  | 147 => some (body0 (fun b => .daySeal (h b)) mask ws)
  | 148 => some (body0 (fun b => .daySend (h b)) mask ws)
  | 149 => some (body0 (fun b => .dayClear (h b)) mask ws)
  | 150 => some (body2 readOne readOne (fun b x y => .lineSettings (h b) ⟨x, y⟩) mask ws)
  | 160 => some (body2 readOne readOne (fun b x y => .positionBind (h b) ⟨x, y⟩) mask ws)
  | 161 => some (body1 readOne (fun b x => .portSettings (h b) x) mask ws)
  | 162 => some (body0 (fun b => .faultRead (h b)) mask ws)
  | 163 => some (body0 (fun b => .faultClear (h b)) mask ws)
  | 164 => some (body2 readOne readTwo (fun b x y => .clockSet (h b) ⟨x, y⟩) mask ws)
  | 165 => some (body0 (fun b => .partStatus (h b)) mask ws)
  | _ => none

/-! ### The header (R191) -/

/-- Word 1 has no bit set outside 15 and 6 to 0, and its count, at most 64, is the one written to the post word (R178). -/
def headerOk (w : Word) (written : Nat) : Bool :=
  w &&& 32640 == 0 && w.toNat % 128 == written && written ≤ 64

/-- A body without its mask has no field and is refused at the field check (log entry 9). -/
def readRequest (m : Master) (p : Posted) : Option Instr :=
  match p.words with
  | w0 :: w1 :: body =>
    if headerOk w1 p.written then
      let kind := w0.toNat / 256
      let head (spare : Bool) : ReqHead := ⟨m, w0.setWidth 8, w1.getLsbD 15, spare⟩
      match body with
      | mask :: ws => readBody head kind mask.toNat ws
      | [] => readBody (fun _ => head true) kind 0 []
    else none
  | _ => none

end Sys2Proof.Machine
end

