-- ==== Sys2Proof/Machine/Port.lean ====
section
/-! DEFINITION. The Backplane Port: window accesses (R177, R178, R181, R186), the request server (R179, R180),
its own requests (R183, R184, R187 to R189) and the backplane reset (R190). -/

namespace Sys2Proof.Machine

/-! ### Window accesses (R177, R178, R191, R192) -/

/-- The master of an access; numbers 5 to 7 are not answered (R177). -/
def masterOf (m : Fin 8) : Option Master := if h : m.val < 5 then some ⟨m.val, h⟩ else none

/-- Accesses are answered while the main supply holds; the state goes on unchanged otherwise. -/
def access (m : Fin 8) (f : Master → State → State) (s : State) : State :=
  match masterOf m with
  | some m => if s.power = .off then s else f m s
  | none => s

def windowOf (s : State) (m : Master) : Window := s.port.windows.get m

/-- The word answered to a read. -/
def answerRead (w : Word) (s : State) : State := { s with out := { s.out with readData := w } }

def writePostArea (offset : Fin 64) (w : Word) (win : Window) : Window :=
  { win with postArea := win.postArea.set offset w }

/-- A post of `written` words, of which at most 64 are copied: queued, or dropped at a full queue (R178). -/
def postRequest (written : Nat) (win : Window) : Window :=
  if written = 0 then win
  else if win.requests.length < 4 then
    { win with requests := win.requests ++ [⟨win.postArea.list.take written, written⟩] }
  else { win with dropped := min 255 (win.dropped + 1) }

/-- POST_WORD: the word count is in bits 6 to 0 (R178, R192). -/
def execPostWord (m : Fin 8) (w : Word) (s : State) : Host.Outcome State Fault Refusal :=
  .next (access m (fun m s => modifyWindow m (postRequest (w.toNat % 128)) s) s)

/-- The highest-priority notice in service ends (R186). -/
def endNotice (win : Window) : Window :=
  match highest win.service with
  | some k => { win with service := win.service.set k none }
  | none => win

/-- NOTICE_END (R186). -/
def execNoticeEnd (m : Fin 8) (s : State) : Host.Outcome State Fault Refusal :=
  .next (access m (fun m s => modifyWindow m endNotice s) s)

/-- A write at an offset of the window: the post area, and the post word and notice-end word at their own
offsets; a write to a read-only part is ignored (R177, R192). -/
def writeWindow (offset : Fin 2048) (w : Word) (win : Window) : Window :=
  if h : offset.val < 64 then writePostArea ⟨offset.val, h⟩ w win
  else if offset.val = 64 then postRequest (w.toNat % 128) win
  else if offset.val = 78 then endNotice win
  else win

/-- POST_AREA_WRITE (R177). -/
def execPostAreaWrite (m : Fin 8) (offset : Fin 2048) (w : Word) (s : State) :
    Host.Outcome State Fault Refusal :=
  .next (access m (fun m s => modifyWindow m (writeWindow offset w) s) s)

/-- The response area with the words of a response, zeros after them (R191; log entry 16). -/
def fillArea (ws : List Word) : Table Word 1024 := Table.ofFn fun i => (ws[i.val]?).getD 0

/-- The oldest waiting response leaves the queue for the response area, or the area is cleared (R191). -/
def takeResponse (win : Window) : Window :=
  match win.responses with
  | r :: rest => { win with responses := rest, responseArea := fillArea r.encode }
  | [] => { win with responseArea := Table.fill 1024 0 }

/-- What a read of the response-take word returns. -/
def responseWord (win : Window) : Word := (win.responses.head?.map fun r => (r.encode.head?).getD 0).getD noneWord

/-- The port status word (R192). -/
def statusWord (win : Window) : Word :=
  BitVec.ofNat 16 ((4 - win.requests.length) + 8 * win.responses.length + 128 * win.dropped +
    32768 * (noticeLine win).toNat)

/-- The dropped-post count is 0 after the port status word is read (R177). -/
def clearDropped (win : Window) : Window := { win with dropped := 0 }

/-- A notice moves from the waiting set to the in-service set, its record latched (R186, R191). -/
def takeNotice (win : Window) : Window :=
  match takeable win with
  | some k =>
    match win.waiting.get k with
    | some n =>
      { win with
        waiting := win.waiting.set k none
        service := win.service.set k (some n)
        latched := n.rest }
    | none => win
  | none => { win with latched := Table.fill 10 0 }

/-- What a read of the notice-take word returns. -/
def noticeWord (win : Window) : Word :=
  ((takeable win).bind fun k => (win.waiting.get k).map Notice.head).getD noneWord

/-- A read at an offset of the window: the word it returns and what it leaves (R177, R191, R192).  A read of a
write-only part, and of an offset that is no part, returns zero and changes nothing (log entry 29). -/
def readWindow (offset : Fin 2048) (win : Window) : Word × Window :=
  if offset.val = 65 then (responseWord win, takeResponse win)
  else if offset.val = 66 then (statusWord win, clearDropped win)
  else if offset.val = 67 then (noticeWord win, takeNotice win)
  else if 68 ≤ offset.val ∧ offset.val ≤ 77 then (win.latched.get (Fin.ofNat 10 (offset.val - 68)), win)
  else if 1024 ≤ offset.val then (win.responseArea.get (Fin.ofNat 1024 (offset.val - 1024)), win)
  else (0, win)

/-- A master reads a word of its window. -/
def readAt (offset : Fin 2048) (m : Master) (s : State) : State :=
  answerRead (readWindow offset (windowOf s m)).1 (modifyWindow m (fun w => (readWindow offset w).2) s)

/-- RESPONSE_TAKE, at the offset read: the response-take word at 65 (R181, R191), and the other words of the window
at theirs (R177; log entry 29). -/
def execResponseTake (r : WindowRead) (s : State) : Host.Outcome State Fault Refusal :=
  .next (access r.master (readAt r.offset) s)

/-- PORT_STATUS_READ (R177). -/
def execPortStatusRead (m : Fin 8) (s : State) : Host.Outcome State Fault Refusal :=
  .next (access m (readAt 66) s)

/-- NOTICE_TAKE (R186, R191). -/
def execNoticeTake (m : Fin 8) (s : State) : Host.Outcome State Fault Refusal :=
  .next (access m (readAt 67) s)

/-! ### The request server (R179, R180) -/

/-- A master is eligible (R180). -/
def eligible (s : State) (m : Master) : Bool :=
  !(windowOf s m).requests.isEmpty && (s.port.inExecution.get m).isNone &&
    decide ((windowOf s m).responses.length < 8)

/-- The masters in turn, starting with the one after `last`. -/
def inTurn (last : Master) : List Master :=
  [last + 1, last + 2, last + 3, last + 4, last]

/-- The master served next, with the burst used after it (R180).  After a reset the last served master is 4 with
burst used 0, so an eligible master 4 is served first and otherwise master 0 is looked at first (R190; log
entry 49). -/
def nextServed (s : State) : Option (Master × Nat) :=
  let last := s.port.lastServed
  if eligible s last && s.port.burstUsed < s.store.burst then some (last, s.port.burstUsed + 1)
  else ((inTurn last).find? (eligible s)).map fun m => (m, 1)

/-- The header of a request that the port answers itself: its tag and kind as posted. -/
def postedHead (m : Master) (p : Posted) : ReqHead := ⟨m, (p.words.head?.getD 0).setWidth 8, false, false⟩

def postedKind (p : Posted) : Nat := (p.words.head?.getD 0).toNat / 256

/-- The header of a request command. -/
def headOf : Instr → Option ReqHead
  | .currencyDefine h _ | .drawerSignon h _ | .drawerSignoff h _ | .drawerLimits h _ | .drawerCount h _
  | .drawerAccept h _ | .drawerEnquire h _ | .cashPost h _ | .cashReverse h _ | .rateSet h _ | .feeSet h _
  | .quoteRequest h _ | .quoteRelease h _ | .transferOffer h _ | .transferAccept h _ | .transferDecline h _
  | .vaultReceive h _ | .vaultDispatch h _ | .journalRead h _ | .storeFormat h | .classSet h _
  | .passbookEnquire h _ | .passbookNewbook h _ | .printStart h _ | .printCancel h _ | .printerPace h _
  | .printerReset h _ | .rowClaim h | .rowFree h _ | .rowWrite h _ | .mapSet h _ | .fieldBind h _
  | .screenActivity h _ | .screenUnlock h _ | .screenSettings h _ | .dayOpen h _ | .dayClose h | .dayReopen h
  | .daySeal h | .daySend h | .dayClear h | .lineSettings h _ | .positionBind h _ | .portSettings h _
  | .faultRead h | .faultClear h | .clockSet h _ | .partStatus h => some h
  | _ => none

/-- A request handed to its unit, or in STORE_INVALID answered by the port itself (R179). -/
def handOver (m : Master) (i : Instr) (s : State) : State :=
  let s := { s with port := { s.port with
    inExecution := s.port.inExecution.set m (some ⟨i, false⟩)
    order := s.port.order ++ [.request m] } }
  match headOf i with
  | some h => if shutOut i s then settle h i (invalidVerdict h i s) else s
  | none => s

/-- The oldest request of a master is handed out, or answered UNKNOWN_REQUEST (R179). -/
def handOut (m : Master) (p : Posted) (s : State) : State :=
  let s := modifyWindow m (fun w => { w with requests := w.requests.drop 1 }) s
  match readRequest m p with
  | some i => handOver m i s
  | none => respond (postedHead m p) (postedKind p) .unknownRequest false [] s

def serveNext (s : State) : State :=
  match nextServed s with
  | some (m, burst) =>
    match (windowOf s m).requests with
    | p :: _ => handOut m p { s with port := { s.port with lastServed := m, burstUsed := burst } }
    | [] => s
  | none => s

/-- REQUEST_HANDOUT (R179, R180); after a power warning nothing is handed out (R190). -/
def execRequestHandout (s : State) : Host.Outcome State Fault Refusal :=
  .next (if s.power = .up then serveNext s else s)

/-! ### POSITION.BIND (R183) and PORT.SETTINGS (R184) -/

def positionBindChecks (h : ReqHead) (r : PositionReq) (s : State) : List Check :=
  officerOnly h ++
    [⟨!h.spare && inRange 0 11 r.position && inRange 0 3 r.master, .badField, []⟩,
     ⟨(tellerAt s (positionOf r.position)).isNone, .wrongState, []⟩]

def positionBindTaken (r : PositionReq) (s : State) : Verdict :=
  let s := modifyPosition (positionOf r.position)
    (fun e => { e with serving := Fin.ofNat 4 r.master.nat }) s
  take s [s.store.positions.list.map fun e => .num e.serving.val]

/-- POSITION.BIND (R183). -/
def execPositionBind (h : ReqHead) (r : PositionReq) (s : State) : Host.Outcome State Fault Refusal :=
  .next (carry h (.positionBind h r)
    (fun s => judge (positionBindChecks h r s) s (positionBindTaken r s)) s)

def portSettingsChecks (h : ReqHead) (burst : Fld Nat) : List Check :=
  (if burst.present then officerOnly h else anyMaster h) ++
    [⟨!h.spare && burst.optional fun _ => true, .badField, []⟩]

def portSettingsTaken (burst : Fld Nat) (s : State) : Verdict :=
  let s := { s with store := { s.store with
    burst := (burst.toOption.map (clamp 1 4)).getD s.store.burst } }
  take s [numField s.store.burst, [.flag (burst.present && clamp 1 4 burst.nat != burst.nat)]]

/-- PORT.SETTINGS (R184). -/
def execPortSettings (h : ReqHead) (burst : Fld Nat) (s : State) : Host.Outcome State Fault Refusal :=
  .next (carry h (.portSettings h burst)
    (fun s => judge (portSettingsChecks h burst) s (portSettingsTaken burst s)) s)

/-! ### FAULT.READ and FAULT.CLEAR (R187) -/

/-- The whole fault record (R187).  The detail stands as its items, without a count; while no fault has been captured
since power-up it has none, and takes no word of the response: the model's choice (log entry 66). -/
def faultFields (f : FaultRecord) : List (List Item) :=
  [[.flag f.held], [.num f.kind.place], [.num f.source.place], f.detail, [.num f.day], [.wide f.seconds],
    [.num f.lost]]

def faultReadChecks (h : ReqHead) : List Check := anyMaster h ++ [bodyCheck h]

/-- FAULT.READ (R187). -/
def execFaultRead (h : ReqHead) (s : State) : Host.Outcome State Fault Refusal :=
  .next (carry h (.faultRead h)
    (fun s => judge (faultReadChecks h) s (take s (faultFields s.port.fault))) s)

def faultClearChecks (h : ReqHead) : List Check := officerOnly h ++ [bodyCheck h]

/-- The held flag is cleared and the lost count 0; the answer is the record before (R187). -/
def faultClearTaken (s : State) : Verdict :=
  take { s with port := { s.port with fault := { s.port.fault with held := false, lost := 0 } } }
    (faultFields s.port.fault)

/-- FAULT.CLEAR (R187). -/
def execFaultClear (h : ReqHead) (s : State) : Host.Outcome State Fault Refusal :=
  .next (carry h (.faultClear h) (fun s => judge (faultClearChecks h) s (faultClearTaken s)) s)

/-! ### CLOCK.SET (R188) and PART.STATUS (R189) -/

def clockSetChecks (h : ReqHead) (r : ClockReq) : List Check :=
  officerOnly h ++
    [⟨!h.spare && inRange 0 65535 r.day && inRange 0 86399 r.seconds, .badField, []⟩]

def clockSetTaken (r : ClockReq) (s : State) : Verdict :=
  take (report [.clock] { s with clock := ⟨r.day.nat, r.seconds.nat, true⟩ }) []

/-- CLOCK.SET (R188). -/
def execClockSet (h : ReqHead) (r : ClockReq) (s : State) : Host.Outcome State Fault Refusal :=
  .next (carry h (.clockSet h r) (fun s => judge (clockSetChecks h r) s (clockSetTaken r s)) s)

/-- The header of the branch store as the battery keeps it. -/
def batteryHeader (s : State) : Header := (s.kept.getD s.store).header

/-- The day state's place, or 7 for STORE_INVALID (R189). -/
def statusDay (s : State) : Nat := if s.kept.isSome then 7 else s.store.day.state.place

/-- The day reference, in DELIVERED and NO_DAY (R189). -/
def statusReference (s : State) : Option (List Item) :=
  if dayIs s [.delivered, .noDay] then s.store.day.reference.map fun l => [.text (l.map BitVec.toNat)]
  else none

def partStatusTaken (s : State) : Verdict :=
  takeMasked s
    [some [.num s.jsu.cause.place], some [.num (statusDay s)], some [.num s.store.day.used],
     some [.flag s.port.fault.held], some [.num (batteryHeader s).readGeneration],
     some [.num s.clock.day, .wide s.clock.seconds, .flag s.clock.valid], statusReference s]

def partStatusChecks (h : ReqHead) : List Check := anyMaster h ++ [bodyCheck h]

/-- PART.STATUS (R189). -/
def execPartStatus (h : ReqHead) (s : State) : Host.Outcome State Fault Refusal :=
  .next (carry h (.partStatus h) (fun s => judge (partStatusChecks h) s (partStatusTaken s)) s)

/-! ### Backplane reset (R190) -/

/-- A window after a backplane reset: everything but the post area is cleared (R190, R191). -/
def resetWindow (w : Window) : Window := { emptyWindow with postArea := w.postArea }

/-- The port after a backplane reset: requests in execution go on, their responses to be discarded. -/
def resetPort (p : Port) : Port :=
  { p with
    windows := p.windows.map resetWindow
    lastServed := 4
    burstUsed := 0
    inExecution := p.inExecution.map (Option.map fun x => { x with discard := true }) }

/-- BACKPLANE_RESET (R190). -/
def execBackplaneReset (s : State) : Host.Outcome State Fault Refusal :=
  .next (if s.power = .off then s else { s with port := resetPort s.port })

end Sys2Proof.Machine
end

