-- ==== Sys2Proof/Machine/Power.lean ====
section
/-! DEFINITION. Power warning (R88, R89), the fall of the supply, power-up and restore (R90 to R92),
STORE.FORMAT (R93) and the second tick (R188). -/

namespace Sys2Proof.Machine

/-! ### STORE.FORMAT (R93) -/

def storeFormatChecks (h : ReqHead) (s : State) : List Check :=
  officerOnly h ++ [bodyCheck h, ⟨s.kept.isSome || dayIs s [.noDay, .sealed], .dayState, []⟩]

/-- The header that a format writes: the generation raised by 1, the marker set (R80, R93). -/
def formattedHeader (h : Header) : Header :=
  let g := (h.readGeneration + 1) % 65536
  ⟨true, g, headerCheck true g⟩

/-- Every area and every unit at its format value, the screens apart (R93). -/
def formatUnits (s : State) : State :=
  setLineReady false { formatPru s with
    store := formatStore (formattedHeader (batteryHeader s))
    kept := none
    jsu := ⟨0, .format⟩
    counted := Table.fill 13 none
    exu := ⟨Table.fill 16 none, 0⟩
    sender := idleSender }

/-- Every pending and in-service notice set is emptied (R62; log entry 50). -/
def clearNotices (s : State) : State :=
  { s with port := { s.port with windows := s.port.windows.map fun w =>
      { w with waiting := Table.fill 8 none, service := Table.fill 8 none } } }

/-- The day state as PART.STATUS shows it becomes NO_DAY: a change is raised (R159). -/
def formatNotice (before : State) (s : State) : State :=
  if statusDay before = statusDay s then s else dayChanged .noDay s

/-- The format taken: the notice sets are cleared, and the notices of the format itself enter the cleared sets. -/
def storeFormatTaken (s : State) : Verdict :=
  let done := formatNotice s (formatScu (formatUnits (raiseFormatted (clearNotices s))))
  take done [numField done.store.header.generation]

/-- STORE.FORMAT (R93). -/
def execStoreFormat (h : ReqHead) (s : State) : Host.Outcome State Fault Refusal :=
  .next (carry h (.storeFormat h) (fun s => judge (storeFormatChecks h s) s (storeFormatTaken s)) s)

/-! ### Power warning and the fall of the supply (R88, R89, R176, R190) -/

/-- Requests in execution that have not appended their record are abandoned (R88); what else was asked waits on. -/
def abandonRequests (s : State) : State :=
  { s with port := { s.port with inExecution := Table.fill 5 none, order := s.port.order.filter takesItself } }

/-- The power warning: the open commit completes, requests are abandoned, the printers stop, line ready drops
and the store is shut (R88, R89).  What waited behind those requests is then taken, as a part whose store is shut takes
it (log entry 10). -/
def warnPower (s : State) : State :=
  takeWaiting { setLineReady false (stopPrinters (abandonRequests (finishDelivery s))) with power := .shut }

/-- POWER_WARNING (R88, R89). -/
def execPowerWarning (s : State) : Host.Outcome State Fault Refusal :=
  .next (if s.power = .up then warnPower s else s)

/-- An engine without supply: its book and sensor stay. -/
def deadEngine (e : Engine) : Engine := { powerUpEngine e.present e.inFeed with motion := .still }

/-- Everything volatile takes its power-up value; the battery domain stays (R78). -/
def loseVolatile (s : State) : State :=
  { s with
    jsu := ⟨0, s.jsu.cause⟩
    delivery := none
    counted := Table.fill 13 none
    exu := ⟨Table.fill 16 none, 0⟩
    pru := powerUpPru (s.pru.engines.map deadEngine)
    scu := ⟨freshBuffers, Table.fill 12 (powerUpScreen false), 300, defaultLockText⟩
    sender := idleSender
    port := powerUpPort
    out := { s.out with lineReady := false } }

/-- MAIN_SUPPLY_FALL: what is volatile is lost; the store keeps whole writes alone (R79, R89). -/
def execMainSupplyFall (s : State) : Host.Outcome State Fault Refusal :=
  .next { loseVolatile s with power := .off }

/-! ### Restore (R90 to R92) -/

/-- The drawer's last applied sequence is below the record's (R91). -/
def notYetApplied (s : State) (n : DrawerNo) (r : Record) : Bool :=
  (s.store.drawers.get n).lastApplied < r.sequence

/-- The tender of a transfer record as counts, whatever side it is signed from. -/
def recordCounts (r : Record) : Counts := Table.map Int.natAbs (entryDeltas r.tender)

/-- Make a record's part at one of its drawers, if it is not yet made there (R91). -/
def atParty (n : Option DrawerNo) (r : Record) (f : DrawerNo → State → State) (s : State) : State :=
  match n with
  | some n => if notYetApplied s n r then f n s else s
  | none => s

/-- Make a record's part at its drawer, if it is not yet made there (R91). -/
def atDrawer (r : Record) (f : DrawerNo → State → State) (s : State) : State := atParty r.drawer r f s

/-- TRANSFER_IN replayed: the receive at the to-drawer and the deliver at the from-drawer, each under its own test
(R75); R92 then settles the reserved counts (log entry 51). -/
def replayIn (r : Record) (s : State) : State :=
  atParty r.second r (fun n => deliverCash n (recordCounts r) r.sequence)
    (atDrawer r (fun n => receiveCash n (recordCounts r) r.sequence) s)

/-- The original of a REVERSAL record. -/
def originalOf (s : State) (r : Record) : Record :=
  ((r.reverses.bind (recordAt s)).getD (emptyRecord .posting))

/-- The Passbook Line Unit's part of a replay, with the disposition (R34, R42, R91). -/
def replayLine (r : Record) (s : State) : State × Disposition :=
  if r.kind = .reversal then
    let (s', a) := handReversalLine r (originalOf s r) s
    (s', a.disposition)
  else handLine r s

/-- DRAWER_CLOSE replayed (R16). -/
def replayClose (r : Record) (n : DrawerNo) (s : State) : State :=
  modifyDrawer n (fun d => { d with state := .closed, lastApplied := r.sequence }) s

/-- RATE_CHANGE replayed (R47). -/
def replayBoard (r : Record) (s : State) : State :=
  match r.exchange with
  | some (.board f e life g) =>
    if s.store.board.lastApplied < r.sequence then modifyBoard (writeBoard f e life g r.sequence) s else s
  | _ => s

/-- The parts made at replay, by the record's kind, with the disposition (R91). -/
def replayParts (r : Record) (s : State) : State × Disposition :=
  let cash (n : DrawerNo) (s : State) : State :=
    cashChange n (entryDeltas r.tender) r.sequence (remainderOf r) s
  match r.kind with
  | .posting | .reversal => replayLine r (atDrawer r cash s)
  | .transferOut => (atDrawer r (fun n => reserveCash n (recordCounts r) r.sequence) s, .none)
  | .transferIn => (replayIn r s, .none)
  | .transferReturn => (atDrawer r (fun n => returnCash n (recordCounts r) r.sequence) s, .none)
  | .vaultIn | .vaultOut | .difference => (atDrawer r cash s, .none)
  | .drawerClose => (atDrawer r (replayClose r) s, .none)
  | .rateChange => (replayBoard r s, .none)
  | .dayOpen => (openDrawers (fun d => d.lastApplied < 1) s, .none)
  | .dayCloseBegin | .dayReopen | .daySeal => (s, .none)

/-- A record replayed and its mark set (R91). -/
def replayRecord (r : Record) (s : State) : State :=
  let (s, d) := replayParts r s
  setApplied r.sequence d s

/-- The sequence of the original that the replay of a REVERSAL reads too, where it hands the reversal over and the
original's check fails (R42, R83; log entry 52). -/
def failedOriginal (s : State) (r : Record) : Option Nat :=
  if r.kind = .reversal ∧ makesLine r.postKind = true then
    r.reverses.filter fun q => (recordAt s q).any fun o => !o.checkOk
  else none

/-- The record at a sequence of the open commit list, or the sequence whose check fails (R91). -/
def readForReplay (s : State) (sequence : Nat) : Except Nat Record :=
  match recordAt s sequence with
  | some r => if r.checkOk then (failedOriginal s r).elim (.ok r) .error else .error sequence
  | none => .error sequence

/-- The replay of the open commit list, which a failing check ends; `false` says that it did (R91). -/
def replayList : List Nat → State → State × Bool
  | [], s => (s, true)
  | sequence :: rest, s =>
    match readForReplay s sequence with
    | .ok r => replayList rest (replayRecord r s)
    | .error q => (storeCheckFault q s, false)

/-- Reserved counts from the OFFERED transfers (R92). -/
def reservedOf (s : State) (n : DrawerNo) : Counts :=
  ((offeredSlots s).filter fun e => e.2.fromDrawer == n).foldr (fun e acc => addCounts e.2.tender acc) zeroCounts

def settleReserved (s : State) : State :=
  { s with store := { s.store with
    drawers := Table.ofFn fun n => { s.store.drawers.get n with reserved := reservedOf s n } } }

/-- An OFFERED transfer gets its full timeout again (R75). -/
def restartTransfer (t : Transfer) : Transfer := if isOffered t then { t with remaining := t.timeout } else t

/-- The Transfer Unit's part: full timeouts and the end holds (R75, R92). -/
def restoreTransfers (s : State) : State :=
  { s with
    store := { s.store with transfers := s.store.transfers.map (Option.map restartTransfer) }
    jsu := { s.jsu with holds := (offeredSlots s).length } }

/-- The excess marks recomputed for the teller drawers (R21). -/
def recomputeMarks (s : State) : State :=
  ((List.finRange 12).map Fin.castSucc).foldl (fun s n => evaluateExcess n s) s

/-- SENDING becomes SEALED (R92). -/
def endSending (s : State) : State := if s.store.day.state = .sending then setDayState .sealed s else s

def setCause (c : RestartCause) (s : State) : State := { s with jsu := { s.jsu with cause := c } }

/-- The restart cause and the RESTORE_REPLAY fault (R91). -/
def noteReplay (replayed : List Nat) (s : State) : State :=
  match replayed with
  | [] => setCause .clean s
  | lowest :: _ => captureFault .restoreReplay .jsu [.num lowest] (setCause .replay s)

/-- The rest of a restore whose replay is whole (R75, R92, R114, R21, R137, R157). -/
def finishRestore (replayed : List Nat) (s : State) : State :=
  let s := restoreTransfers (settleReserved (noteReplay replayed s))
  powerUpScu (powerUpPrinters false (endSending (recomputeMarks (powerUpPlu s))))

/-- STORE_INVALID: the units hold STORE.FORMAT's values and nothing is written to the store (R90). -/
def enterInvalid (s : State) : State :=
  powerUpScu (powerUpPrinters true (setCause .storeInvalid
    { s with kept := some s.store, store := formatStore s.store.header }))

/-- The restore (R90 to R92). -/
def restore (s : State) : State :=
  if s.store.header.valid then
    let replayed := s.store.day.openCommits
    match replayList replayed s with
    | (s, true) => finishRestore replayed s
    | (s, false) => enterInvalid s
  else enterInvalid s

/-- The branch store as the battery keeps it becomes the store in use; nothing is held beside it. -/
def openStore (s : State) : State := { s with store := s.kept.getD s.store, kept := none }

/-- The clock at power-up: found invalid, it starts from day 0 and CLOCK_LOST is captured (R188). -/
def findClock (s : State) : State :=
  if s.clock.valid then s else captureFault .clockLost .bpp [.num 0] { s with clock := ⟨0, 0, false⟩ }

/-- The battery domain after the battery failed: marker clear, clock flag clear, and a header the manual
leaves open (R80, R188; log entry 3). -/
def loseBattery (s : State) : State :=
  { s with
    clock := { s.clock with valid := false }
    store := { s.store with
      header := ⟨false, Config.lostGeneration s.freeCount, Config.lostCheck s.freeCount⟩ }
    freeCount := s.freeCount + 1 }

/-- A power-up with the battery held or lost (R90, R188). -/
def powerUp (battery : Bool) (s : State) : State :=
  let s := openStore { loseVolatile s with power := .up }
  restore (findClock (if battery then s else loseBattery s))

/-- POWER_UP (R90). -/
def execPowerUp (battery : Bool) (s : State) : Host.Outcome State Fault Refusal := .next (powerUp battery s)

/-- POWER_WARNING_WITHDRAWN: the restore of power-up, as though power had returned (R89). -/
def execPowerWarningWithdrawn (s : State) : Host.Outcome State Fault Refusal :=
  .next (if s.power = .shut then powerUp true s else s)

/-! ### The second tick (R188) -/

/-- The branch clock advances one second (R188). -/
def advanceClock (c : Clock) : Clock :=
  if c.seconds + 1 < Config.daySeconds then { c with seconds := c.seconds + 1 }
  else { c with seconds := 0, day := (c.day + 1) % 65536 }

/-- The tick as the units take it, each in its own order of operations: under a power warning the Transfer Unit and the line do no more. -/
def tickUnits (s : State) : State :=
  match s.power with
  | .up => [.exu, .tru, .scu, .dlu].foldl (fun s u => serve (.tick u) s) s
  | .shut => tickScu (tickExu s)
  | .off => s

/-- SECOND_TICK (R188). -/
def execSecondTick (s : State) : Host.Outcome State Fault Refusal :=
  .next (tickUnits { s with clock := advanceClock s.clock })

end Sys2Proof.Machine
end

