-- ==== Sys2Proof/Machine/Dispatch.lean ====
section
/-! DEFINITION. The command dispatch: one arm per row of the opcode table, in the table's order. -/

namespace Sys2Proof.Machine

def exec (i : Instr) (s : State) : Host.Outcome State Fault Refusal :=
  match i with
  | .currencyDefine h r => Sys2Proof.Machine.execCurrencyDefine h r s
  | .drawerSignon h r => Sys2Proof.Machine.execDrawerSignon h r s
  | .drawerSignoff h position => Sys2Proof.Machine.execDrawerSignoff h position s
  | .drawerLimits h r => Sys2Proof.Machine.execDrawerLimits h r s
  | .drawerCount h r => Sys2Proof.Machine.execDrawerCount h r s
  | .drawerAccept h drawer => Sys2Proof.Machine.execDrawerAccept h drawer s
  | .drawerEnquire h drawer => Sys2Proof.Machine.execDrawerEnquire h drawer s
  | .cashPost h r => Sys2Proof.Machine.execCashPost h r s
  | .cashReverse h r => Sys2Proof.Machine.execCashReverse h r s
  | .rateSet h r => Sys2Proof.Machine.execRateSet h r s
  | .feeSet h r => Sys2Proof.Machine.execFeeSet h r s
  | .quoteRequest h r => Sys2Proof.Machine.execQuoteRequest h r s
  | .quoteRelease h r => Sys2Proof.Machine.execQuoteRelease h r s
  | .transferOffer h r => Sys2Proof.Machine.execTransferOffer h r s
  | .transferAccept h r => Sys2Proof.Machine.execTransferAccept h r s
  | .transferDecline h number => Sys2Proof.Machine.execTransferDecline h number s
  | .vaultReceive h r => Sys2Proof.Machine.execVaultReceive h r s
  | .vaultDispatch h r => Sys2Proof.Machine.execVaultDispatch h r s
  | .journalRead h r => Sys2Proof.Machine.execJournalRead h r s
  | .storeFormat h => Sys2Proof.Machine.execStoreFormat h s
  | .classSet h r => Sys2Proof.Machine.execClassSet h r s
  | .passbookEnquire h r => Sys2Proof.Machine.execPassbookEnquire h r s
  | .passbookNewbook h r => Sys2Proof.Machine.execPassbookNewbook h r s
  | .printStart h r => Sys2Proof.Machine.execPrintStart h r s
  | .printCancel h r => Sys2Proof.Machine.execPrintCancel h r s
  | .printerPace h r => Sys2Proof.Machine.execPrinterPace h r s
  | .printerReset h printer => Sys2Proof.Machine.execPrinterReset h printer s
  | .rowClaim h => Sys2Proof.Machine.execRowClaim h s
  | .rowFree h buffer => Sys2Proof.Machine.execRowFree h buffer s
  | .rowWrite h r => Sys2Proof.Machine.execRowWrite h r s
  | .mapSet h r => Sys2Proof.Machine.execMapSet h r s
  | .fieldBind h r => Sys2Proof.Machine.execFieldBind h r s
  | .screenActivity h position => Sys2Proof.Machine.execScreenActivity h position s
  | .screenUnlock h r => Sys2Proof.Machine.execScreenUnlock h r s
  | .screenSettings h r => Sys2Proof.Machine.execScreenSettings h r s
  | .dayOpen h date => Sys2Proof.Machine.execDayOpen h date s
  | .dayClose h => Sys2Proof.Machine.execDayClose h s
  | .dayReopen h => Sys2Proof.Machine.execDayReopen h s
  | .daySeal h => Sys2Proof.Machine.execDaySeal h s
  | .daySend h => Sys2Proof.Machine.execDaySend h s
  | .dayClear h => Sys2Proof.Machine.execDayClear h s
  | .lineSettings h r => Sys2Proof.Machine.execLineSettings h r s
  | .positionBind h r => Sys2Proof.Machine.execPositionBind h r s
  | .portSettings h burst => Sys2Proof.Machine.execPortSettings h burst s
  | .faultRead h => Sys2Proof.Machine.execFaultRead h s
  | .faultClear h => Sys2Proof.Machine.execFaultClear h s
  | .clockSet h r => Sys2Proof.Machine.execClockSet h r s
  | .partStatus h => Sys2Proof.Machine.execPartStatus h s
  | .postAreaWrite m offset w => Sys2Proof.Machine.execPostAreaWrite m offset w s
  | .postWord m w => Sys2Proof.Machine.execPostWord m w s
  | .responseTake r => Sys2Proof.Machine.execResponseTake r s
  | .portStatusRead m => Sys2Proof.Machine.execPortStatusRead m s
  | .noticeTake m => Sys2Proof.Machine.execNoticeTake m s
  | .noticeEnd m => Sys2Proof.Machine.execNoticeEnd m s
  | .requestHandout => Sys2Proof.Machine.execRequestHandout s
  | .powerWarning => Sys2Proof.Machine.execPowerWarning s
  | .powerWarningWithdrawn => Sys2Proof.Machine.execPowerWarningWithdrawn s
  | .powerUp battery => Sys2Proof.Machine.execPowerUp battery s
  | .backplaneReset => Sys2Proof.Machine.execBackplaneReset s
  | .secondTick => Sys2Proof.Machine.execSecondTick s
  | .quoteTimeExpiry number => Sys2Proof.Machine.execQuoteTimeExpiry number s
  | .transferTimeout number => Sys2Proof.Machine.execTransferTimeout number s
  | .idleCountExpiry position => Sys2Proof.Machine.execIdleCountExpiry position s
  | .ackTimerExpiry screen => Sys2Proof.Machine.execAckTimerExpiry screen s
  | .probeTimerExpiry screen => Sys2Proof.Machine.execProbeTimerExpiry screen s
  | .rowSend screen => Sys2Proof.Machine.execRowSend screen s
  | .rowAck screen number check => Sys2Proof.Machine.execRowAck screen number check s
  | .probeAnswer screen number check => Sys2Proof.Machine.execProbeAnswer screen number check s
  | .callWaitExpiry => Sys2Proof.Machine.execCallWaitExpiry s
  | .responseTimerExpiry => Sys2Proof.Machine.execResponseTimerExpiry s
  | .endTimerExpiry => Sys2Proof.Machine.execEndTimerExpiry s
  | .blockAgeTimeout => Sys2Proof.Machine.execBlockAgeTimeout s
  | .ready block check => Sys2Proof.Machine.execReady block check s
  | .busy check => Sys2Proof.Machine.execBusy check s
  | .ack block check => Sys2Proof.Machine.execAck block check s
  | .nak block check => Sys2Proof.Machine.execNak block check s
  | .closed reference check => Sys2Proof.Machine.execClosed reference check s
  | .unknownFrame bytes => Sys2Proof.Machine.execUnknownFrame bytes s
  | .bookPresent p => Sys2Proof.Machine.execBookPresent p s
  | .bookRemoved p => Sys2Proof.Machine.execBookRemoved p s
  | .topEdge p steps => Sys2Proof.Machine.execTopEdge p steps s
  | .stepLimit p => Sys2Proof.Machine.execStepLimit p s
  | .stripeReadComplete p stripe => Sys2Proof.Machine.execStripeReadComplete p stripe s
  | .stripeWriteComplete p readBack => Sys2Proof.Machine.execStripeWriteComplete p readBack s
  | .lineDone p => Sys2Proof.Machine.execLineDone p s
  | .headHome p => Sys2Proof.Machine.execHeadHome p s
  | .ejectDone p => Sys2Proof.Machine.execEjectDone p s
  | .jamTimerExpiry p => Sys2Proof.Machine.execJamTimerExpiry p s
  | .deliver => Sys2Proof.Machine.execDeliver s
  | .mainSupplyFall => Sys2Proof.Machine.execMainSupplyFall s

end Sys2Proof.Machine
end

