-- ==== Sys2Proof/Safety.lean ====
section
/-! DEFINITION. The words the statements use: the parts of the state and what "unchanged but" means, a
request in service, the notices raised and the response placed, what a source report may alter, and the
invariants of the part. -/

namespace Sys2Proof.Machine

/-! ### Frames -/

/-- The parts of the state, as a frame names them.  A whole (`drawers`, `buffers`, `screens`, `windows`,
`inExecution`) stands beside its finer parts: where a frame lists the whole as changed and not the finer part, the finer
part is still the same. -/
inductive Part where
  | pending | power | clock | header | day | lineSettings | currencies | drawers | bounds | positions | burst
  | transfers | nextTransfer | board | classes | accounts | lastTaken | carryCount | pacing | journal
  | kept | jsu | delivery | counted | exu | pru | buffers | owners | fields | screens | lines | locks | idles
  | maps | idleTimeout | lockText | sender | windows | postAreas | requests | responses | areas | service
  | dropped | server | inExecution | turns | fault | out | freeCount
deriving DecidableEq, Repr

/-- Nothing asked stands at the unit. -/
abbrev NoneStandsAt (s : State) (u : UnitName) : Prop := ∀ x ∈ s.port.order, standsAt s x ≠ some u

/-- The operations asked that are not source reports. -/
def askedBesideReports (s : State) : List Asked := s.port.order.filter fun x => !x matches .report _

/-- Every request stands where it stood: no request in execution has come, gone or been marked, and of what is asked
only source reports may have joined, and none where nothing stands at the Screen Unit (R144). -/
def TurnsStand (s t : State) : Prop :=
  t.port.inExecution = s.port.inExecution ∧ askedBesideReports t = askedBesideReports s ∧
    (NoneStandsAt s .scu → t.port.order = s.port.order)

/-- The part is the same in both states. -/
def Part.same (s t : State) : Part → Prop
  | .pending => t.pending = s.pending
  | .power => t.power = s.power
  | .clock => t.clock = s.clock
  | .header => t.store.header = s.store.header
  | .day => t.store.day = s.store.day
  | .lineSettings => t.store.lineSettings = s.store.lineSettings
  | .currencies => t.store.currencies = s.store.currencies
  | .drawers => t.store.drawers = s.store.drawers
  | .bounds => ∀ d, (t.store.drawers.get d).bound = (s.store.drawers.get d).bound
  | .positions => t.store.positions = s.store.positions
  | .burst => t.store.burst = s.store.burst
  | .transfers => t.store.transfers = s.store.transfers
  | .nextTransfer => t.store.nextTransfer = s.store.nextTransfer
  | .board => t.store.board = s.store.board
  | .classes => t.store.classes = s.store.classes
  | .accounts => t.store.accounts = s.store.accounts
  | .lastTaken => t.store.lastTaken = s.store.lastTaken ∧ t.store.lastAnswer = s.store.lastAnswer
  | .carryCount => t.store.carryCount = s.store.carryCount
  | .pacing => t.store.pacing = s.store.pacing
  | .journal => t.store.journal = s.store.journal
  | .kept => t.kept = s.kept
  | .jsu => t.jsu = s.jsu
  | .delivery => t.delivery = s.delivery
  | .counted => t.counted = s.counted
  | .exu => t.exu = s.exu
  | .pru => t.pru = s.pru
  | .buffers => t.scu.buffers = s.scu.buffers
  | .owners => ∀ b, (t.scu.buffers.get b).owner = (s.scu.buffers.get b).owner ∧
      (t.scu.buffers.get b).refs = (s.scu.buffers.get b).refs
  | .fields => ∀ b, (t.scu.buffers.get b).fields = (s.scu.buffers.get b).fields
  | .screens => t.scu.screens = s.scu.screens
  | .lines => ∀ p, (t.scu.screens.get p).silent = (s.scu.screens.get p).silent ∧
      (t.scu.screens.get p).sendNo = (s.scu.screens.get p).sendNo ∧
      (t.scu.screens.get p).inFlight = (s.scu.screens.get p).inFlight ∧
      (t.scu.screens.get p).tries = (s.scu.screens.get p).tries ∧
      (t.scu.screens.get p).probe = (s.scu.screens.get p).probe
  | .locks => ∀ p, (t.scu.screens.get p).lockHeld = (s.scu.screens.get p).lockHeld
  | .idles => ∀ p, (t.scu.screens.get p).idle = (s.scu.screens.get p).idle
  | .maps => ∀ p, (t.scu.screens.get p).map = (s.scu.screens.get p).map
  | .idleTimeout => t.scu.idleTimeout = s.scu.idleTimeout
  | .lockText => t.scu.lockText = s.scu.lockText
  | .sender => t.sender = s.sender
  | .windows => t.port.windows = s.port.windows
  | .postAreas => ∀ m, (t.port.windows.get m).postArea = (s.port.windows.get m).postArea
  | .requests => ∀ m, (t.port.windows.get m).requests = (s.port.windows.get m).requests
  | .responses => ∀ m, (t.port.windows.get m).responses = (s.port.windows.get m).responses
  | .areas => ∀ m, (t.port.windows.get m).responseArea = (s.port.windows.get m).responseArea
  | .service => ∀ m, (t.port.windows.get m).service = (s.port.windows.get m).service ∧
      (t.port.windows.get m).latched = (s.port.windows.get m).latched
  | .dropped => ∀ m, (t.port.windows.get m).dropped = (s.port.windows.get m).dropped
  | .server => t.port.lastServed = s.port.lastServed ∧ t.port.burstUsed = s.port.burstUsed
  | .inExecution => t.port.inExecution = s.port.inExecution ∧ t.port.order = s.port.order
  | .turns => TurnsStand s t
  | .fault => t.port.fault = s.port.fault
  | .out => t.out = s.out
  | .freeCount => t.freeCount = s.freeCount

/-- Every part but those listed is the same. -/
def UnchangedBut (changed : List Part) (s t : State) : Prop := ∀ p, p ∉ changed → p.same s t

/-! ### Requests in service -/

/-- No second tick, re-raise, source report or event waits for its turn: requests, and the deliver, are all that is
asked. -/
abbrev NothingWaits (s : State) : Prop := ∀ x ∈ s.port.order, takesItself x = false

/-- The request is the one in execution at its master and its turn at its units has come, in a part that is up with
its store open, with nothing waiting behind it that is taken by itself and no other request standing at the Screen Unit,
for whose end its source reports would wait (R144). -/
structure InService (h : ReqHead) (i : Instr) (s : State) : Prop where
  up : s.power = .up
  storeOpen : s.kept = none
  here : s.port.inExecution.get h.master = some ⟨i, false⟩
  turn : waitsTurn h i s = false
  quiet : NothingWaits s
  screens : ∀ x ∈ s.port.order, x ≠ .request h.master → standsAt s x ≠ some .scu

/-- A request whose body names nothing beyond its parameters, from the officer. -/
def FromOfficer (h : ReqHead) : Prop := h.master = officerMaster ∧ h.spare = false

/-- A request whose body names nothing beyond its parameters, from a master that may act for the position:
its serving master without the officer flag, or master 4 (R179, R183). -/
def MayActFor (h : ReqHead) (s : State) (p : Position) : Prop :=
  h.spare = false ∧ (h.officer = true → h.master = officerMaster) ∧
    (h.master = officerMaster ∨ h.master.val = (s.store.positions.get p).serving.val)

/-- A request whose body names nothing beyond its parameters, from any master (R179). -/
def FromAny (h : ReqHead) : Prop := h.spare = false ∧ (h.officer = true → h.master = officerMaster)

/-- A field of a request that may be absent. -/
def given {α : Type} : Option α → Fld α
  | some a => .value a
  | none => .absent

/-- The windows after the response has joined its master's queue (R181). -/
def withResponse (h : ReqHead) (kind : Nat) (code : Code) (masked : Bool)
    (fields : List (Option (List Item))) (w : Table Window 5) : Table Window 5 :=
  w.modify h.master fun x => { x with responses := x.responses ++ [⟨kind, h.tag, code, masked, fields⟩] }

/-- The windows after the notices listed have been raised, oldest first (R185). -/
def notify (l : List (Master × Detail)) (w : Table Window 5) : Table Window 5 :=
  l.foldl (fun w e => w.modify e.1 (addNotice e.2)) w

/-- The request has been answered, with the notices listed raised before, and nothing else has changed in
any window. -/
def Answered (h : ReqHead) (kind : Nat) (code : Code) (masked : Bool)
    (fields : List (Option (List Item))) (notices : List (Master × Detail)) (s t : State) : Prop :=
  t.port.windows = withResponse h kind code masked fields (notify notices s.port.windows) ∧
    t.port.inExecution = s.port.inExecution.set h.master none ∧ t.port.order = s.port.order.erase (.request h.master)

/-- Windows that differ in nothing but their waiting sets. -/
def NoticesOnly (w v : Table Window 5) : Prop :=
  ∀ m, { v.get m with waiting := (w.get m).waiting } = w.get m

/-- "Journal high", where the next append is the one that raises it (R84). -/
def highNotice (s : State) : List (Master × Detail) :=
  if s.store.day.used + 1 = 15872 then [(officerMaster, .journalHigh 15872)] else []

/-! ### What source reports may alter (R144, R148) -/

/-- A buffer keeps its record, and its cells outside its live fields. -/
def RenderedBuffer (x y : RowBuffer) : Prop :=
  y.owner = x.owner ∧ y.refs = x.refs ∧ y.fields = x.fields ∧
    ∀ i : Fin 80, inField x i.val = false → y.cells.get i = x.cells.get i

/-- A screen differs in nothing but dirty flags that have been set. -/
def RenderedScreen (x y : Screen) : Prop :=
  { y with dirty := x.dirty } = x ∧ ∀ r, x.dirty.get r = true → y.dirty.get r = true

/-- Each row of a LIVE or DARK screen whose map names a buffer with a cell altered is dirty (R148). -/
def RowsMarked (u v : Scu) : Prop :=
  ∀ p n b, (u.screens.get p).silent = false → (u.screens.get p).lockHeld = false →
    (u.screens.get p).map.get n = some b → (v.buffers.get b).cells ≠ (u.buffers.get b).cells →
    (v.screens.get p).dirty.get n = true

/-- Live fields may have been rendered and rows marked dirty, every row that shows an altered buffer among them; nothing
else of the pool and the screens has changed. -/
structure Rendered (u v : Scu) : Prop where
  buffers : ∀ b, RenderedBuffer (u.buffers.get b) (v.buffers.get b)
  screens : ∀ p, RenderedScreen (u.screens.get p) (v.screens.get p)
  marked : RowsMarked u v
  idleTimeout : v.idleTimeout = u.idleTimeout
  lockText : v.lockText = u.lockText

/-! ### What live fields show (R140, R144, R145) -/

/-- The slot holds a HELD quote of the position. -/
def HeldAt (s : State) (p : Position) (i : Fin 16) : Prop :=
  ∃ q, s.exu.quotes.get i = some q ∧ q.state = .held ∧ q.position = p

/-- A drawer report of `l` concerns the drawer row of position `p`: the drawer bound to it, or a change of its binding. -/
def RowReported (s : State) (l : List Report) (p : Position) : Prop :=
  ∃ d b, .drawer d b ∈ l ∧ ((s.store.positions.get p).drawer = some d ∨ b = some p)

/-- The reports `l` have fields of this source rendered: its own report; for a drawer's total also a report of the
drawer's state or of the day state; and for a drawer row those of the drawer bound to its position, and of a change of
that binding (R140, R144). -/
def Renewed (s : State) (l : List Report) (x : Source) : Prop :=
  .all ∈ l ∨ match x with
    | .drawerTotal d c => .total d c ∈ l ∨ (∃ b, .drawer d b ∈ l) ∨ .dayState ∈ l
    | .drawerState d => ∃ b, .drawer d b ∈ l
    | .rate f dir => .rate f dir ∈ l
    | .quoteLeft p => .quoteLeft p ∈ l
    | .jobState p => .jobState p ∈ l
    | .dayState => .dayState ∈ l
    | .clock => .clock ∈ l
    | .rowTotal p c => (∃ d, (s.store.positions.get p).drawer = some d ∧ .total d c ∈ l) ∨ RowReported s l p ∨
        .dayState ∈ l
    | .rowState p => RowReported s l p

/-- The column stands in the field. -/
def LiveField.Holds (f : LiveField) (i : Fin 80) : Prop := f.column ≤ i.val ∧ i.val < f.column + f.width

/-- Two fields share no column. -/
def LiveField.Apart (f g : LiveField) : Prop := f.column + f.width ≤ g.column ∨ g.column + g.width ≤ f.column

/-- A text in a field `w` wide: left-aligned, blanks after it, or asterisks where it is too wide (R145). -/
def textForm (w : Nat) (t : String) : List Nat :=
  if w < (codes t).length then List.replicate w 42 else codes t ++ List.replicate (w - (codes t).length) 32

/-- A number in a field `w` wide: right-aligned, blanks before it, or asterisks where it is too wide; a leading minus when
negative, its whole units without grouping, at least one digit of them, and a point before its last `decimals` digits
(R145). -/
def numberForm (w decimals : Nat) (v : Int) : List Nat :=
  let whole := v.natAbs / 10 ^ decimals
  let t := (if v < 0 then [45] else []) ++ (if whole = 0 then [48] else (Nat.digits 10 whole).reverse.map (48 + ·)) ++
    if decimals = 0 then []
    else 46 :: (List.range decimals).map fun i => 48 + v.natAbs / 10 ^ (decimals - 1 - i) % 10
  if w < t.length then List.replicate w 42 else List.replicate (w - t.length) 32 ++ t

/-- A drawer's fields are kept from a buffer of a station master that does not serve a position the drawer is bound to
(R145). -/
def KeptFromOwner (s : State) (o : Owner) (d : DrawerNo) : Prop :=
  ∃ m, o = .master m ∧ m ≠ officerMaster ∧ ∀ p, (s.store.drawers.get d).bound = some p → servingMaster s p ≠ m

/-- `t` is what R145 shows of a drawer's total in a buffer of this owner: the value of its current counts, or blanks where
the currency is undefined, the count is blind or the drawer is kept from the owner. -/
def TotalShows (s : State) (o : Owner) (w : Nat) (d : DrawerNo) (c : Currency) (t : List Nat) : Prop :=
  let e := s.store.drawers.get d
  let entry := s.store.currencies.get c
  let absent := entry.defined = false ∨ s.store.day.state = .closing ∧ e.state ≠ .closed ∨ KeptFromOwner s o d
  (absent → t = List.replicate w 32) ∧ (¬absent → t = numberForm w entry.decimals (valueOf s c e.current))

/-- `t` is what R145 shows of a drawer's state in a buffer of this owner. -/
def StateShows (s : State) (o : Owner) (w : Nat) (d : DrawerNo) (t : List Nat) : Prop :=
  let e := s.store.drawers.get d
  let name := match e.state with
    | .idle => "IDLE" | .opened => "OPEN" | .difference => "DIFFERENCE" | .closed => "CLOSED"
  (KeptFromOwner s o d → t = List.replicate w 32) ∧
    (¬KeptFromOwner s o d → t = textForm w (if e.excess = true then name ++ " EXCESS" else name))

/-- `t` is what a field `w` wide of this source shows in a buffer of this owner, by the table and the forms of R145 and, of
a drawer row, R140; the quote is the position's newest HELD one (R61), the job that of its newest-job note (R118). -/
def FieldShows (s : State) (o : Owner) (w : Nat) (x : Source) (t : List Nat) : Prop :=
  let blanks := List.replicate w 32
  match x with
  | .drawerTotal d c => TotalShows s o w d c t
  | .drawerState d => StateShows s o w d t
  | .rate f dir => t = match (s.store.board.rows.get f).rates with
      | some r => numberForm w 6 (match dir with | .buy => r.1 | .sell => r.2)
      | none => blanks
  | .quoteLeft p => ((∀ i, ¬HeldAt s p i) → t = blanks) ∧
      ∀ i q, s.exu.quotes.get i = some q → HeldAt s p i →
        (∀ j b, j ≠ i → s.exu.quotes.get j = some b → HeldAt s p j → b.made < q.made) → t = numberForm w 0 q.life
  | .jobState p => t = match s.pru.notes.get p with
      | some n => textForm w (match n.status with
        | .live .queued => "QUEUED" | .live .awaitingBook => "AWAITING_BOOK" | .live .reading => "READING"
        | .live .printing => "PRINTING" | .live .turnPage => "TURN_PAGE" | .live .writingStripe => "WRITING_STRIPE"
        | .live .ejecting => "EJECTING" | .ended .done => "DONE" | .ended (.partly _) => "PARTIAL"
        | .ended (.aborted _) => "ABORTED" | .ended (.cancelled _) => "CANCELLED")
      | none => blanks
  | .dayState => t = textForm w (if s.kept.isSome = true then "STORE_INVALID" else match s.store.day.state with
      | .noDay => "NO_DAY" | .opened => "OPEN" | .closing => "CLOSING" | .sealed => "SEALED" | .sending => "SENDING"
      | .delivered => "DELIVERED")
  | .clock => s.clock.seconds < 86400 →
      let two (n : Nat) := [48 + n / 10, 48 + n % 10]
      let text := two (s.clock.seconds / 3600) ++ [58] ++ two (s.clock.seconds / 60 % 60) ++ [58] ++
        two (s.clock.seconds % 60)
      t = if w < 8 then List.replicate w 42 else text ++ List.replicate (w - 8) 32
  | .rowTotal p c => match (s.store.positions.get p).drawer with
      | some d => TotalShows s o w d c t
      | none => t = blanks
  | .rowState p => match (s.store.positions.get p).drawer with
      | some d => StateShows s o w d t
      | none => t = blanks

/-- The field's cells hold the rendering of its source as the state has it, every attribute clear (R145). -/
def Showing (s : State) (o : Owner) (f : LiveField) (cells : RowCells) : Prop :=
  ∀ i, f.Holds i → cells.get i = plainCell (((fitted f.width (shown s o f.source))[i.val - f.column]?).getD 32)

/-- A report of the source, or the tick at which the clock's fields are rendered, waits at the Screen Unit (R144). -/
def AwaitsReport (s : State) (x : Source) : Prop :=
  (∃ l, .report l ∈ s.port.order ∧ Renewed s l x) ∨ x = .clock ∧ .tick .scu ∈ s.port.order

/-- The Screen Unit after a request that names a position has restarted its idle count, where the count
runs (R152). -/
def restartedScu (s : State) (p : Position) : Scu :=
  if (s.store.positions.get p).teller.isSome = true ∧ (s.scu.screens.get p).lockHeld = false ∧
      s.scu.idleTimeout ≠ 0 then
    { s.scu with screens := s.scu.screens.modify p fun x => { x with idle := some s.scu.idleTimeout } }
  else s.scu

/-! ### Requests without a position -/

/-- The request's rule requires a position (R182). -/
def needsPosition : Instr → Bool
  | .drawerSignon _ _ | .drawerSignoff _ _ | .cashPost _ _ | .cashReverse _ _ | .quoteRequest _ _ | .quoteRelease _ _
  | .passbookNewbook _ _ | .printStart _ _ | .printCancel _ _ | .mapSet _ _ | .screenActivity _ _
  | .screenUnlock _ _ | .positionBind _ _ => true
  | _ => false

/-! ### Journal -/

/-- The journal has one record more, of the fields given, which carries the next sequence, the time of day, the
disposition and its check, with its applied mark set; what stands above it from an earlier day stands on (R84, R86,
R96). -/
def Appended (r : Record) (d : Disposition) (s t : State) : Prop :=
  t.store.journal = s.store.journal.take s.store.day.used ++
    markedRecord d { r with sequence := s.store.day.used + 1, time := s.clock.seconds } ::
      s.store.journal.drop (s.store.day.used + 1)

/-- The record has been appended and applied: journal used has risen by one and nothing else of the day record
has changed, so no trace of the record is left in the open commit list (R84, R86). -/
def Committed (r : Record) (d : Disposition) (s t : State) : Prop :=
  Appended r d s t ∧ t.store.day = { s.store.day with used := s.store.day.used + 1 }

/-- Every record the day holds stands in the journal, and no open commit lies past them (R84, R87). -/
def JournalWhole (s : State) : Prop :=
  s.store.day.used ≤ s.store.journal.length ∧ ∀ q ∈ s.store.day.openCommits, q ≤ s.store.day.used

/-! ### The port -/

/-- A notice qualifies to be taken: it is pending, above every notice in service, and the highest pending
(R186). -/
def Qualifies (x : Window) (k : Fin 8) (n : Notice) : Prop :=
  x.waiting.get k = some n ∧ (∀ j, (x.service.get j).isSome → j < k) ∧
    ∀ j, (x.waiting.get j).isSome → j ≤ k

/-- A master is eligible for the request server (R180). -/
def Eligible (s : State) (m : Master) : Prop :=
  (s.port.windows.get m).requests ≠ [] ∧ s.port.inExecution.get m = none ∧
    (s.port.windows.get m).responses.length < 8

/-- How far a master stands from the one after the last served (R180). -/
def turnDistance (last m : Master) : Nat := (m.val + 4 - last.val) % 5

/-- The server serves this master next, with this burst used after it (R180). -/
def ServedNext (s : State) (m : Master) (burst : Nat) : Prop :=
  let last := s.port.lastServed
  (Eligible s last ∧ s.port.burstUsed < s.store.burst → m = last ∧ burst = s.port.burstUsed + 1) ∧
    (¬(Eligible s last ∧ s.port.burstUsed < s.store.burst) →
      Eligible s m ∧ burst = 1 ∧ ∀ k, Eligible s k → turnDistance last m ≤ turnDistance last k)

/-! ### Drawers -/

/-- The home counts differ. -/
def homeDiffers (a b : Counts) : Bool := (0 : Currency) ∈ changedCurrencies a b

/-- The excess mark of a drawer whose current counts become `c`: evaluated anew for a teller drawer whose home
counts change, and otherwise as it was (R8). -/
def markAfter (s : State) (n : DrawerNo) (c : Counts) : Bool :=
  let d := s.store.drawers.get n
  if n ≠ vault ∧ homeDiffers d.current c = true then newExcess d (valueOf s 0 c) else d.excess

/-- DRAWER_ALERT: to the officer, and to the serving master of the bound position without a total where the
blind count keeps it (R7, R8, R15). -/
def alertNotices (s : State) (n : DrawerNo) (e : AlertEvent) (total : Nat) : List (Master × Detail) :=
  (officerMaster, .drawerAlert n e (some total)) ::
    ((s.store.drawers.get n).bound.toList.map fun p =>
      (servingMaster s p, .drawerAlert n e (if blind s n then none else some total)))

/-- The alert of a change of the excess mark (R8). -/
def markNotices (s : State) (n : DrawerNo) (after : Bool) (total : Nat) : List (Master × Detail) :=
  if after = (s.store.drawers.get n).excess then []
  else alertNotices s n (if after then .excessSet else .excessCleared) total

/-- The alerts of a change of a drawer's current counts to `c`: the soft limit, unless the same change sets the
mark, then the mark (R7, R8). -/
def cashNotices (s : State) (n : DrawerNo) (c : Counts) : List (Master × Detail) :=
  let d := s.store.drawers.get n
  if n ≠ vault ∧ homeDiffers d.current c = true then
    (if softCrossed d (homeTotal s d) (valueOf s 0 c) = true ∧ ¬(markAfter s n c = true ∧ d.excess = false) then
      alertNotices s n .softCrossed (valueOf s 0 c) else []) ++
      markNotices s n (markAfter s n c) (valueOf s 0 c)
  else []

/-- A drawer record after the cash change of R4, with the amount it adds to the rounding tally (R6). -/
def afterCash (s : State) (n : DrawerNo) (deltas : Deltas) (sequence : Nat) (tally : Int) : Drawer :=
  let d := s.store.drawers.get n
  let current := applyDeltas d.current deltas
  { d with
    current := current
    receipts := addMoney d.receipts fun c => inflow s c deltas
    payments := addMoney d.payments fun c => outflow s c deltas
    tally := d.tally + tally
    excess := markAfter s n current
    lastApplied := sequence }

/-- One drawer's record has become `d` and the others are the same. -/
def OneDrawer (n : DrawerNo) (d : Drawer) (s t : State) : Prop := t.store.drawers = s.store.drawers.set n d

/-! ### Tables whose slots are taken in order -/

/-- The slot a new entry takes: the lowest empty one, or with none empty the lowest that holds an ended entry
(R55, R64). -/
def TakenSlot {α : Type} {n : Nat} (u : Fin n → Option α) (ended : α → Prop) (i : Fin n) : Prop :=
  (u i = none ∧ ∀ j < i, u j ≠ none) ∨
    ((∀ j, u j ≠ none) ∧ (∃ a, u i = some a ∧ ended a) ∧ ∀ j < i, ∀ a, u j = some a → ¬ended a)

/-- The first entry of a table that satisfies `p` stands in slot `i`. -/
def FirstWith {α : Type} {n : Nat} (u : Table (Option α) n) (p : α → Prop) (i : Fin n) (a : α) : Prop :=
  u.get i = some a ∧ p a ∧ ∀ j < i, ∀ b, u.get j = some b → ¬p b

/-- The first number that nothing holds, from the next one on; the number after `top` is 1 (R55, R64, R116). -/
def FirstFreeNumber (held : Nat → Prop) (top next number : Nat) : Prop :=
  ∃ k, number = (numberAfter top)^[k] next ∧ ¬held number ∧ ∀ j < k, held ((numberAfter top)^[j] next)

/-! ### Quotes -/

/-- `old` is what a new quote of the position supersedes: nothing where the position holds fewer than two HELD
quotes, and of two the one made first (R55). -/
def Supersedes (s : State) (p : Position) : Option (Fin 16 × Quote) → Prop
  | none => ∀ i j, HeldAt s p i → HeldAt s p j → i = j
  | some (i, a) => s.exu.quotes.get i = some a ∧ HeldAt s p i ∧ ∃ j b, s.exu.quotes.get j = some b ∧ HeldAt s p j ∧
      a.made < b.made ∧ ∀ k, HeldAt s p k → k = i ∨ k = j

/-- The quotes after the superseding. -/
def afterSuperseding (s : State) (old : Option (Fin 16 × Quote)) (i : Fin 16) : Option Quote :=
  match old with
  | some (j, a) => if i = j then some { a with state := .expired .superseded } else s.exu.quotes.get i
  | none => s.exu.quotes.get i

/-- A quote after one second tick: a HELD one loses a second of life and at 0 is EXPIRED (R57). -/
def quoteSecond (q : Quote) : Quote :=
  if q.state = .held then
    if q.life ≤ 1 then { q with state := .expired .time, life := 0 } else { q with life := q.life - 1 }
  else q

/-! ### Transfers -/

/-- The OFFERED transfers to a drawer, in ascending number (R73). -/
def OffersTo (s : State) (d : DrawerNo) (l : List Transfer) : Prop :=
  l.Pairwise (fun a b => a.number ≤ b.number) ∧
    l.Perm ((s.store.transfers.list.filterMap id).filter fun a => isOffered a && a.toDrawer == d)

/-- A tender list of 1 to 12 entries, each naming a denomination of a defined currency with a count of 1 to 65,535
(R65, R68, R76). -/
def TenderOk (s : State) (l : List CashEntry) : Prop :=
  1 ≤ l.length ∧ l.length ≤ 12 ∧
    ∀ e ∈ l, namesDenom s e.currency e.index = true ∧ 1 ≤ e.count ∧ e.count ≤ 65535

/-- A tender's counts as a record's entries, signed by `sign`, in ascending currency and index (R32, R74). -/
def signedEntries (sign : Int) (k : Counts) : List (Denom × Int) :=
  (denoms.filter fun x => k.get x != 0).map fun x => (x, sign * k.get x)

/-- The request comes from master 4, or from the serving master of the position the drawer is bound to (R16, R68). -/
def MayActForDrawer (h : ReqHead) (s : State) (n : DrawerNo) : Prop :=
  h.spare = false ∧ (h.officer = true → h.master = officerMaster) ∧
    (h.master = officerMaster ∨ ∃ p, (s.store.drawers.get n).bound = some p ∧ servingMaster s p = h.master)

/-- DIFFERENCE or CLOSED (R5). -/
def Settled (s : State) (n : DrawerNo) : Prop :=
  (s.store.drawers.get n).state = .difference ∨ (s.store.drawers.get n).state = .closed

/-- The transfer in slot `j` has been returned to its from-drawer: its slot, the drawer, the end hold and the
TRANSFER_RETURN record, made from position `p` with the narrative given (R5, R66, R70, R74). -/
def CashReturned (s t : State) (j : Fin 8) (a ended : Transfer) (p : Option Position) (narrative : Nat) : Prop :=
  let n := a.fromDrawer
  let d := s.store.drawers.get n
  let current := addCounts d.current a.tender
  t.store.transfers = s.store.transfers.set j (some ended) ∧
    OneDrawer n { d with
      current := current
      reserved := subCounts d.reserved a.tender
      transfersOut := subMoney d.transfersOut fun c => valueOf s c a.tender
      excess := markAfter s n current
      lastApplied := s.store.day.used + 1 } s t ∧
    t.jsu = { s.jsu with holds := s.jsu.holds - 1 } ∧
    Committed { emptyRecord .transferReturn with
      position := p
      teller := p.bind fun p => (s.store.positions.get p).teller
      drawer := some n
      second := some a.toDrawer
      homeAmount := some (valueOf s 0 a.tender)
      tender := signedEntries 1 a.tender
      narrative := some narrative
      reverses := some a.offerSeq } .none s t

/-- The notices of a return, oldest first: "journal high", the alerts of the from-drawer, and the event, which goes
to the master the from-drawer is bound under now (R70, R71, R73). -/
def returnNotices (s : State) (a : Transfer) (e : TransferEvent) : List (Master × Detail) :=
  highNotice s ++ cashNotices s a.fromDrawer (addCounts (s.store.drawers.get a.fromDrawer).current a.tender) ++
    [(drawerMaster s a.fromDrawer, .transfer e a.number a.fromDrawer a.toDrawer)]

/-! ### Postings -/

/-- What each currency's value in minus out must be, by the posting's kind; none where no entry may name the
currency (R26). -/
def requiredNet (k : PostKind) (amount : Int) (v : Conversion) (c : Currency) : Option Int :=
  match k with
  | .deposit => if c = 0 then some amount else none
  | .withdrawal => if c = 0 then some (-amount) else none
  | .change => some 0
  | .exchangeBuy =>
    if c = 0 then some (-(v.cash : Int)) else if c = currencyOf v.currency then some v.amount else none
  | .exchangeSell =>
    if c = 0 then some v.cash else if c = currencyOf v.currency then some (-(v.amount : Int)) else none

/-- The fields of a posting are present and absent as its kind asks, and in their ranges (R23): the account and
amount of a deposit or withdrawal, the quote number of an exchange. -/
def PostFields (k : PostKind) (r : PostReq) (account amount number : Nat) : Prop :=
  match k with
  | .deposit | .withdrawal => r.account = .value account ∧ account < 1000000000000 ∧ r.amount = .value amount ∧
      1 ≤ amount ∧ amount ≤ 99999999999 ∧ r.quote = .absent ∧
      (r.balance = .absent ∨ ∃ b : Int, r.balance = .value b ∧ b.natAbs ≤ 99999999999)
  | .exchangeBuy | .exchangeSell =>
      (r.account = .absent ∨ r.account = .value account ∧ account < 1000000000000) ∧ r.amount = .absent ∧
      r.quote = .value number ∧ 1 ≤ number ∧ number ≤ 65535 ∧ r.balance = .absent
  | .change => r.account = .absent ∧ r.amount = .absent ∧ r.quote = .absent ∧ r.balance = .absent

/-- The counts a change leaves lie between the reserved counts and 65,535 minus them (R4). -/
def FitsDrawer (d : Drawer) (deltas : Deltas) : Prop :=
  ∀ x, deltas.get x ≠ 0 → (d.reserved.get x : Int) ≤ d.current.get x + deltas.get x ∧
    (d.current.get x : Int) + deltas.get x + d.reserved.get x ≤ 65535

/-- The Passbook Line Unit's answer to a posting: a deposit or withdrawal is handed to it, another kind is not
(R34). -/
def lineOf (k : PostKind) (r : Record) (s : State) : State × Disposition :=
  if k = .deposit ∨ k = .withdrawal then intakeLine r s else (s, .none)

/-- "Passbook table full", where the hand-over found no entry (R101, R104). -/
def fullNotice (s : State) (r : Record) (found : Disposition) : List (Master × Detail) :=
  if found = .notHeld ∧ alreadyTaken s (recordKey s r.sequence) = false then
    [(officerMaster, .passbookFull (r.account.getD 0))]
  else []

/-- The first key is lower: its date comes first, then its sequence (R99). -/
abbrev KeyBefore (a b : Key) : Prop := a.date < b.date ∨ a.date = b.date ∧ a.sequence < b.sequence

/-- The lower of two keys. -/
def lowerKey (a b : Key) : Key := if KeyBefore b a then b else a

/-- The higher of two keys. -/
def higherKey (a b : Key) : Key := if KeyBefore a b then b else a

/-- A command whose operation at the Transfer Unit waits for the acceptance in progress there (R67, R72). -/
def asksTransfers : Instr → Bool
  | .transferOffer _ _ | .transferAccept _ _ | .transferDecline _ _ | .daySeal _ | .dayClear _ | .storeFormat _
  | .transferTimeout _ => true
  | _ => false

/-- No operation asked stands at the unit, and at the Transfer Unit no acceptance is in progress (R29, R67). -/
abbrev UnitFree (s : State) (u : UnitName) : Prop := NoneStandsAt s u ∧ (u = .tru → s.delivery = none)

/-- An operation at these units is taken at once: in a part that is up each of them is free (R29, R48, R67, R100, R119,
R144, R159). -/
abbrev TakenAt (s : State) (units : List UnitName) : Prop := s.power = .up → ∀ u ∈ units, UnitFree s u

/-- A slot of the transfer table after a second tick: an OFFERED transfer loses a second, and at 0 is RETURNED (R71). -/
def SlotTicked (s : State) (before after : Option Transfer) : Prop :=
  match before with
  | none => after = none
  | some a =>
    if a.state ≠ .offered then after = some a
    else if a.remaining ≤ 1 then ∃ q, s.store.day.used < q ∧
      after = some { a with state := .returned, remaining := 0, endSeq := some q }
    else after = some { a with remaining := a.remaining - 1 }

/-- The second tick is taken by a unit at once: the unit is free; where a transfer ends at the tick, whose return is a
drawer operation, the Drawer Unit too; and where a block of the carry-over section is sent again, which is read from the
Passbook Line Unit, that unit too (R29, R67, R71, R100). -/
def TickTaken (s : State) (u : UnitName) : Prop :=
  UnitFree s u ∧
    (u = .tru → (∃ i a, s.store.transfers.get i = some a ∧ a.state = .offered ∧ a.remaining ≤ 1) → UnitFree s .dru) ∧
    (u = .dlu → readsCarry s (tickDlu s) = true → UnitFree s .plu)

/-! ### Records whose check fails -/

/-- The FAULT notices of the records read, oldest first (R83). -/
def checkNotices (l : List Record) : List (Master × Detail) :=
  (l.filter fun r => !r.checkOk).map fun r => (officerMaster, .fault .storeCheck .jsu [.num r.sequence])

/-- The fault record after the records listed have been read and their checks verified (R83, R187). -/
def faultAfterChecks (s : State) (l : List Record) : FaultRecord :=
  let f := s.port.fault
  let bad := l.filter fun r => !r.checkOk
  match bad, f.held with
  | [], _ => f
  | _, true => { f with lost := min 15 (f.lost + bad.length) }
  | r :: rest, false => ⟨true, .storeCheck, .jsu, [.num r.sequence], s.clock.day, s.clock.seconds,
      if rest = [] then f.lost else min 15 (f.lost + rest.length)⟩

/-! ### Restore -/

/-- The state as the restore of a valid store finds it: that store in use, and the clock, which starts from day 0 where
its flag is clear (R90, R188). -/
def restoreFrom (s : State) (x : Store) : State :=
  { s with
    power := .up
    store := x
    kept := none
    clock := if s.clock.valid then s.clock else ⟨0, 0, false⟩ }

/-- CLOCK_LOST told to master 4, where the clock's flag is found clear (R188). -/
def lostNotice (s : State) : List (Master × Detail) :=
  if s.clock.valid then [] else [(officerMaster, .fault .clockLost .bpp [.num 0])]

/-- The fault record after a power-up from `s` whose restore captured the Journal and Store Unit's fault given, if any:
a CLOCK_LOST captured before it stands, and the later fault is counted (R187, R188). -/
def FaultFound (s t : State) (capture : Option (FaultKind × Nat)) : Prop :=
  let f := t.port.fault
  if s.clock.valid = true then
    f.held = capture.isSome ∧ f.lost = 0 ∧
      ∀ e, capture = some e → f.kind = e.1 ∧ f.source = .jsu ∧ f.detail = [.num e.2]
  else
    f.held = true ∧ f.kind = .clockLost ∧ f.source = .bpp ∧ f.detail = [.num 0] ∧
      f.lost = if capture.isSome then 1 else 0

/-- The row pool and the screens as power-up leaves them, with a lock where `locked` says that a teller is signed on:
the part rows rendered over their labels, every other buffer free (R157). -/
def ScreensPowered (locked : Position → Bool) (u : Scu) : Prop :=
  (∀ p, u.screens.get p = powerUpScreen (locked p)) ∧
    (∀ b, RenderedBuffer (if b.val < 27 then partBuffer b else freeBuffer) (u.buffers.get b)) ∧
    u.idleTimeout = 300 ∧ u.lockText = defaultLockText

/-- What the drawer, exchange, transfer, printer and line units hold outside the branch store has its power-up value: no
counted counts, no deliver, no quotes with the made-order count 0, no jobs with blank notes, the next job id 1 and the
seal-answered flag clear, the sender IDLE and line ready dropped (R16, R62, R69, R90, R116, R118, R136, R137, R176).
Frames sent and lines printed stand on record. -/
structure UnitsPowered (s t : State) : Prop where
  delivery : t.delivery = none
  counted : ∀ n, t.counted.get n = none
  quotes : ∀ i, t.exu.quotes.get i = none
  made : t.exu.made = 0
  jobs : ∀ i, t.pru.jobs.get i = none
  notes : ∀ p, t.pru.notes.get p = none
  nextJob : t.pru.nextJob = 1
  sealAnswered : t.pru.sealAnswered = false
  sender : t.sender = idleSender
  out : t.out = { s.out with lineReady := false }

/-- Each engine is IDLE without current job and queue, its book position 0 (log entry 54), and a book that `ejects` tells
of is cleared by a clearing eject; the sensor and the feed are as they were (R115, R119, R137). -/
def EnginesPowered (s t : State) (ejects : Engine → Bool) : Prop :=
  ∀ p, let e := s.pru.engines.get p
    t.pru.engines.get p = { e with
      state := .idle, current := none, queue := [], bookPosition := 0,
      motion := if ejects e = true then .eject .clearing else .still }

/-- The port at power-up: no request queued or in execution, nothing asked, no response waiting, the areas, latched words
and dropped-post counts zero, nothing in service, and the last served master 4 (R190). -/
structure PortPowered (t : State) : Prop where
  lastServed : t.port.lastServed = 4
  burstUsed : t.port.burstUsed = 0
  inExecution : ∀ m, t.port.inExecution.get m = none
  order : t.port.order = []
  windows : ∀ m, { t.port.windows.get m with waiting := Table.fill 8 none } = emptyWindow

/-- A power-up with the store `x` leaves every volatile item of every unit at its power-up value, a book found in a feed to
a clearing eject, reserved counts that follow from the OFFERED transfers, and those at their full timeouts with their end
holds (R62, R75, R92, R115, R116, R118, R119, R136, R137, R157, R176, R190). -/
def Restored (s t : State) (x : Store) : Prop :=
  t.power = .up ∧ t.kept = none ∧ t.clock = (restoreFrom s x).clock ∧ t.pending = s.pending ∧
    (∀ n d, (t.store.drawers.get n).reserved.get d = ((List.finRange 8).map fun i =>
      match x.transfers.get i with
      | some a => if a.state = .offered ∧ a.fromDrawer = n then a.tender.get d else 0
      | none => 0).sum) ∧
    (∀ i, t.store.transfers.get i = (x.transfers.get i).map fun a =>
      if a.state = .offered then { a with remaining := a.timeout } else a) ∧
    t.jsu.holds = (x.transfers.list.filter fun e => e.any isOffered).length ∧
    UnitsPowered s t ∧ EnginesPowered s t Engine.inFeed ∧
    ScreensPowered (fun p => (x.positions.get p).teller.isSome) t.scu ∧ PortPowered t

/-- The record at a sequence of the open commit list can be replayed: it stands with its check good, and so does the
original of a REVERSAL of a deposit or withdrawal, which is read for the handover (R42, R83, R91). -/
def Replayable (s : State) (c : Nat) : Prop :=
  ∃ r, recordAt s c = some r ∧ r.checkOk = true ∧
    (r.kind = .reversal → r.postKind = some .deposit ∨ r.postKind = some .withdrawal → ∀ q o, r.reverses = some q → recordAt s q = some o → o.checkOk = true)

/-- The replay of sequence `c` finds that the record at `q`, its own or that of a REVERSAL's original, fails its check
(R83, R91). -/
def FailsAt (s : State) (c q : Nat) : Prop :=
  (q = c ∧ ∀ r, recordAt s c = some r → r.checkOk = false) ∨
    ∃ r o, recordAt s c = some r ∧ r.checkOk = true ∧ r.kind = .reversal ∧
      (r.postKind = some .deposit ∨ r.postKind = some .withdrawal) ∧ r.reverses = some q ∧
      recordAt s q = some o ∧ o.checkOk = false

/-- A drawer record after the part that the replay of a record makes at it under its last applied sequence, the
reserved counts apart, which R92 sets (R5, R11, R16, R33, R75, R91). -/
def replayedDrawer (s : State) (r : Record) (n : DrawerNo) : Drawer :=
  let d := s.store.drawers.get n
  let k := recordCounts r
  let up := addCounts d.current k
  let down := subCounts d.current k
  let due (party : Option DrawerNo) : Bool := party == some n && decide (d.lastApplied < r.sequence)
  match r.kind with
  | .posting | .reversal | .vaultIn | .vaultOut | .difference =>
    if due r.drawer then afterCash s n (entryDeltas r.tender) r.sequence (remainderOf r) else d
  | .transferOut =>
    if due r.drawer then { d with
      current := down
      transfersOut := addMoney d.transfersOut fun c => valueOf s c k
      excess := markAfter s n down
      lastApplied := r.sequence }
    else d
  | .transferIn =>
    if due r.drawer then { d with
      current := up
      transfersIn := addMoney d.transfersIn fun c => valueOf s c k
      excess := markAfter s n up
      lastApplied := r.sequence }
    else if due r.second then { d with lastApplied := r.sequence }
    else d
  | .transferReturn =>
    if due r.drawer then { d with
      current := up
      transfersOut := subMoney d.transfersOut fun c => valueOf s c k
      excess := markAfter s n up
      lastApplied := r.sequence }
    else d
  | .drawerClose => if due r.drawer then { d with state := .closed, lastApplied := r.sequence } else d
  | .dayOpen => if d.lastApplied < 1 then openDrawer s d else d
  | .rateChange | .dayCloseBegin | .dayReopen | .daySeal => d

/-- The rate board after the replay of a record (R47, R91). -/
def replayedBoard (s : State) (r : Record) : Board :=
  match r.kind, r.exchange with
  | .rateChange, some (.board f e life generation) =>
    if s.store.board.lastApplied < r.sequence then writeBoard f e life generation r.sequence s.store.board
    else s.store.board
  | _, _ => s.store.board

/-- What the Passbook Line Unit makes of the replay of a record, with the disposition it gives: the line of a POSTING or
the handover of a REVERSAL that it has not acted on (R34, R42, R91, R114). -/
def replayedLines (s : State) (r : Record) : State × Disposition :=
  match r.kind with
  | .posting | .reversal => replayLine r s
  | _ => (s, .none)

/-- A drawer as the restore leaves it, from what the replay left: R92 gives the reserved counts, and a teller drawer's
mark is computed anew (R21). -/
def restoredDrawer (s : State) (n : DrawerNo) (reserved : Counts) (d : Drawer) : Drawer :=
  { d with
    reserved := reserved
    excess := if n = vault then d.excess else newExcess d (homeTotal s d) }

/-! ### Print jobs -/

/-- The request's answer joins its master's queue, and nothing else changes from `v` on (R181). -/
def AnsweredFrom (h : ReqHead) (kind : Nat) (code : Code) (masked : Bool) (fields : List (Option (List Item)))
    (v t : State) : Prop :=
  t = { v with port := { v.port with
    windows := withResponse h kind code masked fields v.port.windows
    inExecution := v.port.inExecution.set h.master none
    order := v.port.order.erase (.request h.master) } }

/-- The newest-job notes with the status of this job, where its position's note is this job's (R118). -/
def notedAs (s : State) (j : Job) (status : NoteStatus) : Table (Option JobNote) 12 :=
  if (s.pru.notes.get j.position).map JobNote.id = some j.id then
    s.pru.notes.set j.position (some ⟨j.id, status⟩)
  else s.pru.notes

/-- The Printer Unit with one engine, one job slot and the notes as given. -/
def withJob (s : State) (p : PrinterNo) (e : Engine) (i : Fin 16) (j : Option Job)
    (notes : Table (Option JobNote) 12) : Pru :=
  { s.pru with engines := s.pru.engines.set p e, jobs := s.pru.jobs.set i j, notes := notes }

/-- The account of a job that has ended: a snapshot with items unprinted released, the job reference clear and the
time noted (R106, R109, R117). -/
def accountsAfterJob (s : State) (j : Job) : Table (Option Account) 64 :=
  match accountSlot s j.account with
  | some (k, a) => s.store.accounts.set k (some { (if j.snapshot.getD [] = [] then a else releaseEntry a) with
      jobRef := false
      activeDay := s.clock.day
      activeSecond := s.clock.seconds })
  | none => s.store.accounts

/-- Steps 1 to 5 of R117, with the engine left as `e`: the account, the slot, the note and PRINT_DONE. -/
def JobEnded (s t : State) (i : Fin 16) (j : Job) (o : JobEnd) (e : Engine) : Prop :=
  UnchangedBut [.accounts, .pru, .buffers, .screens, .windows, .inExecution] s t ∧ Rendered s.scu t.scu ∧
    t.store.accounts = accountsAfterJob s j ∧
    t.pru = withJob s j.printer e i none (notedAs s j (.ended o)) ∧
    t.port.windows = notify [(servingMaster s j.position, .printDone j.id j.printer o)] s.port.windows

/-- The engine of a job that ended while current, its printer idle again (R117 step 6). -/
def freedEngine (e : Engine) (j : Job) : Engine :=
  { e with state := .idle, current := none, queue := e.queue.filter (· != j.id) }

/-- The job in slot `i` is the current one of its printer, which is BUSY. -/
structure CurrentJob (s : State) (p : PrinterNo) (i : Fin 16) (j : Job) : Prop where
  slot : FirstWith s.pru.jobs (fun x => x.id = j.id) i j
  printer : j.printer = p
  current : (s.pru.engines.get p).current = some j.id
  busy : (s.pru.engines.get p).state = .busy

/-- PRINT_ATTENTION for a job (R118). -/
def attention (s : State) (j : Job) (c : PrintCondition) (attempts : Nat) : List (Master × Detail) :=
  [(servingMaster s j.position, .printAttention c j.id j.printer attempts)]

/-- One engine, one job and its note have changed, with the notices listed; the job goes on. -/
def JobMoved (s t : State) (p : PrinterNo) (e : Engine) (i : Fin 16) (j : Job)
    (notices : List (Master × Detail)) : Prop :=
  Rendered s.scu t.scu ∧ t.pru = withJob s p e i (some j) (notedAs s j (.live j.state)) ∧
    t.port.windows = notify notices s.port.windows

/-- What follows when a job stands with its items at a page and line, its accounts as given, by the cases that R124, R127
and R128 share: nothing left, book full, page full, the next line; a line beyond the travel is a misfeed whose stripe is
written before the job re-prompts, and a second one ends the job ABORTED (MISFEED) and clears the book (R117, R125,
R126). -/
def GoesOn (s t : State) (p : PrinterNo) (i : Fin 16) (j : Job) (items : List PrintItem) (page line : Nat)
    (accounts : Table (Option Account) 64) : Prop :=
  let e := s.pru.engines.get p
  let j := { j with snapshot := some items, next := some (page, line) }
  let pace := (s.store.pacing.get p).staged
  let position := j.edge.getD 0 + pace.margin + (line - 1) * pace.pitch
  let paced := s.store.pacing.set p ⟨pace, pace⟩
  let notes := if j.state = .printing then s.pru.notes else notedAs s j (.live .printing)
  let printing := { j with state := .printing }
  if items = [] then
    JobMoved s t p { e with motion := .write .finish false } i
        { j with state := .writingStripe, outcome := some .done } [] ∧
      t.store.pacing = s.store.pacing ∧ t.store.accounts = accounts
  else if line < 21 then
    t.store.pacing = paced ∧ Rendered s.scu t.scu ∧
      if position ≤ 1500 then
        t.pru = withJob s p { e with motion := .line, bookPosition := position } i (some printing) notes ∧
          t.port.windows = s.port.windows ∧ t.store.accounts = accounts
      else if j.attempts = 0 then
        t.pru = withJob s p { e with motion := .write .retry false } i (some { printing with attempts := 1 }) notes ∧
          t.port.windows = s.port.windows ∧ t.store.accounts = accounts
      else ∃ v u, UnchangedBut [.accounts, .pru, .pacing, .buffers, .screens, .inExecution] s v ∧
        v.store.accounts = accounts ∧ v.pru = withJob s p e i (some printing) notes ∧
        JobEnded v u i { printing with attempts := 2 } (.aborted .misfeed) (freedEngine { e with motion := .still } j) ∧
        t = clearBook p (startNext p u)
  else if page < 12 then
    JobMoved s t p { e with motion := .write .turn false } i
        { j with state := .turnPage, next := some (page + 1, 1) } [] ∧
      t.store.pacing = s.store.pacing ∧ t.store.accounts = accounts
  else
    JobMoved s t p { e with motion := .write .finish false } i
        { j with state := .writingStripe, outcome := some (.partly .bookFull) }
        (attention s j .bookFull j.attempts) ∧
      t.store.pacing = s.store.pacing ∧ t.store.accounts = accounts

/-- The jobs of the slots listed have ended CANCELLED (DAY_SEAL) in turn, each by R117 as it then stands: where its printer
is BUSY with it, the printer becomes IDLE and starts its queue (R117, R136). -/
def CancelledInTurn (s t : State) : List (Fin 16) → Prop
  | [] => t = s
  | i :: rest =>
    match s.pru.jobs.get i with
    | none => CancelledInTurn s t rest
    | some j =>
      let e := s.pru.engines.get j.printer
      if e.current = some j.id ∧ e.state = .busy then
        ∃ u, JobEnded s u i j (.cancelled .daySeal) (freedEngine e j) ∧
          CancelledInTurn (startNext j.printer u) t rest
      else ∃ u, JobEnded s u i j (.cancelled .daySeal) { e with queue := e.queue.filter (· != j.id) } ∧
        CancelledInTurn u t rest

/-- The effect of a wrong book or of a misfeed without an edge: the first re-prompts, the second ends the job and clears
the book; `e` is the engine as the event leaves it (R125). -/
def BadBookTaken (s t : State) (p : PrinterNo) (i : Fin 16) (j : Job) (e : Engine) (c : PrintCondition)
    (reason : AbortReason) : Prop :=
  if j.attempts = 0 then
    let state := if j.state = .reading ∨ j.state = .printing then .awaitingBook else j.state
    let after : Job := { j with attempts := 1, state := state }
    UnchangedBut [.pru, .buffers, .screens, .windows, .inExecution] s t ∧ Rendered s.scu t.scu ∧
      t.pru = withJob s p { e with motion := .eject .retry } i (some after)
        (if state = j.state then s.pru.notes else notedAs s j (.live state)) ∧
      t.port.windows = notify (attention s j c 1) s.port.windows
  else
    ∃ u, JobEnded s u i j (.aborted reason) (freedEngine { e with motion := .still } j) ∧
      t = clearBook p (startNext p u)

/-! ### Screens -/

/-- Buffer `b` now holds `r`; every row of a LIVE or DARK screen whose map names it, or names another buffer whose changed
flag was set, is dirty, and the changed flags are clear (R148). -/
def BufferPut (u v : Scu) (b : BufferNo) (r : RowBuffer) : Prop :=
  (∀ k, v.buffers.get k = { (if k = b then r else u.buffers.get k) with changed := false }) ∧
    (∀ p, let x := u.screens.get p
      let y := v.screens.get p
      { y with dirty := x.dirty } = x ∧ ∀ n, y.dirty.get n = true ↔ x.dirty.get n = true ∨
        x.silent = false ∧ x.lockHeld = false ∧
          ∃ k, x.map.get n = some k ∧ (k = b ∨ (u.buffers.get k).changed = true)) ∧
    v.idleTimeout = u.idleTimeout ∧ v.lockText = u.lockText

/-- The number a screen's state has in a response: OFFLINE 4, LOCKED 3, LIVE 2, DARK 1, by the first case of R146 that
applies. -/
def shownState (x : Screen) : Nat :=
  if x.silent = true then 4
  else if x.lockHeld = true then 3
  else if ∃ n, (x.map.get n).isSome = true then 2
  else 1

/-- A character code as the Screen Unit stores it (R139). -/
def keptCode (n : Nat) : Nat := if 32 ≤ n ∧ n ≤ 126 then n else 63

/-- One screen has become `x`, and nothing else of the Screen Unit has changed. -/
def OneScreen (p : Position) (x : Screen) (u v : Scu) : Prop := v = { u with screens := u.screens.set p x }

/-- The notices listed have been raised where the part is up, and nothing else has changed in any window (R190). -/
def Raised (l : List (Master × Detail)) (s t : State) : Prop :=
  t.port.windows = if s.power = .up then notify l s.port.windows else s.port.windows

/-- The cells sent for row `n`: the lock form on a LOCKED screen, and otherwise those of the buffer the map names, or
blanks (R149). -/
def sentCells (u : Scu) (x : Screen) (n : Row) : RowCells :=
  if x.silent = false ∧ x.lockHeld = true then
    if n = 12 then putText 0 u.lockText blankRow else blankRow
  else match x.map.get n with
    | some b => (u.buffers.get b).cells
    | none => blankRow

/-- One send of row `n` with its try: the flag clear, the next send number, the row in flight and its frame on the
display line (R149, R150). -/
def RowSent (s t : State) (p : Position) (n : Row) (tries : Nat) : Prop :=
  let x := s.scu.screens.get p
  let y := { x with dirty := x.dirty.set n false, sendNo := x.sendNo + 1, inFlight := some n, tries := tries }
  let sent := s.out.displays.get p ++ [rowFrame (x.sendNo + 1) n (sentCells s.scu x n)]
  OneScreen p y s.scu t.scu ∧ t.out = { s.out with displays := s.out.displays.set p sent } ∧
    UnchangedBut [.screens, .lines, .out] s t

/-! ### Record images and the day-end file -/

/-- The optional fields of a record's image in the order of its presence mask, each as its bytes (R192). -/
def imageFields (r : Record) : List (Option (List Byte)) :=
  let exchange : ExchangePart → List Byte
    | .conversion v quote => bytesOf 1 (v.currency.val + 1) ++ bytesOf 4 v.amount ++ bytesOf 4 v.rate ++
        bytesOf 6 v.gross ++ bytesOf 6 v.fee ++ bytesOf 6 v.net ++ bytesOf 6 v.cash ++ bytesOf 3 v.remainder ++
        bytesOf 2 quote
    | .board f e lifetime generation =>
        let rates := e.rates.getD (0, 0)
        bytesOf 1 (f.val + 1) ++ bytesOf 4 rates.1 ++ bytesOf 4 rates.2 ++
          ([e.buyFee, e.sellFee].flatMap fun x =>
            bytesOf 1 x.perMille ++ bytesOf 6 x.minimum ++ bytesOf 6 x.maximum) ++
          bytesOf 2 lifetime ++ bytesOf 2 generation
  [r.position.map fun p => bytesOf 1 p.val, r.teller.map (bytesOf 2), r.drawer.map fun d => bytesOf 1 d.val,
    r.second.map fun d => bytesOf 1 d.val, r.account.map (packedDigits 6),
    r.postKind.map fun k => bytesOf 1 (postKindPlace k), r.homeAmount.map amountBytes, r.exchange.map exchange,
    r.narrative.map (bytesOf 1), r.balance.map amountBytes, r.reverses.map (bytesOf 2)]

/-- A record image by the table of the Formats chapter: the fixed fields, the presence mask with bit i set for optional
field i, those present, the tender entries, the record check as it stands in the record and the applied mark (R192;
absent rates as zeros are log entry 8). -/
def laidOut (r : Record) : List Byte :=
  let fields := imageFields r
  let mask := ((List.range 11).map fun i => if (fields[i]?.getD none).isSome = true then 2 ^ i else 0).sum
  bytesOf 2 r.sequence ++ bytesOf 3 r.time ++ bytesOf 1 r.kind.place ++ bytesOf 2 mask ++
    bytesOf 1 (match r.disposition with | .none => 0 | .held => 1 | .notHeld => 2) ++ bytesOf 1 r.tender.length ++
    (fields.flatMap fun f => f.getD []) ++
    (r.tender.flatMap fun e => bytesOf 1 (64 * (e.1.val / 12) + e.1.val % 12) ++ countBytes e.2) ++
    bytesOf 2 r.check.toNat ++ bytesOf 1 (if r.applied = true then 1 else 0)

/-- A record is kept from a station master while the day is CLOSING and its drawer or second drawer is not CLOSED
(R94). -/
def KeptBack (h : ReqHead) (s : State) (r : Record) : Prop :=
  h.master ≠ officerMaster ∧ s.store.day.state = .closing ∧
    ∃ d, (r.drawer = some d ∨ r.second = some d) ∧ (s.store.drawers.get d).state ≠ .closed

/-- The words of one record of JOURNAL.READ: its length in bytes, with bit 15 where its check fails and bit 14 where it
is withheld, then its image, two bytes to a word; a withheld record stands without its home amount and its tender
entries, under the check it has (R94, R192). -/
def RecordTold (h : ReqHead) (s : State) (r : Record) (words : List Word) : Prop :=
  let told (image : List Byte) (kept : Nat) : List Word :=
    BitVec.ofNat 16 (image.length + (if r.checkOk = true then 0 else 32768) + kept) :: wordsOfBytes image
  (KeptBack h s r → words = told (laidOut { r with homeAmount := none, tender := [] }) 16384) ∧
    (¬KeptBack h s r → words = told (laidOut r) 0)

/-- A BLOCK frame: its number, its section, its record count, then each record with its length before it (R193). -/
def framed (block sectionCode : Nat) (records : List (List Byte)) : Frame :=
  ⟨2, bytesOf 2 block ++ bytesOf 1 sectionCode ++ bytesOf 1 records.length ++
    records.flatMap fun r => bytesOf 2 r.length ++ r⟩

/-- The carry-over records of an account: its summary, form 1, then each line that is not void, form 2 (R113, R169; the
layout is log entry 37). -/
def carriedOver (a : Account) : List (List Byte) :=
  let key (k : Key) := packedDigits 4 k.date ++ bytesOf 2 k.sequence
  (a.summary.toList.map fun m => packedDigits 6 a.number ++ bytesOf 1 1 ++ bytesOf 2 m.count ++ amountBytes m.net ++
      key m.first ++ key m.last) ++
    (a.lines.filter fun l => !l.void).map fun l => packedDigits 6 a.number ++ bytesOf 1 2 ++ key l.key ++
      bytesOf 1 l.narrative ++ amountBytes l.amount ++ (l.balance.map amountBytes).getD [] ++
      (l.reverses.map (bytesOf 2)).getD []

/-! ### The head-office line -/

/-- The sender has counted a frame its state does not admit, and nothing else has changed (R170). -/
def Anomalous (s t : State) : Prop :=
  t = { s with sender := { s.sender with anomalies := min 65535 (s.sender.anomalies + 1) } }

/-- The sender has stopped for a reason, with the fault given: FAILED, line ready dropped, the day SEALED and shown so,
the fault captured and the notices raised (R175). -/
def SenderStopped (s t : State) (reason : SendFailure) (kind : FaultKind) (source : UnitName) (items : List Item) : Prop :=
  UnchangedBut [.sender, .out, .day, .fault, .buffers, .screens, .windows, .inExecution] s t ∧ Rendered s.scu t.scu ∧
    t.sender = { s.sender with
      state := .failed, outstanding := [], wait := none, timer := none, failure := some reason } ∧
    t.out = { s.out with lineReady := false } ∧ t.store.day = { s.store.day with state := .sealed } ∧
    t.port.fault = (if s.port.fault.held then { s.port.fault with lost := min 15 (s.port.fault.lost + 1) }
      else ⟨true, kind, source, items, s.clock.day, s.clock.seconds, s.port.fault.lost⟩) ∧
    t.port.windows = notify [(officerMaster, .fault kind source items), (officerMaster, .dayChanged .sealed),
      (officerMaster, .sendFailed reason s.store.day.ackThrough)] s.port.windows

/-- The sender has failed by a reason other than STORE_CHECK: the SEND_FAILED fault gives the reason and the lowest
outstanding block, or k + 1 (R175). -/
def SenderFailed (s t : State) (reason : SendFailure) : Prop :=
  SenderStopped s t reason .sendFailed .dlu [.num reason.place,
    .num ((s.sender.outstanding.head?.map OutBlock.block).getD (s.store.day.ackThrough + 1))]

/-- Of the blocks listed, those before the first that is built from a record whose check fails, and that record (R83,
R169). -/
def firstUnsound (s : State) : List Nat → Option (List Nat × Record)
  | [] => none
  | b :: rest =>
    match (recordsRead s b).find? fun r => !r.checkOk with
    | some r => some ([], r)
    | none => (firstUnsound s rest).map fun e => (b :: e.1, e.2)

/-- The blocks listed have been built and sent in turn; at a record whose check fails its block is not sent, and the
sender has stopped by STORE_CHECK, with that fault alone (R169, R175). -/
def BlocksSent (s t : State) (blocks : List Nat) : Prop :=
  let sent (l : List Nat) : State := { s with out := { s.out with line := s.out.line ++ l.map (blockFrame s) } }
  match firstUnsound s blocks with
  | none => t = sent blocks
  | some (before, r) => SenderStopped (sent before) t .storeCheck .storeCheck .jsu [.num r.sequence]

/-- The sender admits frames, if only to count them (R170). -/
def Listens (s : State) : Prop :=
  s.sender.state ≠ .idle ∧ s.sender.state ≠ .done ∧ s.sender.state ≠ .failed

/-- One frame has left on the head-office line, and the sender stands as given (R171, R174). -/
def FrameSent (s t : State) (f : Frame) (x : Sender) : Prop :=
  t = { s with sender := x, out := { s.out with line := s.out.line ++ [f] } }

/-- A CALL: branch, date, T and the block expected next; the call count has risen and the response timer runs
(R171). -/
def CallSent (s t : State) : Prop :=
  FrameSent s t ⟨1, bytesOf 2 (s.store.lineSettings.branch.getD 0) ++
      packedDigits 4 (s.store.day.date.getD 0) ++ bytesOf 2 (totalBlocks s) ++
      bytesOf 2 (s.store.day.ackThrough + 1)⟩
    { s.sender with
      state := .waitReady, calls := s.sender.calls + 1, wait := none
      timer := some s.store.lineSettings.timeout }

/-- An END, the try numbered as given, after block T (R174). -/
def EndSent (s t : State) (tries : Nat) : Prop :=
  FrameSent s t ⟨3, bytesOf 2 (totalBlocks s)⟩ { s.sender with
    state := .waitClosed, outstanding := [], endTries := tries, timer := some s.store.lineSettings.timeout }

/-- The blocks after `kept` that the window of two still admits, up to T (R172). -/
def blocksToSend (kept : List OutBlock) (through total : Nat) : List Nat :=
  let next := (kept.getLast?.map fun b => b.block + 1).getD (through + 1)
  ((List.range (2 - kept.length)).map (next + ·)).filter (· ≤ total)

/-- The transfer goes on from an acknowledgement through `k`: END when that is T, and otherwise the window of two filled
with new blocks, each built and sent (R169, R171, R172, R174).  `kept` are the blocks still outstanding. -/
def TransferGoesOn (s t : State) (k : Nat) (kept : List OutBlock) (x : Sender) : Prop :=
  let u := { s with store := { s.store with day := { s.store.day with ackThrough := k } }, sender := x }
  if k = totalBlocks s then EndSent u t 1
  else
    let new := blocksToSend kept k (totalBlocks s)
    BlocksSent { u with
      sender := { x with outstanding := kept ++ new.map fun b => ⟨b, 0, 0, s.store.lineSettings.timeout⟩ } } t new

/-- A retry of an outstanding block: it and the next outstanding one are built and sent again with their ages at 0, or
at the fifth the sender fails (R169, R173). -/
def Retried (s t : State) (b : OutBlock) : Prop :=
  let l := s.sender.outstanding
  let again := b.block :: if l.any (fun x => x.block == b.block + 1) = true then [b.block + 1] else []
  if 4 ≤ b.retries then SenderFailed s t .retryLimit
  else BlocksSent { s with
    sender := { s.sender with outstanding := l.map fun x =>
      let y := if x.block = b.block then { x with retries := x.retries + 1 } else x
      if x.block = b.block ∨ x.block = b.block + 1 then
        { y with age := 0, limit := s.store.lineSettings.timeout } else y } } t again

/-- One second at the sender, by its state: the wait for the next CALL, the response timer, the ages of the outstanding
blocks; each that runs out is taken as its expiry (R170, R171, R173, R174). -/
def SenderTicks (s t : State) : Prop :=
  let x := s.sender
  let timed (o : Option Nat) (expired : Prop) (left : Nat → Sender) : Prop :=
    match o with
    | some n => if n ≤ 1 then expired else t = { s with sender := left (n - 1) }
    | none => t = s
  match x.state with
  | .calling => (x.wait = none → CallSent s t) ∧
      (x.wait.isSome = true → timed x.wait (CallSent s t) fun n => { x with wait := some n })
  | .waitReady => timed x.timer (if x.calls < 5 then CallSent s t else SenderFailed s t .noAnswer)
      fun n => { x with timer := some n }
  | .waitClosed => timed x.timer (if x.endTries < 5 then EndSent s t (x.endTries + 1) else SenderFailed s t .endLimit)
      fun n => { x with timer := some n }
  | .sending =>
    let aged := { s with sender := { x with outstanding := x.outstanding.map fun b => { b with age := b.age + 1 } } }
    match x.outstanding with
    | b :: _ => if b.limit ≤ b.age + 1 then Retried aged t b else t = aged
    | [] => t = aged
  | _ => t = s

/-! ### Invariants -/

/-- A set of notices holds each kind in its own place, with repeat counts to 255 (R185). -/
def noticesOk (t : Table (Option Notice) 8) : Prop :=
  ∀ k n, t.get k = some n → n.detail.kind = k ∧ n.repeats ≤ 255

/-- The bounds of the port: at most four requests queued and eight responses waiting or due, the dropped-post
count, the notice sets and the lost-fault count; a deliver that is due is owed to an acceptance in execution; the
operations asked list each request in execution once, and the deliver that is due (R69, R177, R178, R180, R181, R185,
R187). -/
structure PortInv (s : State) : Prop where
  requests : ∀ m, (s.port.windows.get m).requests.length ≤ 4
  responses : ∀ m, (s.port.windows.get m).responses.length +
    (if (s.port.inExecution.get m).isSome then 1 else 0) ≤ 8
  dropped : ∀ m, (s.port.windows.get m).dropped ≤ 255
  waiting : ∀ m, noticesOk (s.port.windows.get m).waiting
  service : ∀ m, noticesOk (s.port.windows.get m).service
  lost : s.port.fault.lost ≤ 15
  delivery : ∀ d, s.delivery = some d → ∃ r discard,
    s.port.inExecution.get d.head.master = some ⟨.transferAccept d.head r, discard⟩
  order : ∀ m, s.port.order.count (.request m) = if (s.port.inExecution.get m).isSome then 1 else 0
  asked : s.port.order.count .deliver = if s.delivery.isSome then 1 else 0

/-- How many map entries of all screens name a buffer. -/
def namings (u : Scu) (b : BufferNo) : Nat :=
  ((List.finRange 12).map fun p => (u.screens.get p).map.list.count (some b)).sum

/-- Reference counts count the map entries that name each buffer, and a free buffer has none (R139, R147). -/
def RefInv (s : State) : Prop :=
  ∀ b, (s.scu.buffers.get b).refs = namings s.scu b ∧
    ((s.scu.buffers.get b).owner = .free → (s.scu.buffers.get b).refs = 0)

/-- The two sides of a binding agree, and a position has a drawer exactly when it has a teller (R13, R25). -/
def bindingsAgree (x : Store) : Prop :=
  (∀ p d, (x.positions.get p).drawer = some d ↔ (x.drawers.get d).bound = some p) ∧
    ∀ p, (x.positions.get p).drawer.isSome = (x.positions.get p).teller.isSome

/-- Bindings agree in the store in use and in the one the battery keeps. -/
def BindInv (s : State) : Prop := bindingsAgree s.store ∧ ∀ x, s.kept = some x → bindingsAgree x

/-- The starts and ends of a position's binding that wait at the Screen Unit, in the order asked. -/
def bindingsWaiting (s : State) (p : Position) : List Bool :=
  s.port.order.filterMap fun
    | .binding q starts => if q = p then some starts else none
    | _ => none

/-- While the part has supply, a position's idle count runs exactly under the three conditions of R152, and a lock is held
only where a teller is signed on (R152, R153).  While a binding's start or end waits at the Screen Unit this is what its
taking leaves: after an end no teller is signed on, and a start finds an unbound position without count and lock (log
entry 10). -/
def IdleInv (s : State) : Prop :=
  s.power ≠ .off → ∀ p, let x := s.scu.screens.get p
    let signedOn := (s.store.positions.get p).teller.isSome
    (x.idle.isSome → x.lockHeld = false ∧ s.scu.idleTimeout ≠ 0) ∧
    match (bindingsWaiting s p).getLast? with
    | none => (signedOn = true → x.lockHeld = false → s.scu.idleTimeout ≠ 0 → x.idle.isSome) ∧
        (x.idle.isSome ∨ x.lockHeld = true → signedOn = true)
    | some true => signedOn = false → x.idle = none ∧ x.lockHeld = false
    | some false => signedOn = false

/-- The journal holds every record the day counts, each at the place its sequence names (R84). -/
def sequencesStand (x : Store) : Prop :=
  x.day.used ≤ x.journal.length ∧
    ∀ n < x.day.used, ∀ r, x.journal[n]? = some r → r.sequence = n + 1

/-- Sequences stand in the store in use and in the one the battery keeps. -/
def JournalInv (s : State) : Prop := sequencesStand s.store ∧ ∀ x, s.kept = some x → sequencesStand x

/-- The live fields of each buffer are 1 to 20 wide, lie in the row and share no column, and while the part has supply
each whose source's report does not wait shows its source's value (R139, R144, R145). -/
structure LiveFieldInv (s : State) : Prop where
  placed : ∀ b k f, (s.scu.buffers.get b).fields.get k = some f → 1 ≤ f.width ∧ f.width ≤ 20 ∧ f.column + f.width ≤ 80
  apart : ∀ b j k f g, (s.scu.buffers.get b).fields.get j = some f → (s.scu.buffers.get b).fields.get k = some g →
    j ≠ k → f.Apart g
  showing : s.power ≠ .off → ∀ b k f, (s.scu.buffers.get b).fields.get k = some f → ¬AwaitsReport s f.source →
    Showing s (s.scu.buffers.get b).owner f (s.scu.buffers.get b).cells

/-- The clock's ranges (R188). -/
def ClockInv (s : State) : Prop := s.clock.seconds < 86400 ∧ s.clock.day < 65536

end Sys2Proof.Machine
end

