-- ==== Sys2Proof/Certificates/Slice0/Obligations.lean ====
section
/-! DEFINITION. The statements for the provers: what the commands do, by the numbered rules of the manual,
and what holds of every step.  "In service" is a request in execution in a part that is up with its store
open; a frame lists the parts that may change. -/

open Sys2Proof Sys2Proof.Machine

/-! ### Reset, steps and invariants -/

/-- The part right after its first power-up.  The MODEL's choice, log entry 1: the battery domain is empty, so
the store is found invalid and the clock lost; what follows from that is as R90, R157, R176, R188 and R190
give it.  Every invariant stated below holds there. -/
def Obligations.ResetFindsTheStoreInvalid : Prop :=
  let s := State.reset
  (PortInv s ∧ RefInv s ∧ BindInv s ∧ IdleInv s ∧ ClockInv s ∧ JournalInv s ∧ LiveFieldInv s) ∧
  s.pending = [] ∧ s.power = .up ∧ s.clock = ⟨0, 0, false⟩ ∧ s.jsu = ⟨0, .storeInvalid⟩ ∧ s.delivery = none ∧
    (∃ x, s.kept = some x ∧ x.header.valid = false) ∧
    (∀ n, s.store.drawers.get n = formatDrawer ∧ s.counted.get n = none) ∧
    (∀ p : Position, s.store.positions.get p = ⟨Fin.ofNat 4 (p.val / 3), none, none⟩) ∧
    s.store.day = ⟨.noDay, none, none, 0, none, 0, []⟩ ∧ s.store.lineSettings = ⟨none, 10⟩ ∧ s.store.burst = 2 ∧
    (∀ m, let w := s.port.windows.get m
      w.requests = [] ∧ w.responses = [] ∧ w.dropped = 0 ∧ s.port.inExecution.get m = none ∧
        (∀ k, w.service.get k = none) ∧
        ∀ k, (w.waiting.get k).isSome ↔ m = officerMaster ∧ k = 7) ∧
    s.port.lastServed = officerMaster ∧ s.port.burstUsed = 0 ∧
    s.port.fault.held = true ∧ s.port.fault.kind = .clockLost ∧ s.port.fault.lost = 0 ∧
    (∀ i, s.exu.quotes.get i = none) ∧ (∀ i, s.pru.jobs.get i = none) ∧ (∀ p, s.pru.notes.get p = none) ∧
    (∀ p, (s.pru.engines.get p).state = .idle) ∧ s.sender.state = .idle ∧ s.out.lineReady = false ∧
    (∀ p, s.scu.screens.get p = powerUpScreen false) ∧ s.scu.idleTimeout = 300 ∧
    ∀ b, (s.scu.buffers.get b).refs = 0 ∧
      (s.scu.buffers.get b).owner = if b.val < 27 then .part else .free

/-- A step is the command at the front of the queue, carried out with the queue's rest; an empty queue idles.  No
command stops the part, and none touches the queue of commands that wait.  The MODEL's queue, log entry 2. -/
def Obligations.StepTakesTheOldestCommand : Prop :=
  (∀ (c : Instr) (rest : List Instr) (s : State),
    step { s with pending := c :: rest } = exec c { s with pending := rest }) ∧
  (∀ s : State, s.pending = [] → step s = .next s) ∧
  ∀ (c : Instr) (s : State), ∃ t, exec c s = .next t ∧ t.pending = s.pending

/-- R178, R181, R185 and R187 bound the port: four requests, eight responses counting the one due, one notice of a
kind, the counts that stop at 255 and 15; the operations asked (R29, R180) list each request in execution once, and
the deliver that is due (R69). Every step keeps these bounds. -/
def Obligations.PortBoundsAreKept : Prop :=
  ∀ s t : State, PortInv s → step s = .next t → PortInv t

/-- Each buffer's reference count is the number of map entries that name it, in all screens, after every step
(R139, R147). -/
def Obligations.ReferenceCountsAreKept : Prop :=
  ∀ s t : State, RefInv s → step s = .next t → RefInv t

/-- Drawer table and position table agree on every binding, and a position has a drawer exactly when a teller is
signed on there, after every step (R13, R14, R25). -/
def Obligations.BindingsAreKept : Prop :=
  ∀ s t : State, BindInv s → step s = .next t → BindInv t

/-- While the part has supply, each step keeps this of every position: an idle count runs only with lock held clear and
the timeout not 0, and where no start or end of the position's binding waits at the Screen Unit it runs exactly while a
teller is signed on as well, and a lock is held only where a teller is signed on (R152, R153).  The exceptions: where the
last that waits is a start, only that a position without a teller has neither count nor lock is kept, so that a teller
signed on may have no count yet; where it is an end, only that no teller is signed on, so that a count or a lock may still
stand; without supply nothing is said.  That a binding's start and end wait at the Screen Unit behind what was asked
before them is the model's choice, log entry 10. -/
def Obligations.IdleCountsAndLocksAreKept : Prop :=
  ∀ s t : State, IdleInv s → step s = .next t → IdleInv t

/-- The record at each place of the journal carries that place as its sequence, and the clock's seconds stay below
86,400 and its day number below 65,536, after every step (R84, R188). -/
def Obligations.JournalOrderAndClockRangesAreKept : Prop :=
  ∀ s t : State, step s = .next t → (JournalInv s → JournalInv t) ∧ (ClockInv s → ClockInv t)

/-- Live fields stand 1 to 20 wide in their row, none over another, and while the part has supply each live field of
every buffer holds the fitted rendering of its source as the state has it, whatever command changed that source: a
posting, a rate change, a quote, a binding, a job, the day or the tick.  The exception: a field whose source's report, or
for the clock whose tick, waits at the Screen Unit behind what was asked earlier (R139, R143 to R145; how a source shows is
SourceReportsRenderTheirFields; the waiting is log entry 10).  The bindings of drawers and positions must agree, as every
step keeps them. -/
def Obligations.LiveFieldsShowTheirSources : Prop :=
  ∀ s t : State, LiveFieldInv s → BindInv s → step s = .next t → LiveFieldInv t

/-! ### The port -/

/-- Accesses that carry master number 5, 6 or 7 are not answered and change nothing (R177).  A write in the post area
changes that word alone; one at the offset of the post word or of the notice-end word is that access, and any other
write of the window is ignored (R177, R192; that the write carries an offset of the whole window is log entry 29).  A
post word of count 0 does nothing; any other count
queues a copy of at most 64 words of the post area where fewer than four requests are queued, and otherwise
drops the post and counts it, to 255 (R177, R178; the count stands in bits 6 to 0, R192).

A read of the response-take word removes the oldest waiting response, puts its words in the response area,
zeros after them, and returns its first word; with none waiting it returns the "none" word and clears the area
(R177, R181, R191; zeros past the response are the model's reading, log entry 16).  A read at the offsets of the two
other read words is that access, one of a latched word or of the response area returns the word, and one of any other
offset, a write-only part's among them, returns zero; these change nothing else (R177, R192; the offset of a read is log
entry 29).  The port status word gives the free request slots,
the waiting responses, the dropped-post count and the state of the notice line; the count is then 0 (R177; layout
R192). -/
def Obligations.WindowsAreWrittenAndRead : Prop :=
  (∀ (m : Fin 8) (o : Fin 2048) (w : Word) (s : State), 5 ≤ m.val →
    exec (.postAreaWrite m o w) s = .next s ∧ exec (.postWord m w) s = .next s ∧
    exec (.responseTake ⟨m, o⟩) s = .next s ∧ exec (.portStatusRead m) s = .next s ∧
    exec (.noticeTake m) s = .next s ∧ exec (.noticeEnd m) s = .next s) ∧
  (∀ (m : Fin 8) (o : Fin 2048) (w : Word) (s : State), 64 ≤ o.val → exec (.postAreaWrite m o w) s =
    if o.val = 64 then exec (.postWord m w) s else if o.val = 78 then exec (.noticeEnd m) s else .next s) ∧
  (∀ (m : Master) (s : State), s.power ≠ .off →
    let x := s.port.windows.get m
    (∀ (o : Fin 64) (w : Word), ∃ t,
      exec (.postAreaWrite ⟨m.val, by omega⟩ ⟨o.val, by omega⟩ w) s = .next t ∧
        UnchangedBut [.windows, .postAreas] s t ∧
        ∀ k, t.port.windows.get k =
          if k = m then { x with postArea := x.postArea.set o w } else s.port.windows.get k) ∧
    ∀ w : Word, ∃ t, exec (.postWord ⟨m.val, by omega⟩ w) s = .next t ∧
      UnchangedBut [.windows, .requests, .dropped] s t ∧
      let count := w.toNat % 128
      ∀ k, t.port.windows.get k =
        if k ≠ m ∨ count = 0 then s.port.windows.get k
        else if x.requests.length < 4 then
          { x with requests := x.requests ++ [⟨x.postArea.list.take (min 64 count), count⟩] }
        else { x with dropped := min 255 (x.dropped + 1) }) ∧
  (∀ (m : Master) (s : State), s.power ≠ .off →
    let x := s.port.windows.get m
    (∀ o : Fin 2048, let i : Instr := .responseTake ⟨⟨m.val, by omega⟩, o⟩
      (o.val = 66 → exec i s = exec (.portStatusRead ⟨m.val, by omega⟩) s) ∧
      (o.val = 67 → exec i s = exec (.noticeTake ⟨m.val, by omega⟩) s) ∧
      let word : Word :=
        if _ : 68 ≤ o.val ∧ o.val ≤ 77 then x.latched.get ⟨o.val - 68, by omega⟩
        else if _ : 1024 ≤ o.val then x.responseArea.get ⟨o.val - 1024, by omega⟩
        else 0
      (o.val ∉ [65, 66, 67] → exec i s = .next { s with out := { s.out with readData := word } })) ∧
    ∃ t, exec (.responseTake ⟨⟨m.val, by omega⟩, 65⟩) s = .next t ∧
      UnchangedBut [.windows, .responses, .areas, .out] s t ∧
      (∀ k, k ≠ m → t.port.windows.get k = s.port.windows.get k) ∧
      t.out = { s.out with readData := t.out.readData } ∧
      let y := t.port.windows.get m
      { y with responses := x.responses, responseArea := x.responseArea } = x ∧
      match x.responses with
      | [] => y.responses = [] ∧ t.out.readData = 65535 ∧ ∀ i, y.responseArea.get i = 0
      | r :: rest => y.responses = rest ∧ some t.out.readData = r.encode.head? ∧
          ∀ i, y.responseArea.get i = (r.encode[i.val]?).getD 0) ∧
  ∀ (m : Master) (s : State), s.power ≠ .off → PortInv s →
    let x := s.port.windows.get m
    ∃ t, exec (.portStatusRead ⟨m.val, by omega⟩) s = .next t ∧
      UnchangedBut [.windows, .dropped, .out] s t ∧
      t.port.windows = s.port.windows.set m { x with dropped := 0 } ∧
      t.out = { s.out with readData := t.out.readData } ∧
      let w := t.out.readData.toNat
      w % 8 = 4 - x.requests.length ∧ w / 8 % 16 = x.responses.length ∧ w / 128 % 256 = x.dropped ∧
        (w / 32768 = 1 ↔ noticeLine x = true)

/-- A raised notice joins the pending set with repeat count 0, or replaces the detail of the pending one of its
kind and raises its repeat count, to 255; nothing else changes (R185).  No notice is raised while the store is
shut or the supply is off (R190).  A take moves the highest pending notice, when it is above every notice in service, to
the in-service set, returns its repeat count and kind and latches its detail; otherwise it returns the "none" word.  An
end removes the highest notice in service.  The line is asserted exactly while a pending notice is above every one in
service (R186; words R191). -/
def Obligations.NoticesAreRaisedTakenAndEnded : Prop :=
  (∀ (m : Master) (d : Detail) (s : State), UnchangedBut [.windows] s (raiseTo m d s) ∧
    (s.power ≠ .up → raiseTo m d s = s) ∧
    (s.power = .up → ∀ k, (raiseTo m d s).port.windows.get k =
      if k = m then
        let x := s.port.windows.get m
        { x with waiting := x.waiting.set d.kind (some
            ⟨d, (x.waiting.get d.kind).elim 0 fun n => min 255 (n.repeats + 1)⟩) }
      else s.port.windows.get k)) ∧
  ∀ (m : Master) (s : State), s.power ≠ .off →
    let x := s.port.windows.get m
    (noticeLine x = true ↔
      ∃ k, (x.waiting.get k).isSome ∧ ∀ j, (x.service.get j).isSome → j < k) ∧
    (∃ t, exec (.noticeTake ⟨m.val, by omega⟩) s = .next t ∧
      UnchangedBut [.windows, .service, .out] s t ∧
      (∀ k, k ≠ m → t.port.windows.get k = s.port.windows.get k) ∧
      t.out = { s.out with readData := t.out.readData } ∧
      (∀ k n, Qualifies x k n → t.out.readData = BitVec.ofNat 16 (256 * n.repeats + n.detail.kind.val) ∧
        t.port.windows.get m = { x with
          waiting := x.waiting.set k none
          service := x.service.set k (some n)
          latched := n.rest }) ∧
      ((∀ k n, ¬Qualifies x k n) → t.out.readData = 65535 ∧
        t.port.windows.get m = { x with latched := Table.fill 10 0 })) ∧
    ∃ t, exec (.noticeEnd ⟨m.val, by omega⟩) s = .next t ∧ UnchangedBut [.windows, .service] s t ∧
      (∀ k, k ≠ m → t.port.windows.get k = s.port.windows.get k) ∧
      (∀ k, (x.service.get k).isSome → (∀ j, (x.service.get j).isSome → j ≤ k) →
        t.port.windows.get m = { x with service := x.service.set k none }) ∧
      ((∀ k, x.service.get k = none) → t = s)

/-- The server hands out the oldest request of the master served next, or nothing when none is eligible; that an
eligible master 4 is served first after a reset is the model's choice, log entry 49. A request the words spell goes
into execution at that master, last in the order handed; words that spell none are answered UNKNOWN_REQUEST with the
posted tag and kind (R179, R180). In STORE_INVALID the port itself answers every request but STORE.FORMAT,
PART.STATUS, CLOCK.SET and FAULT.READ, master 4's with STORE_INVALID or, at a field its authority check reads,
BAD_FIELD, a station master's with one of these, NOT_PERMITTED or NOT_YOUR_POSITION (R179). A request in execution
behind one handed earlier to its unit, or to a unit of which it asks an operation, such as the Drawer Unit for a
transfer request, DAY.CLOSE and DAY.REOPEN, waits there and changes nothing; so does a drawer operation behind a
deliver asked earlier, an operation of the Transfer Unit behind a re-raise asked earlier or while an acceptance is in
progress, one of the Screen Unit behind source reports or a binding's change, and any behind a second tick, a frame, a
timer's expiry or a mechanism's event asked earlier of its unit. A frame, a timer's expiry or a mechanism's event that
finds its unit taken waits at the end of what is asked, and source reports that find the Screen Unit taken wait too.
What waits for a request alone is taken when it ends (R29, R36, R48, R67, R100, R119, R144, R159, R162, R180; that a
request command shows the waiting, and which operations stand where, is log entry 10; which field checks before the
authority check the port makes in STORE_INVALID is log entry 62; what of a body's words is left over or stands for no
value is log entries 9 and 67). -/
def Obligations.TheServerTakesMastersInTurn : Prop :=
  (∀ (i : Instr) (h : ReqHead) (s : State) (x : InExecution), headOf i = some h → s.power = .up → s.kept = none →
    s.port.inExecution.get h.master = some x → x.request = i →
    let drawerOperation : Prop := unitOf i = .dru ∨ i = .dayClose h ∨ i = .dayReopen h ∨
      (∃ r, i = .transferOffer h r) ∨ (∃ r, i = .transferAccept h r) ∨ ∃ n, i = .transferDecline h n
    (∀ before after, s.port.order = before ++ .request h.master :: after → .request h.master ∉ before →
      (∀ m y, .request m ∈ before → s.port.inExecution.get m = some y →
        unitOf y.request = unitOf i ∨ unitOf y.request = .dru ∧ drawerOperation ∨ unitOf y.request ∈ asksOf i →
        exec i s = .next s) ∧
      (.deliver ∈ before → drawerOperation → exec i s = .next s) ∧
      (∀ d, .reraise d ∈ before → asksTransfers i = true → exec i s = .next s) ∧
      (∀ u, .tick u ∈ before → u = unitOf i ∨ u ∈ asksOf i → exec i s = .next s) ∧
      ((∃ l, .report l ∈ before) ∨ (∃ p starts, .binding p starts ∈ before) →
        unitOf i = .scu ∨ .scu ∈ asksOf i → exec i s = .next s) ∧
      ∀ e, .event e ∈ before → eventUnit e = unitOf i ∨ eventUnit e ∈ asksOf i → exec i s = .next s) ∧
    (s.delivery.isSome = true → asksTransfers i = true → exec i s = .next s) ∧
    ∀ a t, takesItself a = true → s.port.order = [.request h.master, a] → s.delivery = none → exec i s = .next t →
      a ∉ t.port.order ∨ t.delivery.isSome = true) ∧
  (∀ (e : Instr) (s : State), s.power = .up → eventUnit e ≠ .bpp → ¬UnitFree s (eventUnit e) →
    exec e s = .next { s with port := { s.port with order := s.port.order ++ [.event e] } }) ∧
  (∀ (l : List Report) (s : State), s.power = .up → ¬UnitFree s .scu → UnchangedBut [.inExecution] s (report l s) ∧
    (l ≠ [] → ∃ k, (report l s).port.order.getLast? = some (.report k) ∧ ∀ r ∈ l, r ∈ k)) ∧
  ∀ s : State, s.power = .up →
    ((∀ m, ¬Eligible s m) → exec .requestHandout s = .next s) ∧
    ((∃ m, Eligible s m) → ∃ m burst, ServedNext s m burst) ∧
    ∀ m burst, ServedNext s m burst → .request m ∉ s.port.order →
      ∃ t p rest, exec .requestHandout s = .next t ∧ (s.port.windows.get m).requests = p :: rest ∧
        UnchangedBut [.windows, .requests, .responses, .server, .inExecution, .turns] s t ∧
        t.port.lastServed = m ∧ t.port.burstUsed = burst ∧
        (∀ k, k ≠ m → t.port.windows.get k = s.port.windows.get k ∧
          t.port.inExecution.get k = s.port.inExecution.get k) ∧
        let x := s.port.windows.get m
        let Answers (r : Response) : Prop := t.port.inExecution.get m = none ∧ t.port.order = s.port.order ∧
          t.port.windows.get m = { x with requests := rest, responses := x.responses ++ [r] }
        let tag : Byte := (p.words.head?.getD 0).setWidth 8
        let kind := (p.words.head?.getD 0).toNat / 256
        match readRequest m p with
        | some i =>
          if s.kept = none ∨ kind = 81 ∨ kind = 165 ∨ kind = 164 ∨ kind = 162 then
            requestKind i = some kind ∧ t.port.windows.get m = { x with requests := rest } ∧
              t.port.inExecution.get m = some ⟨i, false⟩ ∧ t.port.order = s.port.order ++ [.request m]
          else ∃ code, Answers ⟨kind, tag, code, false, []⟩ ∧ (code = .storeInvalid ∨ code = .badField ∨
            m ≠ officerMaster ∧ (code = .notPermitted ∨ code = .notYourPosition))
        | none => Answers ⟨kind, tag, .unknownRequest, false, []⟩

/-- A backplane reset clears every master's queues, notice sets and dropped-post count, its response area and latched
record to zero, marks the requests in execution for discard, in the order asked, and sets the last served master to 4;
nothing else changes, and a request so marked ends without a response when its turn at its unit has come (R180, R190,
R191). -/
def Obligations.BackplaneResetClearsTheWindows : Prop :=
  (∀ s : State, s.power ≠ .off → ∃ t, exec .backplaneReset s = .next t ∧
    UnchangedBut [.windows, .requests, .responses, .areas, .service, .dropped, .server, .inExecution, .turns] s t ∧
    t.port.lastServed = 4 ∧ t.port.burstUsed = 0 ∧ t.port.order = s.port.order ∧
    ∀ m, let y := t.port.windows.get m
      y.requests = [] ∧ y.responses = [] ∧ y.dropped = 0 ∧ noticeLine y = false ∧
      (∀ k, y.waiting.get k = none ∧ y.service.get k = none) ∧ (∀ k, y.responseArea.get k = 0) ∧
      (∀ k, y.latched.get k = 0) ∧
      t.port.inExecution.get m = (s.port.inExecution.get m).map fun e => { e with discard := true }) ∧
  ∀ (i : Instr) (h : ReqHead) (s : State), headOf i = some h → s.power = .up → s.kept = none →
    s.port.inExecution.get h.master = some ⟨i, true⟩ → waitsTurn h i s = false →
    ∃ t, exec i s = .next t ∧ Part.same s t .responses ∧
      (t.delivery = s.delivery → t.port.inExecution.get h.master = none)

/-! ### Every request -/

/-- A refusal is answered to the requester alone, with the request's kind and tag, and changes nothing else but
the idle count of the position the request names (R182, R152; that MAP.SET's screen and the position in FIELD.BIND's
source are positions named is log entry 19).  CASH.REVERSE may capture a failed record check,
DAY.SEAL may have ended jobs before it refuses, and TRANSFER.ACCEPT restarts the idle count of the to-drawer's
position (R95, R163, R68): those three are left out here. -/
def Obligations.RefusalsChangeNothing : Prop :=
  ∀ (i : Instr) (h : ReqHead) (s t : State), headOf i = some h → InService h i s →
    (∀ r, i ≠ .cashReverse h r) → i ≠ .daySeal h → (∀ r, i ≠ .transferAccept h r) → exec i s = .next t →
    ∀ r, (t.port.windows.get h.master).responses = (s.port.windows.get h.master).responses ++ [r] →
      r.code ≠ .done →
      r.tag = h.tag ∧ some r.kind = requestKind i ∧
      UnchangedBut [.windows, .responses, .inExecution, .turns, .screens, .idles] s t ∧
      t.scu = (match namedPosition i with
        | .value n => if n ≤ 11 then restartedScu s (Fin.ofNat 12 n) else s.scu
        | _ => s.scu) ∧
      t.port.inExecution = s.port.inExecution.set h.master none ∧ t.port.order = s.port.order.erase (.request h.master) ∧
      t.port.windows = s.port.windows.modify h.master fun x => { x with responses := x.responses ++ [r] }

/-- While the part is in STORE_INVALID every request but STORE.FORMAT, PART.STATUS, CLOCK.SET and FAULT.READ is
refused; from master 4 one whose position is out of range, or is absent where its rule requires one, is answered
BAD_FIELD, and one that names no position STORE_INVALID (R90, R179, R182); nothing else changes.  That of the field checks
before its authority check the port makes that of the position, or of DRAWER.COUNT's and DRAWER.ENQUIRE's drawer, and no
other is the model's choice, log entry 62. -/
def Obligations.StoreInvalidRefusesRequests : Prop :=
  ∀ (i : Instr) (h : ReqHead) (s : State), headOf i = some h → s.power = .up → s.kept.isSome →
    (∀ p, (s.store.positions.get p).teller = none) →
    s.port.inExecution.get h.master = some ⟨i, false⟩ →
    i ≠ .storeFormat h → i ≠ .partStatus h → (∀ r, i ≠ .clockSet h r) → i ≠ .faultRead h →
    ∃ t code, exec i s = .next t ∧
      (code = .storeInvalid ∨ code = .badField ∨ code = .notPermitted ∨ code = .notYourPosition) ∧
      UnchangedBut [.windows, .responses, .inExecution, .turns] s t ∧
      Answered h ((requestKind i).getD 0) code false [] [] s t ∧
      (h.master = officerMaster → code = .storeInvalid ∨ code = .badField) ∧
      (h.master = officerMaster → needsPosition i = true → (∀ r, i ≠ .positionBind h r) →
        inRange 0 11 (namedPosition i) = false → code = .badField) ∧
      (h.master = officerMaster → namedPosition i = .absent → needsPosition i = false →
        (∀ r, i ≠ .drawerCount h r) → (∀ x, i ≠ .drawerEnquire h x) → code = .storeInvalid)

/-! ### Supply, clock and ticks -/

/-- A power warning completes the acceptance whose deliver is due, also where that deliver waits behind a drawer
operation asked earlier, abandons the requests in execution, stops the printers, ejects the books they hold, drops
line ready and shuts the store; from then on no request is handed out and none is carried out (R88, R89, R137, R176,
R190). With the main supply gone everything volatile is lost, in every unit: counted counts, quotes and their made-order
count, jobs, notes, queues and current jobs, the row pool and the screens, the sender, the windows and the order asked; the
branch store, the clock, the sensors, the books in the feeds and the frames already sent are as they were, and until
power-up the part answers no access and counts nothing but its clock (R78, R79, R89, R188; that what is lost shows its
power-up value while the supply is gone is log entry 23, a book position of 0 log entry 54). -/
def Obligations.SupplyGoesByAWarningAndAFall : Prop :=
  (∀ s : State, s.power = .up → s.delivery = none → NothingWaits s → ∃ t, exec .powerWarning s = .next t ∧
    UnchangedBut [.power, .inExecution, .turns, .pru, .out] s t ∧ t.power = .shut ∧
    (∀ m, t.port.inExecution.get m = none) ∧ t.port.order = [] ∧ t.out = { s.out with lineReady := false } ∧
    t.pru = { s.pru with engines := t.pru.engines } ∧
    ∀ p, t.pru.engines.get p = { s.pru.engines.get p with
      motion := if (s.pru.engines.get p).present || (s.pru.engines.get p).inFeed then .eject .clearing
        else .still }) ∧
  (∀ s t : State, s.power = .up → NothingWaits s → exec .deliver s = .next t →
    exec .powerWarning s = exec .powerWarning t) ∧
  (∀ (s : State) (d : Delivery) (i : Instr), s.power = .up → s.delivery = some d → NothingWaits s →
    s.port.inExecution.get d.head.master = some ⟨i, false⟩ → ∃ t, exec .powerWarning s = .next t ∧
      UnchangedBut [.power, .delivery, .drawers, .journal, .day, .windows, .responses, .inExecution, .turns, .pru, .out]
        s t ∧
      t.power = .shut ∧ t.delivery = none ∧ (∀ m, t.port.inExecution.get m = none) ∧ t.port.order = [] ∧
      OneDrawer d.fromDrawer { s.store.drawers.get d.fromDrawer with
        reserved := subCounts (s.store.drawers.get d.fromDrawer).reserved d.tender
        lastApplied := max (s.store.drawers.get d.fromDrawer).lastApplied d.sequence } s t ∧
      t.store.journal = s.store.journal.modify (d.sequence - 1) (markedRecord .none) ∧
      t.store.day = { s.store.day with openCommits := s.store.day.openCommits.erase d.sequence } ∧
      t.port.windows = withResponse d.head 65 .done true [some [.num d.number], some [.num d.sequence],
        if d.head.master ≠ officerMaster ∧ s.store.day.state = .closing ∧
          (s.store.drawers.get d.toDrawer).state ≠ .closed then none else some [.amount d.total],
        some [.flag d.excess]] s.port.windows) ∧
  (∀ s : State, s.power ≠ .up → exec .powerWarning s = .next s ∧ exec .requestHandout s = .next s ∧
    ∀ i h, headOf i = some h → exec i s = .next s) ∧
  (∀ s : State, ∃ t, exec .mainSupplyFall s = .next t ∧
    t.power = .off ∧ t.store = s.store ∧ t.kept = s.kept ∧ t.clock = s.clock ∧ t.pending = s.pending ∧
    t.freeCount = s.freeCount ∧ t.jsu = { s.jsu with holds := 0 } ∧ UnitsPowered s t ∧
    EnginesPowered s t (fun _ => false) ∧ PortPowered t ∧ (∀ m, t.port.windows.get m = emptyWindow) ∧
    t.port.fault.held = false ∧ (∀ p, t.scu.screens.get p = powerUpScreen false) ∧
    (∀ b, t.scu.buffers.get b = if b.val < 27 then partBuffer b else freeBuffer) ∧
    t.scu.idleTimeout = 300 ∧ t.scu.lockText = defaultLockText) ∧
  ∀ s : State, s.power = .off → exec .secondTick s = .next { s with clock := advanceClock s.clock } ∧
    ∀ (m : Fin 8) (w : Word), exec (.postWord m w) s = .next s ∧ exec (.responseTake ⟨m, 65⟩) s = .next s ∧
      exec (.noticeTake m) s = .next s ∧ exec .backplaneReset s = .next s

/-- Power-up with a valid store. With nothing left to replay the store stands as the battery kept it, but reserved
counts follow from the OFFERED transfers, which run their full timeouts again and hold their end records, excess marks
are computed anew and a change of one alerted, printed items go back to their accounts, and a day left SENDING is
SEALED. Open commits whose records stand are replayed, each part made under its own test (R91's table), their marks
set and the list emptied, with cause POWER_UP_REPLAY and a RESTORE_REPLAY fault of the lowest sequence; what one open
commit does is stated whole. Everything volatile has its power-up value in every unit: no counted counts, no quotes and
the made-order count 0 (R62), no jobs, blank notes, the next job id 1 and the seal-answered flag clear (R116, R118, R136),
both engines IDLE without current job and queue, a book found in a feed going into a clearing eject (R115, R119), the
sender, the windows and the order asked; the part rows are rendered, and a position with a teller signed on shows the lock
form; a clock found with its flag clear starts from day 0 with CLOCK_LOST. The withdrawal of a power warning does the same
(R21, R75, R89 to R92, R109, R114, R137, R157, R176, R187 to R190; the book position 0, log entry 54; the deliver of a replayed TRANSFER_IN raises the last applied sequence, log entry 51; the answer kept for a reversal, log
entry 13; the check of a REVERSAL's original, log entry 52; CLOCK_LOST before RESTORE_REPLAY, log entry 23; the
sources of these faults, log entry 40). -/
def Obligations.PowerUpRestoresAValidStore : Prop :=
  (∀ s : State, let x := s.kept.getD s.store
    let u := restoreFrom s x
    let settled (d : DayRecord) : DayRecord := { d with state := if d.state = .sending then .sealed else d.state }
    let returned (a : Account) : Account := { releaseEntry a with jobRef := false }
    x.header.valid = true →
    (x.day.openCommits = [] → ∃ t, exec (.powerUp true) s = .next t ∧ Restored s t x ∧ t.jsu.cause = .clean ∧
      t.store = { x with
        day := settled x.day
        drawers := t.store.drawers
        transfers := t.store.transfers
        accounts := t.store.accounts } ∧
      (∀ n, t.store.drawers.get n = restoredDrawer u n (t.store.drawers.get n).reserved (x.drawers.get n)) ∧
      (∀ i, t.store.accounts.get i = (x.accounts.get i).map returned) ∧
      FaultFound s t none ∧
      t.port.windows = notify (lostNotice s ++ (List.finRange 12).flatMap fun n =>
        let d := x.drawers.get n.castSucc
        markNotices u n.castSucc (newExcess d (homeTotal u d)) (homeTotal u d)) (Table.fill 5 emptyWindow)) ∧
    ∀ q rest, x.day.openCommits = q :: rest → sequencesStand x → (∀ c ∈ q :: rest, Replayable u c) →
      ∃ t, exec (.powerUp true) s = .next t ∧ Restored s t x ∧ t.jsu.cause = .replay ∧
        FaultFound s t (some (.restoreReplay, q)) ∧
        (t.port.windows.get officerMaster).waiting.get 7 =
          some ⟨.fault .restoreReplay .jsu [.num q], if s.clock.valid then 0 else 1⟩ ∧
        t.store = { x with
          day := { settled x.day with openCommits := [] }
          journal := t.store.journal
          drawers := t.store.drawers
          transfers := t.store.transfers
          board := t.store.board
          accounts := t.store.accounts
          lastTaken := t.store.lastTaken
          lastAnswer := t.store.lastAnswer } ∧
        t.store.journal.length = x.journal.length ∧
        (∀ k, k + 1 ∉ q :: rest → t.store.journal[k]? = x.journal[k]?) ∧
        (∀ c ∈ q :: rest, ∀ r, recordAt u c = some r → ∃ d, recordAt t c = some (markedRecord d r)) ∧
        ∀ r, rest = [] → recordAt u q = some r →
          recordAt t q = some (markedRecord (replayedLines u r).2 r) ∧
          (∀ n, t.store.drawers.get n =
            restoredDrawer u n (t.store.drawers.get n).reserved (replayedDrawer u r n)) ∧
          t.store.board = replayedBoard u r ∧
          let lines := (replayedLines u r).1.store
          (∀ i, t.store.accounts.get i = (lines.accounts.get i).map returned) ∧
          t.store.lastTaken = lines.lastTaken ∧ t.store.lastAnswer = lines.lastAnswer) ∧
  ∀ s : State, exec .powerWarningWithdrawn s =
    if s.power = .shut then exec (.powerUp true) s else .next s

/-- Power-up with a store whose marker is clear or whose check disagrees, or with a battery that failed, leaves the
part in STORE_INVALID: the units hold the values of STORE.FORMAT and nothing of the branch store is written (R90).  So do
their volatile records: no counted counts and deliver, no quotes with the made-order count 0 (R62), no jobs, blank notes,
the next job id 1, engines IDLE with empty queues and a book present ejected (R115, R137, R138; book position 0, log entry
54), the sender IDLE, and nothing asked or in execution. So
does an open commit whose record fails its check, or a REVERSAL of a deposit or withdrawal whose original does (log
entry 52): the records before it in the list have been replayed, nothing is made of it or of a later one, and
STORE_CHECK is captured with the sequence that failed (R83, R91). With the battery gone, or the clock's flag found
clear, the clock starts at day 0 and CLOCK_LOST is captured and told to master 4 (R188), before a STORE_CHECK (log
entry 23; the sources are log entry 40). The header a lost battery shows is left open (log entry 3). -/
def Obligations.PowerUpFindsAnInvalidStore : Prop :=
  (∀ (s : State) (before : List Nat) (c q : Nat) (rest : List Nat), let x := s.kept.getD s.store
    let u := restoreFrom s x
    x.header.valid = true → sequencesStand x → x.day.openCommits = before ++ c :: rest → x.day.openCommits.Nodup →
    (∀ b ∈ before, Replayable u b) → FailsAt u c q →
    ∃ t y, exec (.powerUp true) s = .next t ∧ t.power = .up ∧ t.kept = some y ∧
      y.header = x.header ∧ y.day = { x.day with openCommits := c :: rest } ∧
      (∀ k, k + 1 ∉ before → y.journal[k]? = x.journal[k]?) ∧
      (before = [] → y = x ∧ t.port.windows =
        notify (lostNotice s ++ [(officerMaster, .fault .storeCheck .jsu [.num q])]) (Table.fill 5 emptyWindow)) ∧
      t.store = formatStore y.header ∧ t.jsu = ⟨0, .storeInvalid⟩ ∧ t.pending = s.pending ∧ t.clock = u.clock ∧
      UnitsPowered s t ∧ EnginesPowered s t (fun e => e.present || e.inFeed) ∧ PortPowered t ∧
      ScreensPowered (fun _ => false) t.scu ∧ FaultFound s t (some (.storeCheck, q))) ∧
  ∀ (battery : Bool) (s : State), let x := s.kept.getD s.store
    battery = false ∨ x.header.valid = false →
    ∃ t y, exec (.powerUp battery) s = .next t ∧ t.power = .up ∧ t.kept = some y ∧
      (battery = true → y = x) ∧ (battery = false → y = { x with header := y.header } ∧ y.header.valid = false) ∧
      t.store = formatStore y.header ∧ t.jsu = ⟨0, .storeInvalid⟩ ∧ t.pending = s.pending ∧
      UnitsPowered s t ∧ EnginesPowered s t (fun e => e.present || e.inFeed) ∧ PortPowered t ∧
      ScreensPowered (fun _ => false) t.scu ∧
      if battery = true ∧ s.clock.valid = true then
        t.clock = s.clock ∧ t.port.fault.held = false ∧ ∀ m, t.port.windows.get m = emptyWindow
      else
        t.clock = ⟨0, 0, false⟩ ∧ t.port.fault.held = true ∧ t.port.fault.kind = .clockLost ∧
          t.port.windows = notify [(officerMaster, .fault .clockLost .bpp [.num 0])] (Table.fill 5 emptyWindow)

/-- One second tick: the clock advances, rolling over after second 86,399; every HELD quote loses a second of life and
at 0 expires; every OFFERED transfer loses a second and at 0 is returned; every running idle count falls, and at 0 its
position is locked; and, last, the sender's wait, timer or ages count by its state (R57, R71, R152, R170 to R174,
R188; the units' order at one tick is log entry 12; the sender's notices and its fault's source are log entries 36 and
40). Each unit takes the tick in its own order: where an operation asked earlier stands at the Exchange, Transfer,
Screen or Day and Line Unit, where an acceptance is in progress, or where at its end of a transfer a drawer operation,
or at its resending of a carry block an operation of the Passbook Line Unit, was asked earlier, the tick waits behind
it there and changes nothing yet (R29, R48, R67, R100, R144, R159; log entry 12). At the Screen Unit live fields alone are
rendered, and the rows of LIVE and DARK screens that show a buffer so altered are dirty (R144, R148). After a power warning transfers and
the line do no more (R88). -/
def Obligations.SecondTickCountsEverything : Prop :=
  ∀ s : State, s.power ≠ .off → ∃ t, exec .secondTick s = .next t ∧
    let takes (u : UnitName) : Prop := s.power = .up → TickTaken s u
    let free (u : UnitName) : Prop := UnitFree s u
    t.clock = (if s.clock.seconds + 1 < 86400 then { s.clock with seconds := s.clock.seconds + 1 }
      else { s.clock with seconds := 0, day := (s.clock.day + 1) % 65536 }) ∧
    (∀ u ∈ [UnitName.exu, .tru, .scu],
      (takes u → t.port.order.count (.tick u) = s.port.order.count (.tick u)) ∧
      (¬takes u → t.port.order.count (.tick u) = s.port.order.count (.tick u) + 1)) ∧
    (free .exu → free .tru → free .dru → free .scu → free .dlu → free .plu → t.port.order = s.port.order) ∧
    (takes .exu → ∀ i, t.exu.quotes.get i = (s.exu.quotes.get i).map quoteSecond) ∧
    (¬takes .exu → t.exu = s.exu) ∧ t.exu.made = s.exu.made ∧
    (takes .scu → ∀ p, match (s.scu.screens.get p).idle with
      | none => (t.scu.screens.get p).idle = none ∧
          (t.scu.screens.get p).lockHeld = (s.scu.screens.get p).lockHeld
      | some n => if n ≤ 1 then (t.scu.screens.get p).idle = none ∧ (t.scu.screens.get p).lockHeld = true
          else (t.scu.screens.get p).idle = some (n - 1) ∧
            (t.scu.screens.get p).lockHeld = (s.scu.screens.get p).lockHeld) ∧
    (takes .scu → (∀ b, RenderedBuffer (s.scu.buffers.get b) (t.scu.buffers.get b)) ∧ RowsMarked s.scu t.scu) ∧
    (¬takes .scu → t.scu = s.scu) ∧
    (s.power = .up → takes .tru → ∀ i, SlotTicked s (s.store.transfers.get i) (t.store.transfers.get i)) ∧
    (¬takes .tru → t.store.transfers = s.store.transfers ∧ t.store.drawers = s.store.drawers ∧
      t.store.journal = s.store.journal) ∧
    (s.power = .up → ∃ u, UnchangedBut [.clock, .exu, .transfers, .drawers, .journal, .day, .jsu, .buffers, .screens,
        .idles, .locks, .windows, .inExecution, .turns] s u ∧ u.store.day = { s.store.day with
          used := u.store.day.used, openCommits := u.store.day.openCommits } ∧
      ((∀ i a, s.store.transfers.get i = some a → a.state = .offered → 1 < a.remaining) →
        u.store.day = s.store.day ∧ u.store.journal = s.store.journal) ∧
      (UnitFree u .dlu ↔ free .dlu) ∧ (UnitFree u .plu ↔ free .plu) ∧
      (TickTaken u .dlu → SenderTicks u t) ∧ (¬TickTaken u .dlu → t = ask (.tick .dlu) u)) ∧
    (s.power = .shut → t.store = s.store ∧ t.sender = s.sender) ∧
    t.store.positions = s.store.positions ∧ t.store.accounts = s.store.accounts ∧ t.pru = s.pru ∧
    t.store.board = s.store.board ∧ t.kept = s.kept ∧ t.pending = s.pending ∧ t.power = s.power

/-! ### Exchange -/

/-- The whole conversion (R50, R51, R52): the gross is the exact product of A, the rate and the decimals' factor
over 10^6, brought down for BUY and up for SELL; the fee is the gross times the per-mille over 1000 brought up,
raised to the minimum and then lowered to the maximum; the net is the gross less or plus the fee; the cash is the
net brought down or up to a multiple of the cash unit, and the remainder is the difference. -/
def Obligations.ConversionBringsItsStagesToWholeUnits : Prop :=
  ∀ (f : Foreign) (amount rate decimals unit : Nat) (fee : FeeSchedule), decimals ≤ 2 → 0 < unit →
    (∀ dir, let v := convert f dir amount rate decimals unit fee
      v.currency = f ∧ v.amount = amount ∧ v.rate = rate ∧ v.cash % unit = 0 ∧
      ∃ raw, 1000 * raw < v.gross * fee.perMille + 1000 ∧ v.gross * fee.perMille ≤ 1000 * raw ∧
        v.fee = min (max raw fee.minimum) fee.maximum) ∧
    (let v := convert f .buy amount rate decimals unit fee;
      v.gross * 1000000 ≤ amount * rate * 10 ^ (2 - decimals) ∧
      amount * rate * 10 ^ (2 - decimals) < (v.gross + 1) * 1000000 ∧
      (v.fee ≤ v.gross → v.net + v.fee = v.gross) ∧
      v.cash + v.remainder = v.net ∧ v.remainder < unit) ∧
    let v := convert f .sell amount rate decimals unit fee
    amount * rate * 10 ^ (2 - decimals) ≤ v.gross * 1000000 ∧
      v.gross * 1000000 < amount * rate * 10 ^ (2 - decimals) + 1000000 ∧
      v.net = v.gross + v.fee ∧ v.cash = v.net + v.remainder ∧ v.remainder < unit

/-- QUOTE.REQUEST with its checks passed makes a HELD quote: the number is the first from the next one on that the
table does not hold, the slot the lowest empty one or else the lowest with an ended quote, the values those of the
conversion at the board as it stands: at the buy rate with the buy fees for BUY, at the sell rate with the sell fees
for SELL, with the decimals of the foreign currency and the cash unit, which is the lowest home denomination; the life
the board's lifetime; of a position's two HELD quotes the older is superseded. The answer gives the quote whole (R48,
R50 to R56; A and r of three words are log entry 46, and a bit of the presence mask for each value of R56 log entry
60). -/
def Obligations.QuoteRequestMakesAHeldQuote : Prop :=
  ∀ (h : ReqHead) (p : Position) (f : Foreign) (dir : Direction) (amount : Nat) (s : State)
    (old : Option (Fin 16 × Quote)) (buy sell : Nat),
    let i : Instr := .quoteRequest h ⟨.value p.val, .value (f.val + 1), .value dir, .value amount⟩
    let e := s.store.board.rows.get f
    let decimals := (s.store.currencies.get (currencyOf f)).decimals
    let unit := faceOf s (denomOf 0 0)
    let v := match dir with
      | .buy => convert f .buy amount buy decimals unit e.buyFee
      | .sell => convert f .sell amount sell decimals unit e.sellFee
    let lowest := faceOf s (denomOf (currencyOf f) 0)
    InService h i s → MayActFor h s p → s.store.day.state = .opened →
    (s.store.positions.get p).drawer.isSome → (s.scu.screens.get p).lockHeld = false →
    isDefined s (currencyOf f) = true → 1 ≤ amount → amount ≤ 1000000000 → amount % lowest = 0 →
    e.rates = some (buy, sell) → v.gross ≤ 99999999999 →
    (dir = .buy → v.fee < v.gross ∧ 0 < v.cash) → (dir = .sell → v.net ≤ 99999999999) →
    Supersedes s p old → (∃ j, ∀ q, afterSuperseding s old j = some q → q.state ≠ .held) →
    ∃ t j number, exec i s = .next t ∧
      UnchangedBut [.exu, .board, .buffers, .screens, .idles, .windows, .responses, .inExecution, .turns] s t ∧
      Rendered (restartedScu s p) t.scu ∧
      TakenSlot (afterSuperseding s old) (fun q => q.state ≠ .held) j ∧
      FirstFreeNumber (fun x => ∃ k q, s.exu.quotes.get k = some q ∧ q.number = x) 65535 s.store.board.nextQuote
        number ∧
      t.store.board = { s.store.board with nextQuote := if number < 65535 then number + 1 else 1 } ∧
      t.exu.made = s.exu.made + 1 ∧
      (∀ k, t.exu.quotes.get k = if k = j then
          some ⟨number, .held, p, s.exu.made + 1, dir, v, s.store.board.generation, s.store.board.lifetime⟩
        else afterSuperseding s old k) ∧
      Answered h 50 .done true [some [.num number], some [.num (f.val + 1)],
        some [.num (match dir with | .buy => 1 | .sell => 2)], some [.amount amount], some [.wide v.rate],
        some [.amount v.gross], some [.amount v.fee], some [.amount v.net], some [.amount v.cash],
        some [.amount v.remainder], some [.num s.store.board.generation], some [.num s.store.board.lifetime],
        old.map fun e => [.num e.2.number]] [] s t

/-- QUOTE.RELEASE of a quote HELD for the position ends it EXPIRED, RELEASED, and changes nothing else (R58).  A HELD
quote whose life runs out ends EXPIRED, TIME, and its position's serving master is told its number; a quote with more life
left, an ended one and a number not held are left alone, and so is every quote while an operation asked earlier stands at
the Exchange Unit (R48, R57; the command stands for the tick's part at one quote, log entry 12). -/
def Obligations.QuotesEndByReleaseAndByTime : Prop :=
  (∀ (h : ReqHead) (p : Position) (number : Nat) (i : Fin 16) (q : Quote) (s : State),
    let c : Instr := .quoteRelease h ⟨.value p.val, .value number⟩
    InService h c s → MayActFor h s p → 1 ≤ number → number ≤ 65535 →
    FirstWith s.exu.quotes (fun x => x.number = number) i q → q.state = .held → q.position = p →
    ∃ t, exec c s = .next t ∧
      UnchangedBut [.exu, .buffers, .screens, .idles, .windows, .responses, .inExecution, .turns] s t ∧
      Rendered (restartedScu s p) t.scu ∧
      t.exu = { s.exu with quotes := s.exu.quotes.set i (some { q with state := .expired .released }) } ∧
      Answered h 51 .done false [] [] s t) ∧
  ∀ (number : Nat) (s : State), s.power = .up →
    (¬UnitFree s .exu → exec (.quoteTimeExpiry number) s = .next s) ∧
    (∀ i q, FirstWith s.exu.quotes (fun x => x.number = number) i q → q.state = .held → q.life ≤ 1 → UnitFree s .exu →
      ∃ t, exec (.quoteTimeExpiry number) s = .next t ∧
        UnchangedBut [.exu, .windows, .buffers, .screens, .inExecution] s t ∧ Rendered s.scu t.scu ∧
        t.exu = { s.exu with
          quotes := s.exu.quotes.set i (some { q with state := .expired .time, life := 0 }) } ∧
        t.port.windows = notify [(servingMaster s q.position, .quoteExpired number)] s.port.windows) ∧
    ((∀ i q, FirstWith s.exu.quotes (fun x => x.number = number) i q → q.state ≠ .held ∨ 1 < q.life) →
      exec (.quoteTimeExpiry number) s = .next s)

/-- RATE.SET and FEE.SET with their checks passed append a RATE_CHANGE record with the whole entry, write it to
the board with the generation raised by 1, and answer what they set; the first leaves the fees, the second the rates,
and a quote lifetime given is clamped into 30 to 900 (R45, R46, R47, R49). -/
def Obligations.RatesAndFeesAreCommittedWithARecord : Prop :=
  ∀ (h : ReqHead) (f : Foreign) (s : State), FromOfficer h → JournalWhole s →
    s.store.day.state = .opened ∨ s.store.day.state = .closing → isDefined s (currencyOf f) = true →
    s.store.day.used + s.jsu.holds + 1 ≤ 16352 →
    let old := s.store.board.rows.get f
    let generation := (s.store.board.generation + 1) % 65536
    (∀ buy sell : Nat, let c : Instr := .rateSet h ⟨.value (f.val + 1), .value buy, .value sell⟩
      InService h c s → 1 ≤ buy → buy ≤ sell → sell ≤ 99999999 →
      let e := { old with rates := some (buy, sell) }
      ∃ t, exec c s = .next t ∧
        UnchangedBut [.journal, .day, .board, .buffers, .screens, .windows, .responses, .inExecution, .turns] s t ∧
        Rendered s.scu t.scu ∧
        t.store.board = { s.store.board with
          rows := s.store.board.rows.set f e
          generation := generation
          lastApplied := s.store.day.used + 1 } ∧
        Committed { emptyRecord .rateChange with
          exchange := some (.board f e s.store.board.lifetime generation) } .none s t ∧
        Answered h 48 .done false [some [.num (f.val + 1)], some [.wide buy], some [.wide sell],
          some [.num generation]] (highNotice s) s t) ∧
    ∀ (buy sell : FeeFields) (lifetime : Fld Nat),
      let c : Instr := .feeSet h ⟨.value (f.val + 1), .value buy, .value sell, lifetime⟩
      InService h c s → lifetime ≠ .malformed →
      (∀ x ∈ [buy, sell], x.perMille ≤ 50 ∧ 0 ≤ x.minimum ∧ x.minimum ≤ x.maximum ∧ x.maximum ≤ 99999999999) →
      let e : BoardEntry := ⟨old.rates, ⟨buy.perMille, buy.minimum.toNat, buy.maximum.toNat⟩,
        ⟨sell.perMille, sell.minimum.toNat, sell.maximum.toNat⟩⟩
      let life := match lifetime with
        | .value n => max 30 (min 900 n)
        | _ => s.store.board.lifetime
      ∃ t, exec c s = .next t ∧
        UnchangedBut [.journal, .day, .board, .windows, .responses, .inExecution, .turns] s t ∧
        t.store.board = { s.store.board with
          rows := s.store.board.rows.set f e
          lifetime := life
          generation := generation
          lastApplied := s.store.day.used + 1 } ∧
        Committed { emptyRecord .rateChange with exchange := some (.board f e life generation) } .none s t ∧
        Answered h 49 .done false
          [some [.num buy.perMille, .amount buy.minimum, .amount buy.maximum],
           some [.num sell.perMille, .amount sell.minimum, .amount sell.maximum], some [.num life],
           some [.num generation]] (highNotice s) s t

/-! ### Drawers -/

/-- CURRENCY.DEFINE, in NO_DAY with every count of the currency zero, stores the entry, zeroes the drawers' totals
in that currency, and for a foreign currency empties its board entry and raises the generation; a face count of 0
makes a foreign currency undefined (R1, R2, R44).  The decimals 0 of its entry then are the MODEL's choice, log entry 56:
R1 and R2 give an undefined currency no decimals. -/
def Obligations.CurrenciesAreDefinedWhileNoneIsHeld : Prop :=
  ∀ (h : ReqHead) (c : Currency) (s : State), FromOfficer h → s.store.day.state = .noDay →
    (∀ n x, denomCurrency x = c → (s.store.drawers.get n).current.get x = 0 ∧
      (s.store.drawers.get n).reserved.get x = 0 ∧ (s.store.drawers.get n).opening.get x = 0) →
    let Takes (i : Instr) (e : CurrencyEntry) : Prop := InService h i s → ∃ t, exec i s = .next t ∧
      UnchangedBut [.currencies, .drawers, .board, .buffers, .screens, .windows, .responses, .inExecution, .turns] s t ∧
      Rendered s.scu t.scu ∧ t.store.currencies = s.store.currencies.set c e ∧
      (∀ n, t.store.drawers.get n = { s.store.drawers.get n with
        receipts := (s.store.drawers.get n).receipts.set c 0
        payments := (s.store.drawers.get n).payments.set c 0
        transfersIn := (s.store.drawers.get n).transfersIn.set c 0
        transfersOut := (s.store.drawers.get n).transfersOut.set c 0 }) ∧
      (c = 0 → t.store.board = s.store.board) ∧
      (∀ f, currencyOf f = c → t.store.board = { s.store.board with
        rows := s.store.board.rows.set f ⟨none, ⟨0, 0, 0⟩, ⟨0, 0, 0⟩⟩
        generation := (s.store.board.generation + 1) % 65536 }) ∧
      Answered h 16 .done false [] [] s t
    (∀ (decimals : Nat) (faces : List Nat), (decimals = 2 ∨ c ≠ 0 ∧ decimals = 0) → faces ≠ [] →
      faces.length ≤ 12 → faces.Pairwise (· < ·) → (∀ a ∈ faces, 1 ≤ a ∧ a ≤ 1000000) →
      Takes (.currencyDefine h ⟨.value c.val, .value decimals, .value faces.length, .value faces⟩)
        ⟨true, decimals, faces⟩) ∧
    (c ≠ 0 → ∀ decimals : Fld Nat, Takes (.currencyDefine h ⟨.value c.val, decimals, .value 0, .absent⟩)
      ⟨false, 0, []⟩)

/-- DRAWER.SIGNON binds drawer and position in both tables, opens an IDLE drawer, starts the position's idle count,
and asks the Transfer Unit to raise again "offered to your drawer" for each OFFERED transfer to the drawer, in
ascending number, which waits where that unit is not free (R67); it answers state, home total and mark, the total kept
from a station master while the day is CLOSING (R13, R15, R73, R152). -/
def Obligations.SignonBindsDrawerAndPosition : Prop :=
  ∀ (h : ReqHead) (p : Position) (teller : Nat) (n : Fin 12) (s : State), let d : DrawerNo := n.castSucc
    let i : Instr := .drawerSignon h ⟨.value p.val, .value teller, .value n.val⟩
    let old := s.store.drawers.get d
    InService h i s → MayActFor h s p → s.store.day.state = .opened ∨ s.store.day.state = .closing →
    1 ≤ teller → teller ≤ 9999 → (s.store.positions.get p).drawer = none →
    (s.store.positions.get p).teller = none → old.bound = none → old.state ≠ .closed →
    ∃ t offers, exec i s = .next t ∧
      UnchangedBut [.drawers, .bounds, .positions, .idles, .buffers, .screens, .windows, .responses,
        .inExecution, .turns] s t ∧
      Rendered (restartedScu { s with store := t.store } p) t.scu ∧
      t.store.positions = s.store.positions.set p
        { s.store.positions.get p with drawer := some d, teller := some teller } ∧
      OneDrawer d { old with bound := some p, state := if old.state = .idle then .opened else old.state } s t ∧
      OffersTo s d offers ∧ (UnitFree s .tru → t.port.order = s.port.order.erase (.request h.master)) ∧
      (¬UnitFree s .tru → t.port.order = (s.port.order ++ [Asked.reraise d]).erase (.request h.master)) ∧
      t.port.inExecution = s.port.inExecution.set h.master none ∧
      ∃ raised, (UnitFree s .tru → raised = offers) ∧ (¬UnitFree s .tru → raised = []) ∧
      t.port.windows = withResponse h 17 .done true
        [some [.num (if old.state = .idle then 2 else old.state.place)],
         if h.master ≠ officerMaster ∧ s.store.day.state = .closing then none
         else some [.amount (homeTotal s old)], some [.flag old.excess]]
        (notify (raised.map fun a => (servingMaster s p, .transfer .offered a.number a.fromDrawer a.toDrawer))
          s.port.windows)

/-- DRAWER.SIGNOFF, in every day state and whether or not the screen is LOCKED, ends the binding in both tables,
expires every HELD quote of the position with reason SIGNOFF, stops the idle count and clears lock held; the
drawer's state, counts and totals stay (R14, R59, R153). -/
def Obligations.SignoffEndsTheBinding : Prop :=
  ∀ (h : ReqHead) (p : Position) (d : DrawerNo) (s : State), let i : Instr := .drawerSignoff h (.value p.val)
    InService h i s → MayActFor h s p → (s.store.positions.get p).teller.isSome →
    (s.store.positions.get p).drawer = some d →
    ∃ t, exec i s = .next t ∧
      UnchangedBut [.drawers, .bounds, .positions, .exu, .locks, .idles, .buffers, .screens, .windows, .responses,
        .inExecution, .turns] s t ∧
      t.store.positions = s.store.positions.set p { s.store.positions.get p with drawer := none, teller := none } ∧
      OneDrawer d { s.store.drawers.get d with bound := none } s t ∧
      (∀ j, t.exu.quotes.get j = (s.exu.quotes.get j).map fun q =>
        if q.state = .held ∧ q.position = p then { q with state := .expired .signoff } else q) ∧
      t.exu.made = s.exu.made ∧
      Rendered { s.scu with screens := s.scu.screens.modify p fun x =>
        { x with
          idle := none
          lockHeld := false
          dirty := if x.lockHeld = true ∧ x.silent = false then Table.fill 24 true else x.dirty } } t.scu ∧
      Answered h 18 .done false [some [.num d.val]] [] s t

/-- DRAWER.LIMITS stores the two limits and evaluates the excess mark against the home total as it stands: a
clear mark is set when the hard limit is not 0 and the total is above it, a set one is cleared when the hard limit
is 0 or the total is at or below the clearing level, and a change of the mark is alerted (R8, R9). -/
def Obligations.LimitsAreStoredAndTheMarkEvaluated : Prop :=
  ∀ (h : ReqHead) (n : Fin 12) (soft hard : Nat) (s : State), let d : DrawerNo := n.castSucc
    let i : Instr := .drawerLimits h ⟨.value n.val, .value soft, .value hard⟩
    let old := s.store.drawers.get d
    let total := homeTotal s old
    let mark := if old.excess = true then !(hard == 0 || total ≤ if soft ≠ 0 then soft else hard)
      else hard != 0 && decide (hard < total)
    InService h i s → FromOfficer h → soft ≤ 99999999999 → hard ≤ 99999999999 →
    (soft = 0 ∨ hard = 0 ∨ soft ≤ hard) →
    ∃ t, exec i s = .next t ∧
      UnchangedBut [.drawers, .buffers, .screens, .windows, .responses, .inExecution, .turns] s t ∧
      Rendered s.scu t.scu ∧ OneDrawer d { old with soft := soft, hard := hard, excess := mark } s t ∧
      Answered h 19 .done false
        [some [.amount soft], some [.amount hard], some [.amount total], some [.flag mark]]
        (markNotices s d mark total) s t

/-- DRAWER.COUNT while the day is CLOSING: counts that agree append a DRAWER_CLOSE record with the closing counts and
close the drawer; counts that disagree are kept, raise the attempts by 1 and leave DIFFERENCE, with no record, and
answer the difference in value of each defined currency. A drawer in DIFFERENCE is counted below 3 attempts, or on the
officer's flag below 4, its attempts standing at 3 (R15, R16, R18; that "balanced" is answered 1 and "difference" 2 is
log entry 7, that the differences carry no count word log entry 17, and that the response begins with no mask log
entry 58). -/
def Obligations.CountsCloseADrawerOrLeaveADifference : Prop :=
  ∀ (h : ReqHead) (n : DrawerNo) (l : List Nat) (s : State),
    let i : Instr := .drawerCount h ⟨.value n.val, .value l⟩
    let d := s.store.drawers.get n
    let counted := countsOfList s l
    InService h i s → h.spare = false → (h.officer = true → h.master = officerMaster) →
    (h.master = officerMaster ∨ ∃ p, d.bound = some p ∧ servingMaster s p = h.master) →
    s.store.day.state = .closing → l.length = (definedDenoms s).length → (∀ a ∈ l, a ≤ 65535) →
    d.state ≠ .closed → (d.state = .difference → d.attempts < if h.officer then 4 else 3) →
    (∀ x, d.reserved.get x = 0) → (∀ j a, s.store.transfers.get j = some a → a.state = .offered → a.toDrawer ≠ n) →
    ∃ t, exec i s = .next t ∧
      UnchangedBut [.journal, .day, .drawers, .counted, .buffers, .screens, .windows, .responses,
        .inExecution, .turns] s t ∧
      Rendered s.scu t.scu ∧
      ((∃ x ∈ definedDenoms s, counted.get x ≠ d.current.get x) →
        t.store.journal = s.store.journal ∧ t.store.day = s.store.day ∧
          t.counted = s.counted.set n (some counted) ∧
          OneDrawer n { d with state := .difference, attempts := min 3 (d.attempts + 1) } s t ∧
          Answered h 20 .done false [some [.num 2], some [.num (min 3 (d.attempts + 1))],
            some ((definedCurrencies s).map fun c =>
              .amount ((valueOf s c counted : Int) - valueOf s c d.current))] [] s t) ∧
      ((∀ x ∈ definedDenoms s, counted.get x = d.current.get x) → JournalWhole s →
        s.store.day.used + s.jsu.holds + 1 ≤ 16383 →
        Committed { emptyRecord .drawerClose with
            position := d.bound
            teller := d.bound.bind fun p => (s.store.positions.get p).teller
            drawer := some n
            tender := (definedDenoms s).map fun x => (x, (d.current.get x : Int)) } .none s t ∧
          t.counted = s.counted.set n none ∧
          OneDrawer n { d with state := .closed, lastApplied := s.store.day.used + 1 } s t ∧
          Answered h 20 .done false [some [.num 1]] (highNotice s) s t)

/-- DRAWER.ACCEPT makes the last counted counts of a drawer in DIFFERENCE its current counts: one DIFFERENCE record
for each defined currency with any difference, carrying its deltas, then a DRAWER_CLOSE record with the new counts;
the drawer is CLOSED, its counted counts absent and its attempts kept (R17). -/
def Obligations.AcceptedDifferencesBecomeTheCounts : Prop :=
  ∀ (h : ReqHead) (n : DrawerNo) (counted : Counts) (s : State), let i : Instr := .drawerAccept h (.value n.val)
    let d := s.store.drawers.get n
    let cs := (definedCurrencies s).filter fun c => (slotsOf c).any fun x => counted.get x != d.current.get x
    let used := s.store.day.used
    InService h i s → FromOfficer h → s.store.day.state = .closing → d.state = .difference →
    s.counted.get n = some counted → (∀ x, denomCurrency x ∉ definedCurrencies s → counted.get x = d.current.get x) →
    JournalWhole s → used + s.jsu.holds + cs.length + 1 ≤ 16383 →
    ∃ t, exec i s = .next t ∧
      UnchangedBut [.journal, .day, .drawers, .counted, .buffers, .screens, .windows, .responses,
        .inExecution, .turns] s t ∧
      Rendered s.scu t.scu ∧ t.counted = s.counted.set n none ∧
      OneDrawer n { d with
        state := .closed
        current := counted
        receipts := (t.store.drawers.get n).receipts
        payments := (t.store.drawers.get n).payments
        excess := markAfter s n counted
        lastApplied := used + cs.length + 1 } s t ∧
      (∀ c, (t.store.drawers.get n).receipts.get c + valueOf s c d.current + (d.payments.get c) =
        d.receipts.get c + valueOf s c counted + (t.store.drawers.get n).payments.get c) ∧
      t.store.day = { s.store.day with used := used + cs.length + 1 } ∧
      t.store.journal.take used = s.store.journal.take used ∧
      t.store.journal.drop (used + cs.length + 1) = s.store.journal.drop (used + cs.length + 1) ∧
      (∀ k (hk : k < cs.length), ∃ r, t.store.journal[used + k]? = some r ∧ r.kind = .difference ∧
        r.sequence = used + k + 1 ∧ r.drawer = some n ∧ r.position = d.bound ∧ r.applied = true ∧
        r.checkOk = true ∧
        r.tender = ((slotsOf cs[k]).filter fun x => counted.get x != d.current.get x).map fun x =>
          (x, (counted.get x : Int) - d.current.get x)) ∧
      (∃ r, t.store.journal[used + cs.length]? = some r ∧ r.kind = .drawerClose ∧
        r.sequence = used + cs.length + 1 ∧ r.drawer = some n ∧ r.applied = true ∧ r.checkOk = true ∧
        r.tender = (definedDenoms s).map fun x => (x, (counted.get x : Int))) ∧
      t.port.inExecution = s.port.inExecution.set h.master none ∧ t.port.order = s.port.order.erase (.request h.master) ∧
      ∀ m, { t.port.windows.get m with waiting := (s.port.windows.get m).waiting } =
        (withResponse h 21 .done false
          [some [.num cs.length], some ((List.range cs.length).map fun k => .num (used + 1 + k))]
          s.port.windows).get m

/-- Cash changes keep a drawer's report whole: in every currency the value of the counts moves by receipts less
payments, when no count would fall below zero (R4, R19). -/
def Obligations.CashChangesKeepTheReport : Prop :=
  ∀ (n : DrawerNo) (deltas : Deltas) (sequence : Nat) (tally : Int) (s : State),
    (∀ x, 0 ≤ ((s.store.drawers.get n).current.get x : Int) + deltas.get x) →
    let t := cashChange n deltas sequence tally s
    let d := s.store.drawers.get n
    OneDrawer n (afterCash s n deltas sequence tally) s t ∧ Rendered s.scu t.scu ∧
      (s.power = .up → t.port.windows = notify (cashNotices s n (applyDeltas d.current deltas)) s.port.windows) ∧
      ∀ c, let e := t.store.drawers.get n
        (valueOf t c e.current : Int) - valueOf s c d.current =
          ((e.receipts.get c : Int) - d.receipts.get c) - ((e.payments.get c : Int) - d.payments.get c)

/-! ### Postings and reversals -/

/-- CASH.POST with every check of R24 passed, for each of the five kinds: one POSTING record with the next
sequence, its deltas, home amount and, for an exchange, the quote's frozen values; the drawer changed by the net
deltas with the quote's remainder on the tally; the quote USED; a deposit or withdrawal handed to the Passbook Line
Unit, whose answer is the record's disposition; the alerts raised before the answer (R4, R6, R24, R26, R30 to
R35, R60; A and r of three words are log entry 46, the exchange values as one field of the presence mask log entry 60). -/
def Obligations.PostingsCommitRecordDrawerQuoteAndLine : Prop :=
  ∀ (h : ReqHead) (r : PostReq) (k : PostKind) (p : Position) (n : DrawerNo) (account amount number narrative : Nat)
    (l : List PostEntry) (j : Fin 16) (q : Quote) (s : State), let i : Instr := .cashPost h r
    let exchange : Bool := k = .exchangeBuy ∨ k = .exchangeSell
    let d := s.store.drawers.get n
    let deltas := netDeltas l
    let v := q.values
    let sequence := s.store.day.used + 1
    InService h i s → MayActFor h s p → JournalWhole s → s.store.day.state = .opened →
    (s.store.positions.get p).drawer = some n → (s.scu.screens.get p).lockHeld = false →
    r.position = .value p.val → r.kind = .value k → r.narrative = .value narrative → narrative ≤ 63 →
    r.tender = .value l → PostFields k r account amount number →
    1 ≤ l.length → l.length ≤ 12 →
    (∀ e ∈ l, namesDenom s e.currency e.index = true ∧ e.countIn ≤ 65535 ∧ e.countOut ≤ 65535 ∧
      (0 < e.countIn ∨ 0 < e.countOut)) →
    (exchange = true → FirstWith s.exu.quotes (fun x => x.number = number) j q ∧ q.state = .held ∧ q.position = p ∧
      q.direction = if k = .exchangeBuy then .buy else .sell) →
    (∀ c, match requiredNet k amount v c with
      | some x => deltaValue s c deltas = x
      | none => ∀ e ∈ l, e.currency ≠ c.val) →
    (k = .change → ∃ x, deltas.get x ≠ 0) → (k = .deposit ∨ k = .exchangeSell → d.excess = false) →
    FitsDrawer d deltas → s.store.day.used + s.jsu.holds + 1 ≤ 16352 →
    let record : Record := { emptyRecord .posting with
      sequence := sequence
      position := some p
      teller := (s.store.positions.get p).teller
      drawer := some n
      account := match r.account with | .value a => some a | _ => none
      postKind := some k
      homeAmount := some (match k with
        | .deposit => (amount : Int) | .withdrawal => -amount | .exchangeBuy => -v.cash
        | .exchangeSell => v.cash | .change => 0)
      exchange := if exchange then some (.conversion v number) else none
      tender := (denoms.filter fun x => deltas.get x != 0).map fun x => (x, deltas.get x)
      narrative := some narrative
      balance := match r.balance with | .value b => some b | _ => none }
    let line := lineOf k record s
    let after := afterCash s n deltas sequence (if exchange then v.remainder else 0)
    ∃ t, exec i s = .next t ∧
      UnchangedBut [.journal, .day, .exu, .drawers, .accounts, .lastTaken, .buffers, .screens, .idles, .windows,
        .responses, .inExecution, .turns] s t ∧
      Rendered (restartedScu s p) t.scu ∧ Committed record line.2 s t ∧ OneDrawer n after s t ∧
      t.exu = (if exchange then { s.exu with quotes := s.exu.quotes.set j (some { q with state := .used }) }
        else s.exu) ∧
      t.store.accounts = line.1.store.accounts ∧ t.store.lastTaken = line.1.store.lastTaken ∧
      t.store.lastAnswer = s.store.lastAnswer ∧
      Answered h 32 .done true
        [some [.num sequence], some [.num n.val], some [.amount (homeTotal s after)], some [.flag after.excess],
         some [.num line.2.place],
         if exchange then some [.amount v.amount, .amount v.cash, .amount v.remainder, .num number] else none]
        (highNotice s ++ cashNotices s n after.current ++ fullNotice s record line.2) s t

/-- The line intake of a deposit or withdrawal: a key already taken changes nothing; an account with neither an entry
nor a passbook class gets no line; otherwise the line joins the entry's list, room made by discarding the oldest void
line, else by folding the oldest pending line, else by folding the arriving line itself, and a list in key order stays so
in each of these cases; an account of a passbook class without an entry takes the lowest empty one, or else a
reclaimable one cleared for it. Every handover but a repeated one sets the last taken key; a repeated one is answered HELD where the line is held under its key, else
NOT_HELD for an account of a passbook class, else NONE (R99, R101 to R103).

What the words say that this statement and others use: a line folds into a summary of count 1, or adds 1 to its count and
its amount to its net, with the lower first and the higher last key (R103; the stop of the count at 65,535 is log entry
63); an entry is reclaimable that holds no line but void ones, no summary, no taken summary, no job reference and no
new-book flag (R102); a released snapshot leaves its lines pending, in their places, and its taken summary becomes the
account's, or the two are merged: counts added to at most 65,535, nets added, the lower first and the higher last key
(R109). -/
def Obligations.LinesJoinTheirAccount : Prop :=
  (∀ (o : Option Summary) (l : Line), foldInto o l = match o with
    | none => ⟨1, l.amount, l.key, l.key⟩
    | some m => ⟨min 65535 (m.count + 1), m.net + l.amount, lowerKey m.first l.key, higherKey m.last l.key⟩) ∧
  (∀ e : Account, isReclaimable e = true ↔ (∀ l ∈ e.lines, l.void = true) ∧ e.summary = none ∧ e.taken = none ∧
    e.jobRef = false ∧ e.newBook = false) ∧
  (∀ e : Account, releaseEntry e = { e with
    lines := e.lines.map fun l => { l with inSnapshot := false }
    summary := match e.summary, e.taken with
      | m, none => m
      | none, some t => some t
      | some m, some t => some ⟨min 65535 (m.count + t.count), m.net + t.net, lowerKey m.first t.first,
          higherKey m.last t.last⟩
    taken := none }) ∧
  ∀ (r : Record) (a : Nat) (amount : Int) (s : State),
    let k : Key := ⟨s.store.day.date.getD 0, r.sequence⟩
    let line : Line := ⟨k, r.narrative.getD 0, amount, r.balance, none, false, false⟩
    r.account = some a → r.homeAmount = some amount →
    (alreadyTaken s k = true → (intakeLine r s).1 = s ∧
      (∀ i e, FirstWith s.store.accounts (fun e => e.number = a) i e → (∃ l ∈ e.lines, l.key = k) →
        (intakeLine r s).2 = .held) ∧
      ((∀ i e, FirstWith s.store.accounts (fun e => e.number = a) i e → ∀ l ∈ e.lines, l.key ≠ k) →
        (intakeLine r s).2 = if isPassbook s a = true then .notHeld else .none)) ∧
    (alreadyTaken s k = false →
      let u := intakeLine r s
      u.1.store.lastTaken = some k ∧ u.1.store.lastAnswer = s.store.lastAnswer ∧
      UnchangedBut [.accounts, .lastTaken, .windows] s u.1 ∧
      ((∀ i e, s.store.accounts.get i = some e → e.number ≠ a) → isPassbook s a = false →
        u.2 = .none ∧ u.1.store.accounts = s.store.accounts) ∧
      (∀ i e, FirstWith s.store.accounts (fun e => e.number = a) i e →
        u.2 = .held ∧ ∃ x, u.1.store.accounts = s.store.accounts.set i (some x) ∧
          { x with lines := e.lines, summary := e.summary, activeDay := e.activeDay,
                   activeSecond := e.activeSecond } = e ∧
          x.activeDay = s.clock.day ∧ x.activeSecond = s.clock.seconds ∧
          (e.lines.Pairwise (fun b c => c.key.lt b.key = false) →
            x.lines.Pairwise (fun b c => c.key.lt b.key = false)) ∧
          (e.lines.length < 24 → x.summary = e.summary ∧ x.lines.Perm (line :: e.lines)) ∧
          (24 ≤ e.lines.length → (∃ b ∈ e.lines, b.void = true) → x.summary = e.summary ∧
            ∃ b, e.lines.find? (fun c => c.void) = some b ∧ (b :: x.lines).Perm (line :: e.lines)) ∧
          (24 ≤ e.lines.length → (∀ b ∈ e.lines, b.void = false) →
            match e.lines.find? (fun c => !c.inSnapshot) with
            | some b => (b :: x.lines).Perm (line :: e.lines) ∧ x.summary = some (foldInto e.summary b)
            | none => x.lines = e.lines ∧ x.summary = some (foldInto e.summary line))) ∧
      ((∀ i e, s.store.accounts.get i = some e → e.number ≠ a) → isPassbook s a = true →
        (∀ i, TakenSlot s.store.accounts.get
            (fun e => isReclaimable e = true ∧ ∀ j f, s.store.accounts.get j = some f → isReclaimable f = true →
              e.activeDay < f.activeDay ∨ e.activeDay = f.activeDay ∧ e.activeSecond ≤ f.activeSecond) i →
          u.2 = .held ∧ u.1.store.accounts = s.store.accounts.set i
            (some ⟨a, [line], none, none, none, false, false, s.clock.day, s.clock.seconds⟩)) ∧
        ((∀ i, ∃ e, s.store.accounts.get i = some e ∧ isReclaimable e = false) →
          u.2 = .notHeld ∧ u.1.store.accounts = s.store.accounts ∧
            (s.power = .up → u.1.port.windows = notify [(officerMaster, .passbookFull a)] s.port.windows))))

/-- CASH.REVERSE of a posting of the same drawer that no REVERSAL names: a REVERSAL record with the inverse deltas and
the home amount negated, the drawer changed by them, the remainder taken off the tally, and the Passbook Line Unit's
answer; the quote stays as it is (R38, R40 to R42; the numbers 1 to 4 of the line answer are log entry 7). The
reversal is refused WRONG_STATE where the original's record check fails or it is no posting of that drawer, and where
the search that every lookup makes from the next sequence up first meets a REVERSAL that names the posting or fails
its own check (R39, R95). Each record read whose check fails, the original among them, is captured as a STORE_CHECK
fault and told to master 4, and one that is no REVERSAL does not end the search (R83, R95; the search's order and end,
and that it is made after the original's check has failed, are log entry 47). -/
def Obligations.ReversalsApplyTheInverse : Prop :=
  ∀ (h : ReqHead) (p : Position) (n : DrawerNo) (sequence : Nat) (o : Record) (s : State),
    let i : Instr := .cashReverse h ⟨.value p.val, .value sequence⟩
    let d := s.store.drawers.get n
    let next := s.store.day.used + 1
    InService h i s → MayActFor h s p → JournalWhole s → JournalInv s → s.store.day.state = .opened →
    (s.store.positions.get p).drawer = some n → (s.scu.screens.get p).lockHeld = false →
    1 ≤ sequence → sequence ≤ s.store.day.used → sequence ≤ 16384 → s.store.journal[sequence - 1]? = some o →
    let later := (s.store.journal.take s.store.day.used).drop sequence
    let Refused (read : List Record) : Prop := ∃ t, exec i s = .next t ∧
      UnchangedBut [.fault, .screens, .idles, .windows, .responses, .inExecution, .turns] s t ∧
      t.scu = restartedScu s p ∧ t.port.fault = faultAfterChecks s (o :: read) ∧
      Answered h 33 .wrongState false [] (checkNotices (o :: read)) s t
    (∀ passed r rest, later = passed ++ r :: rest →
      (∀ x ∈ passed, x.kind = .reversal → x.checkOk = true ∧ x.reverses ≠ some sequence) →
      r.kind = .reversal → (r.checkOk = false ∨ r.reverses = some sequence) → Refused (passed ++ [r])) ∧
    (o.checkOk = false ∨ o.kind ≠ .posting ∨ o.drawer ≠ some n →
      (∀ r ∈ later, r.kind = .reversal → r.checkOk = true ∧ r.reverses ≠ some sequence) → Refused later) ∧
    (o.checkOk = true → o.kind = .posting → o.drawer = some n →
      (∀ r ∈ later, r.kind = .reversal → r.checkOk = true ∧ r.reverses ≠ some sequence) →
      let inverse : Deltas := negate (entryDeltas o.tender)
      (o.postKind = some .withdrawal ∨ o.postKind = some .exchangeBuy → d.excess = false) →
      FitsDrawer d inverse → s.store.day.used + s.jsu.holds + 1 ≤ 16352 →
      let record : Record := { emptyRecord .reversal with
        sequence := next
        position := some p
        teller := (s.store.positions.get p).teller
        drawer := some n
        account := o.account
        postKind := o.postKind
        homeAmount := o.homeAmount.map fun x => -x
        exchange := o.exchange
        tender := (denoms.filter fun x => inverse.get x != 0).map fun x => (x, inverse.get x)
        narrative := o.narrative
        reverses := some sequence }
      let line := if o.postKind = some .deposit ∨ o.postKind = some .withdrawal then
        handReversal record sequence o.disposition s else (s, .none)
      let after := afterCash s n inverse next (match o.exchange with
        | some (.conversion v _) => -(v.remainder : Int)
        | _ => 0)
      ∃ t, exec i s = .next t ∧
        UnchangedBut [.journal, .day, .drawers, .accounts, .lastTaken, .fault, .buffers, .screens, .idles, .windows,
          .responses, .inExecution, .turns] s t ∧
        Rendered (restartedScu s p) t.scu ∧ t.port.fault = faultAfterChecks s later ∧
        Committed record (match line.2 with
          | .contraHeld => .held | .contraNotHeld => .notHeld | _ => .none) s t ∧
        OneDrawer n after s t ∧
        t.store.accounts = line.1.store.accounts ∧ t.store.lastTaken = line.1.store.lastTaken ∧
        t.store.lastAnswer = line.1.store.lastAnswer ∧
        Answered h 33 .done false
          [some [.num next], some [.num n.val], some [.amount (homeTotal s after)], some [.flag after.excess],
           some [.num (match line.2 with | .voided => 1 | .contraHeld => 2 | .contraNotHeld => 3 | .none => 4)]]
          (checkNotices later ++ highNotice s ++ cashNotices s n after.current ++
            fullNotice s record (if line.2 = .contraNotHeld then .notHeld else .none)) s t)

/-- The handover of a reversal whose key is new: nothing for an original that was not HELD; a pending original line of
the day is voided in place; otherwise a contra line goes to the account's entry, or to one taken for it, and with none to
take the table is full (R102, R104).  A reversal whose key is the last taken key changes nothing and is answered as it was
then (R104; the answer kept beside the key is log entry 13).  When an entry is reclaimable, and how a line folds where a
contra line finds 24, LinesJoinTheirAccount spells. -/
def Obligations.ReversedLinesAreVoidedOrCancelled : Prop :=
  ∀ (r : Record) (original a : Nat) (disposition : Disposition) (s : State),
    let date := s.store.day.date.getD 0
    let k : Key := ⟨date, r.sequence⟩
    let u := handReversal r original disposition s
    r.account = some a →
    (s.store.lastTaken = some k → u = (s, s.store.lastAnswer)) ∧
    (alreadyTaken s k = false →
    u.1.store.lastTaken = some k ∧ u.1.store.lastAnswer = u.2 ∧
    UnchangedBut [.accounts, .lastTaken, .windows] s u.1 ∧
    (disposition ≠ .held → u.2 = .none ∧ u.1.store.accounts = s.store.accounts) ∧
    (disposition = .held → ∀ i e, FirstWith s.store.accounts (fun e => e.number = a) i e →
      ((∃ l ∈ e.lines, l.key = ⟨date, original⟩ ∧ isPending l = true) → u.2 = .voided ∧
        u.1.store.accounts = s.store.accounts.set i (some { e with
          lines := e.lines.map fun l => if l.key = ⟨date, original⟩ then { l with void := true } else l
          activeDay := s.clock.day
          activeSecond := s.clock.seconds })) ∧
      ((∀ l ∈ e.lines, l.key = ⟨date, original⟩ → isPending l = false) → u.2 = .contraHeld ∧
        u.1.store.accounts = s.store.accounts.set i (some { addLine
            ⟨k, r.narrative.getD 0, r.homeAmount.getD 0, none, some original, false, false⟩ e with
          activeDay := s.clock.day
          activeSecond := s.clock.seconds }))) ∧
    (disposition = .held → (∀ i e, s.store.accounts.get i = some e → e.number ≠ a) →
      (∀ i, TakenSlot s.store.accounts.get
          (fun e => isReclaimable e = true ∧ ∀ j f, s.store.accounts.get j = some f → isReclaimable f = true →
            e.activeDay < f.activeDay ∨ e.activeDay = f.activeDay ∧ e.activeSecond ≤ f.activeSecond) i →
        u.2 = .contraHeld ∧ u.1.store.accounts = s.store.accounts.set i (some ⟨a,
          [⟨k, r.narrative.getD 0, r.homeAmount.getD 0, none, some original, false, false⟩], none, none, none, false,
          false, s.clock.day, s.clock.seconds⟩)) ∧
      ((∀ i, ∃ e, s.store.accounts.get i = some e ∧ isReclaimable e = false) →
        u.2 = .contraNotHeld ∧ u.1.store.accounts = s.store.accounts ∧
          (s.power = .up → u.1.port.windows = notify [(officerMaster, .passbookFull a)] s.port.windows))))

/-! ### Transfers and the vault -/

/-- TRANSFER.OFFER, from a position's drawer or from the vault, with its checks passed: a TRANSFER_OUT record with the
slot OFFERED, the tender reserved at the from-drawer, the end hold standing, and the receiver told; the timeout given
is clamped into 60 to 3600, and without one is 900 (R5, R64 to R66, R73, R74). -/
def Obligations.OffersReserveTheirCash : Prop :=
  ∀ (h : ReqHead) (p : Option Position) (n target : DrawerNo) (l : List CashEntry) (timeout : Fld Nat) (s : State),
    let i : Instr := .transferOffer h ⟨match p with | some p => .value p.val | none => .absent, .value target.val,
      .value l, timeout⟩
    let d := s.store.drawers.get n
    let k := summedCounts l
    let sequence := s.store.day.used + 1
    let seconds := match timeout with | .value x => max 60 (min 3600 x) | _ => 900
    InService h i s → JournalWhole s → s.store.day.state = .opened ∨ s.store.day.state = .closing →
    (p = none → FromOfficer h ∧ n = vault) →
    (∀ q, p = some q → MayActFor h s q ∧ (s.store.positions.get q).drawer = some n ∧
      (s.scu.screens.get q).lockHeld = false) →
    target ≠ n → TenderOk s l → timeout ≠ .malformed → ¬Settled s n → ¬Settled s target →
    (s.store.drawers.get target).excess = false →
    (∀ x, 0 < k.get x → d.reserved.get x + k.get x + k.get x ≤ d.current.get x) →
    s.store.day.used + s.jsu.holds + 2 ≤ 16352 → (∃ j, ∀ a, s.store.transfers.get j = some a → a.state ≠ .offered) →
    let current := subCounts d.current k
    ∃ t j number, exec i s = .next t ∧
      UnchangedBut [.journal, .day, .transfers, .nextTransfer, .drawers, .jsu, .buffers, .screens, .idles, .windows,
        .responses, .inExecution, .turns] s t ∧
      Rendered (match p with | some p => restartedScu s p | none => s.scu) t.scu ∧
      TakenSlot s.store.transfers.get (fun a => a.state ≠ .offered) j ∧
      FirstFreeNumber (fun x => ∃ g a, s.store.transfers.get g = some a ∧ a.number = x) 255 s.store.nextTransfer number ∧
      t.store.nextTransfer = (if number < 255 then number + 1 else 1) ∧
      t.store.transfers = s.store.transfers.set j
        (some ⟨number, .offered, n, target, k, seconds, seconds, sequence, none⟩) ∧
      OneDrawer n { d with
        current := current
        reserved := addCounts d.reserved k
        transfersOut := addMoney d.transfersOut fun c => valueOf s c k
        excess := markAfter s n current
        lastApplied := sequence } s t ∧
      t.jsu = { s.jsu with holds := s.jsu.holds + 1 } ∧
      Committed { emptyRecord .transferOut with
        position := p
        teller := p.bind fun p => (s.store.positions.get p).teller
        drawer := some n
        second := some target
        homeAmount := some (-(valueOf s 0 k : Int))
        tender := signedEntries (-1) k
        narrative := some 0 } .none s t ∧
      Answered h 64 .done true
        [some [.num number], some [.num sequence], some [.num seconds],
         if h.master ≠ officerMaster ∧ s.store.day.state = .closing then none
         else some [.amount (valueOf s 0 current)]]
        (highNotice s ++ cashNotices s n current ++
          [(drawerMaster s target, .transfer .offered number n target)]) s t

/-- TRANSFER.ACCEPT with its checks passed, and the deliver that ends it.  The acceptance appends TRANSFER_IN and makes
the slot ACCEPTED, takes the end hold and receives the cash at the to-drawer, but is not yet answered; the deliver
takes the tender off the from-drawer's reserved counts, sets the applied mark and the answer is placed.  A counted
tender that differs from the offer leaves it OFFERED (R5, R68, R69).  The deliver is a drawer operation asked when the
receive has ended: it waits behind those asked before it (R29).  A timeout that comes before it changes nothing, and a
second tick waits and, where no other operation of the Transfer Unit was asked before it, is taken when the acceptance has
ended, so that no tick is lost (R67, R72).  Where the day has become
CLOSING before the deliver, the response keeps the home total from a station master (R15).  That the deliver, with the
response of the acceptance, is a command of its own is the model's choice, log entry 11, and a TRANSFER_IN above sequence
16,352 is log entry 53.  The refusal's detail without a presence mask is log entry 59. -/
def Obligations.AcceptancesReceiveThenDeliver : Prop :=
  ∀ (h : ReqHead) (j : Fin 8) (a : Transfer) (l : List CashEntry) (s : State),
    let i : Instr := .transferAccept h ⟨.value a.number, .value l⟩
    let n := a.toDrawer
    let d := s.store.drawers.get n
    let f := s.store.drawers.get a.fromDrawer
    let sequence := s.store.day.used + 1
    let current := addCounts d.current a.tender
    let receiver := match d.bound with | some p => restartedScu s p | none => s.scu
    let mark := markAfter s n current
    InService h i s → JournalWhole s → FirstWith s.store.transfers (fun b => b.number = a.number) j a →
    .deliver ∉ s.port.order →
    1 ≤ a.number → a.number ≤ 255 → a.state = .offered → MayActForDrawer h s n → TenderOk s l →
    (∀ p, d.bound = some p → (s.scu.screens.get p).lockHeld = false) →
    (summedCounts l ≠ a.tender → ∃ t detail, exec i s = .next t ∧
      UnchangedBut [.screens, .idles, .windows, .responses, .inExecution, .turns] s t ∧ t.scu = receiver ∧
      Answered h 65 .tenderMismatch false detail [] s t) ∧
    (summedCounts l = a.tender → a.fromDrawer ≠ n → ¬Settled s n → d.excess = false →
      (∀ x, 0 < a.tender.get x → d.current.get x + a.tender.get x + d.reserved.get x ≤ 65535) →
      ∃ t, exec i s = .next t ∧ t.port.inExecution = s.port.inExecution ∧ t.port.order = s.port.order ++ [.deliver] ∧
        t.delivery.isSome ∧ (∀ k, exec (.transferTimeout k) t = .next t) ∧
        t.port.windows = notify (highNotice s ++ cashNotices s n current) s.port.windows ∧
        (t.store.drawers.get a.fromDrawer).reserved = f.reserved ∧
        (¬UnitFree s .dru → exec .deliver t = .next t) ∧
        (UnitFree s .dru → ∃ w, exec .deliver { t with store := { t.store with
            day := { t.store.day with state := .closing } } } = .next w ∧
          (w.port.windows.get h.master).responses = (s.port.windows.get h.master).responses ++
            [⟨65, h.tag, .done, true, [some [.num a.number], some [.num sequence],
              if h.master ≠ officerMaster then none else some [.amount (valueOf s 0 current)], some [.flag mark]]⟩]) ∧
        (UnitFree s .dru → ∃ u, exec .deliver t = .next u ∧
        ((∀ x ∈ s.port.order, x ≠ .request h.master → standsAt s x ≠ some .tru) →
          ∃ v w, exec .secondTick t = .next v ∧ exec .deliver v = .next w ∧
            v.store.transfers = t.store.transfers ∧ .tick .tru ∉ w.port.order ∧
            ∀ k, SlotTicked u (u.store.transfers.get k) (w.store.transfers.get k)) ∧
        UnchangedBut [.journal, .day, .transfers, .drawers, .jsu, .buffers, .screens, .idles, .windows, .responses,
          .inExecution, .turns] s u ∧
        Rendered receiver u.scu ∧
        u.store.transfers = s.store.transfers.set j (some { a with state := .accepted, endSeq := some sequence }) ∧
        u.store.drawers = (s.store.drawers.set n { d with
            current := current
            transfersIn := addMoney d.transfersIn fun c => valueOf s c a.tender
            excess := mark
            lastApplied := sequence }).set a.fromDrawer { f with
            reserved := subCounts f.reserved a.tender
            lastApplied := max f.lastApplied sequence } ∧
        u.jsu = { s.jsu with holds := s.jsu.holds - 1 } ∧
        Committed { emptyRecord .transferIn with
          position := d.bound
          teller := d.bound.bind fun p => (s.store.positions.get p).teller
          drawer := some n
          second := some a.fromDrawer
          homeAmount := some (valueOf s 0 a.tender)
          tender := signedEntries 1 a.tender
          narrative := some 0
          reverses := some a.offerSeq } .none s u ∧
        Answered h 65 .done true
          [some [.num a.number], some [.num sequence],
           if h.master ≠ officerMaster ∧ s.store.day.state = .closing then none
           else some [.amount (valueOf s 0 current)], some [.flag mark]]
          (highNotice s ++ cashNotices s n current) s u))

/-- An OFFERED transfer ends with its cash back at the from-drawer: by TRANSFER.DECLINE, DECLINED, with the sender told
and the request answered; at the end of its timeout, RETURNED, with the sender told.  A transfer with seconds left and
one that has ended are left alone by the timeout, and the timeout waits while an operation asked earlier stands at the
Transfer or Drawer Unit (R29, R67, R70 to R74; the timeout command stands for the tick's part at one transfer, log entry
12; a return recorded above sequence 16,352 is log entry 53). -/
def Obligations.DeclinesAndTimeoutsReturnTheCash : Prop :=
  ∀ (j : Fin 8) (a : Transfer) (s : State), FirstWith s.store.transfers (fun b => b.number = a.number) j a →
    s.power = .up →
    (∀ h : ReqHead, let i : Instr := .transferDecline h (.value a.number)
      InService h i s → JournalWhole s → MayActForDrawer h s a.toDrawer → 1 ≤ a.number → a.number ≤ 255 →
      a.state = .offered → ∃ t, exec i s = .next t ∧
        UnchangedBut [.journal, .day, .transfers, .drawers, .jsu, .buffers, .screens, .windows, .responses,
          .inExecution, .turns] s t ∧ Rendered s.scu t.scu ∧
        CashReturned s t j a { a with state := .declined, endSeq := some (s.store.day.used + 1) }
          (s.store.drawers.get a.toDrawer).bound 1 ∧
        Answered h 66 .done false [some [.num a.number], some [.num (s.store.day.used + 1)]]
          (returnNotices s a .declined) s t) ∧
    (¬(UnitFree s .tru ∧ UnitFree s .dru) → exec (.transferTimeout a.number) s = .next s) ∧
    (a.state = .offered → a.remaining ≤ 1 → JournalWhole s → UnitFree s .tru → UnitFree s .dru →
      ∃ t, exec (.transferTimeout a.number) s = .next t ∧
      UnchangedBut [.journal, .day, .transfers, .drawers, .jsu, .buffers, .screens, .windows, .inExecution] s t ∧
      Rendered s.scu t.scu ∧
      CashReturned s t j a
        { a with state := .returned, remaining := 0, endSeq := some (s.store.day.used + 1) } none 2 ∧
      t.port.windows = notify (returnNotices s a .timedOut) s.port.windows) ∧
    (a.state ≠ .offered ∨ 1 < a.remaining → exec (.transferTimeout a.number) s = .next s)

/-- VAULT.RECEIVE and VAULT.DISPATCH move a tender into or out of the vault with one record, which carries the
reference in its account field and no position or teller; the vault's limits and mark stay clear of it (R4, R76,
R77).  That the answer lists the values of the defined currencies without a count word is log entry 17. -/
def Obligations.VaultMovementsChangeTheVault : Prop :=
  ∀ (h : ReqHead) (reference : Nat) (l : List CashEntry) (s : State), FromOfficer h → JournalWhole s →
    s.store.day.state = .opened ∨ s.store.day.state = .closing → reference < 1000000000000 → TenderOk s l →
    ¬Settled s vault → s.store.day.used + s.jsu.holds + 1 ≤ 16352 →
    let k := summedCounts l
    let d := s.store.drawers.get vault
    let Moves (i : Instr) (kind : Nat) (record : RecordKind) (sign : Int) (deltas : Deltas) : Prop :=
      InService h i s → FitsDrawer d deltas → ∃ t, exec i s = .next t ∧
        UnchangedBut [.journal, .day, .drawers, .buffers, .screens, .windows, .responses, .inExecution, .turns] s t ∧
        Rendered s.scu t.scu ∧
        OneDrawer vault (afterCash s vault deltas (s.store.day.used + 1) 0) s t ∧
        Committed { emptyRecord record with
          drawer := some vault
          account := some reference
          homeAmount := some (sign * (valueOf s 0 k : Int))
          tender := signedEntries sign k
          narrative := some 0 } .none s t ∧
        Answered h kind .done false
          [some [.num (s.store.day.used + 1)],
           some ((definedCurrencies s).map fun c => .amount (valueOf s c (applyDeltas d.current deltas)))]
          (highNotice s) s t
    Moves (.vaultReceive h ⟨.value reference, .value l⟩) 67 .vaultIn 1 (Table.ofFn fun x => (k.get x : Int)) ∧
      Moves (.vaultDispatch h ⟨.value reference, .value l⟩) 68 .vaultOut (-1)
        (Table.ofFn fun x => -(k.get x : Int))

/-! ### Enquiries, settings and formats -/

/-- The six requests that only tell: DRAWER.ENQUIRE with the counts and totals kept from a station master while the
count is blind (R15, R19); PASSBOOK.ENQUIRE with the lines from the place asked, at most eight (R112); JOURNAL.READ,
which captures a STORE_CHECK fault for each record whose check fails and gives each record its length, the check-failed
flag, the withheld flag and its image: while the day is CLOSING a station master is given a record whose drawer or second
drawer is not CLOSED without its home amount and its tender entries, under the check as it stands (R83, R94, R192); FAULT.READ (R187); PART.STATUS
(R189); SCREEN.ACTIVITY, which names a position and so restarts its idle count (R152, R155).  The model's choices: the
layout of PASSBOOK.ENQUIRE's lines (log entry 14), the number 7 for STORE_INVALID in PART.STATUS (log entry 7),
tables answered without a count word (log entry 17), which values share a bit of a presence mask (log entry 60), absent
rates as zeros in a record's image (log entry 8), the last applied sequence given in a blind DRAWER.ENQUIRE (log entry
64), and the fault's detail without a word while no fault was captured (log entry 66). -/
def Obligations.EnquiriesTellWhatTheRecordsHold : Prop :=
  ∀ (h : ReqHead) (s : State),
    let Tells (i : Instr) (kind : Nat) (masked : Bool) (fields : List (Option (List Item))) : Prop :=
      ∃ t, exec i s = .next t ∧ UnchangedBut [.windows, .responses, .inExecution, .turns] s t ∧
        Answered h kind .done masked fields [] s t
    (∀ n : DrawerNo, let i : Instr := .drawerEnquire h (.value n.val)
      let d := s.store.drawers.get n
      let seen (l : List Item) := if h.master ≠ officerMaster ∧ s.store.day.state = .closing ∧ d.state ≠ .closed then
        none else some l
      let counts (k : Counts) := seen ((definedDenoms s).map fun x => .num (k.get x))
      let money (k : Money) := seen ((definedCurrencies s).map fun c => .amount (k.get c))
      InService h i s → MayActForDrawer h s n → Tells i 22 true
        [some [.num d.state.place], d.bound.map (fun p => [.num p.val]),
         (d.bound.bind fun p => (s.store.positions.get p).teller).map fun x => [.num x],
         counts d.opening, counts d.current, counts d.reserved, money d.receipts, money d.payments,
         money d.transfersIn, money d.transfersOut, seen [.amount d.tally], some [.amount d.soft],
         some [.amount d.hard], some [.flag d.excess], some [.num d.attempts], some [.num d.lastApplied]]) ∧
    (∀ a first : Nat, let i : Instr := .passbookEnquire h ⟨.value a, .value first⟩
      InService h i s → FromAny h → a < 1000000000000 → first ≤ 23 →
      let head := [(classOf s a).map fun k => [Item.num k.val], some [.flag (isPassbook s a)]]
      ((∀ j e, s.store.accounts.get j = some e → e.number ≠ a) →
        Tells i 97 true (head ++ [some [.flag false], none, none, none, none, none, none, none, none])) ∧
      ∀ j e, FirstWith s.store.accounts (fun e => e.number = a) j e →
        let lines := (e.lines.drop first).take 8
        Tells i 97 true (head ++ [some [.flag true], some [.num e.lines.length], e.summary.map summaryItems,
          e.taken.map summaryItems, e.printed.map fun x => [.num x.1, .num x.2], some [.flag e.newBook],
          some [.flag e.jobRef], some [.num e.activeDay, .wide e.activeSecond],
          some (.num lines.length :: lines.flatMap lineItems)])) ∧
    (∀ sequence count : Nat, let i : Instr := .journalRead h ⟨.value sequence, .value count⟩
      InService h i s → FromAny h → 1 ≤ count → count ≤ 8 → 1 ≤ sequence → sequence ≤ 16384 →
      sequence ≤ s.store.day.used →
      let records := ((s.store.journal.take s.store.day.used).drop (sequence - 1)).take count
      ∃ t told, exec i s = .next t ∧ UnchangedBut [.windows, .responses, .inExecution, .turns, .fault] s t ∧
        t.port.fault = faultAfterChecks s records ∧ List.Forall₂ (RecordTold h s) records told ∧
        Answered h 80 .done false
          [some [.num s.store.day.used], some [.date (s.store.day.date.getD 0)],
           some [.num s.store.header.readGeneration], some [.words told.flatten]]
          (checkNotices records) s t) ∧
    (FromAny h → s.power = .up → s.port.inExecution.get h.master = some ⟨.faultRead h, false⟩ →
      waitsTurn h (.faultRead h) s = false → NothingWaits s →
      let f := s.port.fault
      Tells (.faultRead h) 162 false [some [.flag f.held], some [.num f.kind.place], some [.num f.source.place],
        some f.detail, some [.num f.day], some [.wide f.seconds], some [.num f.lost]]) ∧
    (FromAny h → s.power = .up → s.port.inExecution.get h.master = some ⟨.partStatus h, false⟩ →
      waitsTurn h (.partStatus h) s = false → NothingWaits s →
      let day := s.store.day
      Tells (.partStatus h) 165 true [some [.num s.jsu.cause.place],
        some [.num (if s.kept.isSome then 7 else day.state.place)], some [.num day.used],
        some [.flag s.port.fault.held], some [.num (s.kept.getD s.store).header.readGeneration],
        some [.num s.clock.day, .wide s.clock.seconds, .flag s.clock.valid],
        if day.state = .delivered ∨ day.state = .noDay then
          day.reference.map fun l => [.text (l.map BitVec.toNat)] else none]) ∧
    ∀ p : Position, let i : Instr := .screenActivity h (.value p.val)
      InService h i s → MayActFor h s p → ∃ t, exec i s = .next t ∧
        UnchangedBut [.windows, .responses, .inExecution, .turns, .screens, .idles] s t ∧ t.scu = restartedScu s p ∧
        Answered h 133 .done true
          [some [.num (screenState (s.scu.screens.get p)).place],
           (t.scu.screens.get p).idle.map fun n => [.num n]] [] s t

/-- STORE.FORMAT, taken in STORE_INVALID, NO_DAY and SEALED: every area of the store at its format value under a
header whose generation has risen by 1 and whose marker is set, every unit at its own, the jobs ended CANCELLED
(FORMAT) with their masters told, no quotes and the made-order count 0 (R62), and the day's change raised where it shows
(R1, R22, R44, R63, R80, R93, R97, R99,
R114, R133, R138, R158, R159, R183, R184). The notice sets are cleared first (R62). Not the spec's words but the
MODEL's choices: the bytes of the header check (log entry 5), the answer kept beside the last taken key (log entry
13), the journal as a list without records (log entry 28), the decimals 0 of the undefined foreign currencies (log
entry 56; home currency's 2 are R1's), the book position 0 of each printer (log entry 54), that the format's own
notices enter the cleared sets (log entry 50), that PRINT_DONE goes by the position table as it was (log entry 34),
and that DAY_EVENT is raised from STORE_INVALID and SEALED alone (log entry 41). -/
def Obligations.FormatLeavesEveryAreaAtItsFormatValue : Prop :=
  ∀ (h : ReqHead) (s : State), let old := (s.kept.getD s.store).header
    let generation := ((if old.agrees then old.generation else 0) + 1) % 65536
    s.power = .up → s.port.inExecution.get h.master = some ⟨.storeFormat h, false⟩ →
    waitsTurn h (.storeFormat h) s = false → NothingWaits s →
    (∀ x ∈ s.port.order, x ≠ .request h.master → standsAt s x ≠ some .scu) → FromOfficer h →
    (s.kept.isSome ∨ s.store.day.state = .noDay ∨ s.store.day.state = .sealed) →
    ∃ t, exec (.storeFormat h) s = .next t ∧
      t.store = {
        header := ⟨true, generation, headerCheck true generation⟩
        day := { state := .noDay, date := none, lastDelivered := none, ackThrough := 0, reference := none, used := 0,
                 openCommits := [] }
        lineSettings := { branch := none, timeout := 10 }
        currencies := Table.ofFn fun c => { defined := false, decimals := if c = 0 then 2 else 0, faces := [] }
        drawers := Table.fill 13 {
          state := .idle, bound := none, opening := Table.fill 48 0, current := Table.fill 48 0
          reserved := Table.fill 48 0, receipts := Table.fill 4 0, payments := Table.fill 4 0
          transfersIn := Table.fill 4 0, transfersOut := Table.fill 4 0, tally := 0, soft := 0, hard := 0
          excess := false, attempts := 0, lastApplied := 0 }
        positions := Table.ofFn fun p => { serving := Fin.ofNat 4 (p.val / 3), drawer := none, teller := none }
        burst := 2
        transfers := Table.fill 8 none
        nextTransfer := 1
        board := { rows := Table.fill 3 ⟨none, ⟨0, 0, 0⟩, ⟨0, 0, 0⟩⟩, generation := 0, lifetime := 120, nextQuote := 1,
                   lastApplied := 0 }
        classes := Table.fill 8 { length := 0, lead := 0, passbook := false }
        accounts := Table.fill 64 none
        lastTaken := none
        lastAnswer := .none
        carryCount := 0
        pacing := Table.fill 2 ⟨⟨1000, 400, 2000, 48, 120, 500⟩, ⟨1000, 400, 2000, 48, 120, 500⟩⟩
        journal := [] } ∧
      t.kept = none ∧ t.jsu = ⟨0, .format⟩ ∧ (∀ n, t.counted.get n = none) ∧
      (∀ i, t.exu.quotes.get i = none) ∧ t.exu.made = 0 ∧ (∀ i, t.pru.jobs.get i = none) ∧
      (∀ p, t.pru.notes.get p = none) ∧ t.pru.nextJob = 1 ∧ t.pru.sealAnswered = false ∧
      (∀ p, t.pru.engines.get p = { s.pru.engines.get p with
        state := .idle, current := none, queue := [], bookPosition := 0,
        motion := if (s.pru.engines.get p).inFeed then .eject .clearing else .still }) ∧
      t.sender = idleSender ∧ t.out = { s.out with lineReady := false } ∧
      (∀ p, t.scu.screens.get p = { s.scu.screens.get p with
        lockHeld := false, idle := none, map := Table.fill 24 none, dirty := Table.fill 24 true }) ∧
      t.scu.idleTimeout = 300 ∧ t.scu.lockText = defaultLockText ∧
      (∀ b, RenderedBuffer (if b.val < 27 then partBuffer b else freeBuffer) (t.scu.buffers.get b)) ∧
      t.clock = s.clock ∧ t.port.fault = s.port.fault ∧ t.pending = s.pending ∧ t.power = s.power ∧
      Answered h 81 .done false [some [.num generation]]
        ((s.pru.jobs.list.filterMap id).map (fun j =>
            (servingMaster s j.position, .printDone j.id j.printer (.cancelled .format))) ++
          if s.kept.isSome ∨ s.store.day.state = .sealed then [(officerMaster, .dayChanged .noDay)] else [])
        { s with port := { s.port with windows := s.port.windows.map fun w =>
          { w with waiting := Table.fill 8 none, service := Table.fill 8 none } } } t

/-- PASSBOOK.NEWBOOK: SET marks the account's entry, or one taken for an account of a passbook class, the lowest empty
one, or else the reclaimable one whose last activity is the earliest, cleared for it, as awaiting a new book and
forgets its printed-through; WITHDRAW clears the mark. With no entry to take the request is refused TABLE_FULL, and an
account with a job WRONG_STATE (R102, R111; when an entry is reclaimable LinesJoinTheirAccount spells). -/
def Obligations.NewBooksAreMarkedAtTheAccount : Prop :=
  ∀ (h : ReqHead) (p : Position) (a : Nat) (mode : BookMode) (s : State),
    let c : Instr := .passbookNewbook h ⟨.value p.val, .value a, .value mode⟩
    InService h c s → MayActFor h s p → a < 1000000000000 →
    (s.store.day.state = .noDay ∨ s.store.day.state = .opened ∨ s.store.day.state = .closing) →
    let Marks (i : Fin 64) (e : Account) : Prop := ∃ t, exec c s = .next t ∧
      UnchangedBut [.accounts, .screens, .idles, .windows, .responses, .inExecution, .turns] s t ∧
      t.scu = restartedScu s p ∧ t.store.accounts = s.store.accounts.set i (some { e with
        newBook := if mode = .set then true else false
        printed := if mode = .set then none else e.printed
        activeDay := s.clock.day
        activeSecond := s.clock.seconds }) ∧
      Answered h 98 .done false [some [.num (e.lines.filter fun l => !l.void && !l.inSnapshot).length],
        some [.flag e.summary.isSome]] [] s t
    (∀ i e, FirstWith s.store.accounts (fun e => e.number = a) i e → e.jobRef = false →
      (mode = .withdraw → e.newBook = true) → Marks i e) ∧
    ((∀ j e, s.store.accounts.get j = some e → e.number ≠ a) → isPassbook s a = true → mode = .set →
      (∀ i, TakenSlot s.store.accounts.get
          (fun e => isReclaimable e = true ∧ ∀ j f, s.store.accounts.get j = some f → isReclaimable f = true →
            e.activeDay < f.activeDay ∨ e.activeDay = f.activeDay ∧ e.activeSecond ≤ f.activeSecond) i →
        Marks i ⟨a, [], none, none, none, false, false, s.clock.day, s.clock.seconds⟩) ∧
      ((∀ i, ∃ e, s.store.accounts.get i = some e ∧ isReclaimable e = false) →
        ∃ t, exec c s = .next t ∧ UnchangedBut [.screens, .idles, .windows, .responses, .inExecution, .turns] s t ∧
          Answered h 98 .tableFull false [] [] s t)) ∧
    ∀ i e, FirstWith s.store.accounts (fun e => e.number = a) i e → e.jobRef = true →
      ∃ t, exec c s = .next t ∧ UnchangedBut [.screens, .idles, .windows, .responses, .inExecution, .turns] s t ∧
        Answered h 98 .wrongState false [] [] s t

/-- The requests that set one value and answer it: CLASS.SET, after which an account's class is the first entry its
leading digits match (R97, R98); PORT.SETTINGS, the burst clamped into 1 to 4 (R184); POSITION.BIND of a position
without a teller (R183); LINE.SETTINGS, the branch number in NO_DAY only and the timeout clamped into 2 to 60 (R167);
PRINTER.PACE, each value given clamped into its range and staged, the applied ones unchanged (R133, R135); CLOCK.SET,
which sets the clock's flag (R188); FAULT.CLEAR, which answers the record it clears (R187). Master 4 sends them; a
read, with nothing to set, comes from any master. Tables answered without a count word, clamped flags for the values
given alone, and the outstanding blocks with their count are log entry 17, and the bits of PRINTER.PACE's presence
mask log entry 60; the fault's detail without a word while no fault was captured is log entry 66. -/
def Obligations.SettingsAreTakenAndAnswered : Prop :=
  ∀ (h : ReqHead) (s : State), FromAny h →
    let officer := h.master = officerMaster
    let Sets (i : Instr) (parts : List Part) (kind : Nat) (masked : Bool) (fields : List (Option (List Item)))
        (result : State → Prop) : Prop := ∃ t, exec i s = .next t ∧
      UnchangedBut (parts ++ [.windows, .responses, .inExecution, .turns]) s t ∧ result t ∧
      Answered h kind .done masked fields [] s t
    (∀ (x : Fin 8) (length lead : Nat) (passbook : Bool),
      let i : Instr := .classSet h ⟨.value x.val, .value length, .value (lead * 10 ^ (12 - length)), .value passbook⟩
      InService h i s → officer → length ≤ 12 → lead < 10 ^ length →
      let classes := s.store.classes.set x ⟨length, lead, passbook⟩
      Sets i [.classes] 96 false (classes.list.map fun e => some
          [.num e.length, .digits (e.lead * 10 ^ (12 - e.length)), .flag e.passbook]) fun t =>
        t.store.classes = classes ∧ ∀ (a : Nat) (k : Fin 8), classOf t a = some k ↔
          ((classes.get k).length ≠ 0 ∧ a / 10 ^ (12 - (classes.get k).length) = (classes.get k).lead) ∧
            ∀ j < k, ¬((classes.get j).length ≠ 0 ∧ a / 10 ^ (12 - (classes.get j).length) = (classes.get j).lead)) ∧
    (∀ burst : Option Nat, let i : Instr := .portSettings h (given burst)
      let after := (burst.map fun n => max 1 (min 4 n)).getD s.store.burst
      InService h i s → officer ∨ burst = none → Sets i [.burst] 161 false [some [.num after],
          some [.flag (burst.elim false fun n => decide (n < 1 ∨ 4 < n))]] fun t => t.store.burst = after) ∧
    (∀ (p : Position) (m : Fin 4), let i : Instr := .positionBind h ⟨.value p.val, .value m.val⟩
      InService h i s → officer → (s.store.positions.get p).teller = none →
      let positions := s.store.positions.set p { s.store.positions.get p with serving := m }
      Sets i [.positions] 160 false [some (positions.list.map fun e => .num e.serving.val)] fun t =>
        t.store.positions = positions ∧ t.scu = s.scu) ∧
    (∀ branch timeout : Option Nat, let i : Instr := .lineSettings h ⟨given branch, given timeout⟩
      InService h i s → officer ∨ branch = none ∧ timeout = none →
      (∀ b, branch = some b → 1 ≤ b ∧ b ≤ 9999 ∧ s.store.day.state = .noDay) →
      let x := s.sender
      let settings : LineSettings := ⟨branch.or s.store.lineSettings.branch,
        (timeout.map fun n => max 2 (min 60 n)).getD s.store.lineSettings.timeout⟩
      Sets i [.lineSettings] 150 true
        [settings.branch.map fun b => [.num b], some [.num settings.timeout],
         some [.flag (timeout.elim false fun n => decide (n < 2 ∨ 60 < n))], some [.num x.state.place],
         x.failure.map fun f => [.num f.place], some [.num x.calls], some [.num s.store.day.ackThrough],
         some (.num x.outstanding.length :: x.outstanding.map fun b => .num b.block), some [.num x.anomalies]]
        fun t => t.store.lineSettings = settings) ∧
    (∀ (p : PrinterNo) (column needle feed pitch margin jam : Option Nat),
      let i : Instr := .printerPace h ⟨.value p, given column, given needle, given feed, given pitch, given margin,
        given jam⟩
      InService h i s →
      officer ∨ column = none ∧ needle = none ∧ feed = none ∧ pitch = none ∧ margin = none ∧ jam = none →
      let old := (s.store.pacing.get p).staged
      let kept (lo hi : Nat) (n : Option Nat) (x : Nat) : Nat := (n.map fun n => max lo (min hi n)).getD x
      let staged : Pace := ⟨kept 200 5000 column old.column, kept 50 5000 needle old.needle,
        kept 500 10000 feed old.feed, kept 24 96 pitch old.pitch, kept 0 400 margin old.margin,
        kept 50 2000 jam old.jam⟩
      let applied := (s.store.pacing.get p).applied
      let items (x : Pace) : List Item :=
        [.num x.column, .num x.needle, .num x.feed, .num x.pitch, .num x.margin, .num x.jam]
      let clamped (lo hi : Nat) (n : Option Nat) : Option (List Item) :=
        n.map fun n => [.flag (decide (n < lo ∨ hi < n))]
      Sets i [.pacing] 114 true [some (items staged), some (items applied), clamped 200 5000 column,
          clamped 50 5000 needle, clamped 500 10000 feed, clamped 24 96 pitch, clamped 0 400 margin,
          clamped 50 2000 jam]
        fun t => t.store.pacing = s.store.pacing.set p ⟨staged, applied⟩) ∧
    (∀ (day : Fin 65536) (seconds : Fin 86400), let i : Instr := .clockSet h ⟨.value day.val, .value seconds.val⟩
      s.power = .up → s.port.inExecution.get h.master = some ⟨i, false⟩ → waitsTurn h i s = false →
      NothingWaits s → (∀ x ∈ s.port.order, x ≠ .request h.master → standsAt s x ≠ some .scu) → officer →
      Sets i [.clock, .buffers, .screens] 164 false [] fun t =>
        t.clock = ⟨day.val, seconds.val, true⟩ ∧ Rendered s.scu t.scu) ∧
    (InService h (.faultClear h) s → officer → let f := s.port.fault
      Sets (.faultClear h) [.fault] 163 false [some [.flag f.held], some [.num f.kind.place],
          some [.num f.source.place], some f.detail, some [.num f.day], some [.wide f.seconds], some [.num f.lost]]
        fun t => t.port.fault = { f with held := false, lost := 0 })


/-! ### Printers -/

/-- The head of an IDLE printer's queue becomes its current job, AWAITING_BOOK, and its position's master is asked to
insert the book; a printer that is not IDLE, or whose queue is empty, starts nothing (R121).  PRINTER.RESET makes a
printer IDLE again, runs a clearing eject where the sensor shows a book, and starts its queue; the answer counts the
jobs still queued (R131; that the count is the one after the start is the model's reading, log entry 32).
That an engine keeps its book position and a job its edge where no rule changes them is log entry 54. -/
def Obligations.QueuesStartTheirHead : Prop :=
  (∀ (p : PrinterNo) (i : Fin 16) (j : Job) (rest : List Nat) (s : State), let e := s.pru.engines.get p
    s.power = .up → FirstWith s.pru.jobs (fun x => x.id = j.id) i j → e.state = .idle → e.queue = j.id :: rest →
    let t := startNext p s
    UnchangedBut [.pru, .buffers, .screens, .windows, .inExecution] s t ∧
      JobMoved s t p { e with state := .busy, current := some j.id, queue := rest } i
        { j with state := .awaitingBook } (attention s j .insertBook j.attempts)) ∧
  (∀ (p : PrinterNo) (s : State),
    ((s.pru.engines.get p).state ≠ .idle ∨ (s.pru.engines.get p).queue = []) → startNext p s = s) ∧
  ∀ (h : ReqHead) (p : PrinterNo) (s : State), let c : Instr := .printerReset h (.value p)
    let e := s.pru.engines.get p
    InService h c s → FromOfficer h → e.state = .outOfService → ∃ t, exec c s = .next t ∧
      UnchangedBut [.pru, .buffers, .screens, .windows, .responses, .inExecution, .turns] s t ∧
      let idle := { e with state := .idle, motion := if e.present then .eject .clearing else .still }
      let v := startNext p { s with pru := { s.pru with engines := s.pru.engines.set p idle } }
      AnsweredFrom h 115 .done false [some [.num (v.pru.engines.get p).queue.length]] v t

/-- PRINT.START with its checks passed registers the job at its account, writes it QUEUED in the lowest empty slot and
at the end of its printer's queue, and makes it its position's newest job; an IDLE printer takes it at once.  The
answer gives the id, the state and the jobs ahead (R106, R116, R118, R120, R121). -/
def Obligations.PrintStartQueuesAJob : Prop :=
  ∀ (h : ReqHead) (p : Position) (printer : PrinterNo) (k : Fin 64) (a : Account) (i : Fin 16) (s : State),
    let c : Instr := .printStart h ⟨.value p.val, .value a.number, .value printer⟩
    let e := s.pru.engines.get printer
    InService h c s → MayActFor h s p →
    (s.store.day.state = .noDay ∨ s.store.day.state = .opened ∨ s.store.day.state = .closing) →
    s.pru.sealAnswered = false → a.number < 1000000000000 → e.state ≠ .outOfService → e.queue.length < 6 →
    s.pru.jobs.get i = none → (∀ j < i, s.pru.jobs.get j ≠ none) →
    FirstWith s.store.accounts (fun x => x.number = a.number) k a → a.jobRef = false →
    ((∃ l ∈ a.lines, l.void = false ∧ l.inSnapshot = false) ∨ a.summary.isSome ∨ a.newBook = true) →
    ∃ t id, exec c s = .next t ∧
      UnchangedBut [.accounts, .pru, .buffers, .screens, .idles, .windows, .responses, .inExecution, .turns] s t ∧
      Rendered (restartedScu s p) t.scu ∧
      FirstFreeNumber (fun n => ∃ j x, s.pru.jobs.get j = some x ∧ x.id = n) 255 s.pru.nextJob id ∧
      t.store.accounts = s.store.accounts.set k
        (some { a with jobRef := true, activeDay := s.clock.day, activeSecond := s.clock.seconds }) ∧
      let job (x : JobState) : Job := ⟨id, a.number, p, printer, x, none, 0, none, none, none, false⟩
      let after (e : Engine) (x : JobState) : Pru :=
        { withJob s printer e i (some (job x)) (s.pru.notes.set p (some ⟨id, .live x⟩)) with
          nextJob := if id < 255 then id + 1 else 1 }
      (e.state = .busy →
        t.pru = after { e with queue := e.queue ++ [id] } .queued ∧
        Answered h 112 .done false [some [.num id], some [.num 1],
          some [.num ((e.queue ++ [id]).takeWhile fun x => x != id).length]] [] s t) ∧
      (e.state = .idle → e.queue = [] →
        t.pru = after { e with state := .busy, current := some id } .awaitingBook ∧
        Answered h 112 .done false [some [.num id], some [.num 2], some [.num 0]]
          (attention s (job .awaitingBook) .insertBook 0) s t)

/-- PRINT.CANCEL by the job's state: a job QUEUED or AWAITING_BOOK ends CANCELLED (REQUEST); one READING is ejected
without a stripe write and will end PARTIAL (CANCELLED); in PRINTING, and in TURN_PAGE while the page turn's write or
eject runs, the cancel is kept for later; in TURN_PAGE otherwise the job ends PARTIAL (CANCELLED); past its last line
the request is refused with the state (R117, R132).  The answer's numbers for states and ends are the model's, log
entry 7, and so is a refusal's detail without a presence mask, log entry 59.
That the book position stays through an eject, and a job's edge until its next top edge, is log entry 54. -/
def Obligations.CancelsActByTheJobsState : Prop :=
  ∀ (h : ReqHead) (p : Position) (i : Fin 16) (j : Job) (s : State), let q := j.printer
    let c : Instr := .printCancel h ⟨.value p.val, .value j.id⟩
    let e := s.pru.engines.get q
    let r := { s with scu := restartedScu s p }
    InService h c s → MayActFor h s p → 1 ≤ j.id → j.id ≤ 255 → j.position = p →
    FirstWith s.pru.jobs (fun x => x.id = j.id) i j → ∃ t, exec c s = .next t ∧
      UnchangedBut [.accounts, .pru, .buffers, .screens, .idles, .windows, .responses, .inExecution, .turns] s t ∧
      let Ends (o : JobEnd) (place : Nat) : Prop := e.current = some j.id → e.state = .busy →
        ∃ u, JobEnded r u i j o (freedEngine e j) ∧
          AnsweredFrom h 113 .done false [some [.num place]] (clearBook q (startNext q u)) t
      match j.state with
      | .queued => e.current ≠ some j.id → ∃ u,
          JobEnded r u i j (.cancelled .request) { e with queue := e.queue.filter (· != j.id) } ∧
            AnsweredFrom h 113 .done false [some [.num 11]] u t
      | .awaitingBook => Ends (.cancelled .request) 11
      | .reading => Rendered r.scu t.scu ∧
          t.pru = withJob s q { e with motion := .eject .finish } i
            (some { j with state := .ejecting, outcome := some (.partly .cancelled) })
            (notedAs s j (.live .ejecting)) ∧
          Answered h 113 .done false [some [.num 7]] [] s t
      | .printing => t.scu = r.scu ∧
          t.pru = { s.pru with jobs := s.pru.jobs.set i (some { j with cancel := true }) } ∧
          Answered h 113 .done false [some [.num 4]] [] s t
      | .turnPage => if turning e.motion = true then t.scu = r.scu ∧
            t.pru = { s.pru with jobs := s.pru.jobs.set i (some { j with cancel := true }) } ∧
            Answered h 113 .done false [some [.num 5]] [] s t
          else Ends (.partly .cancelled) 9
      | x => t.scu = r.scu ∧ t.pru = s.pru ∧ Answered h 113 .wrongState false [some [.num x.place]] [] s t

/-- A book that appears at a clear sensor is fed where the current job awaits one, or its page has been turned and the
eject is over, and otherwise only seen. The top edge ends the feed with the edge captured and the stripe read started;
the step limit ends it as a misfeed without an edge: the first prompts again, the second ends the job ABORTED. With no
feed running neither does anything. With no current job, or once the store is shut, an insertion is only seen (R122,
R125, R137). So it is where no operation asked earlier stands at the Printer Unit, or at the Passbook Line Unit for a
job's end, for which the event waits (R100, R119).
That the book position is 0 at an insertion, and stays with a job's edge until the next top edge, is log entry 54. -/
def Obligations.InsertionsFeedToTheEdge : Prop :=
  (∀ (p : PrinterNo) (s : State), let e := s.pru.engines.get p
    TakenAt s [.pru] → (s.power ≠ .up ∨ e.current = none) →
    exec (.bookPresent p) s = .next { s with pru := { s.pru with
      engines := s.pru.engines.set p { e with present := true } } } ∧
    (s.power ≠ .up ∨ e.motion ≠ .feed → ∀ n,
      exec (.topEdge p n) s = .next s ∧ exec (.stepLimit p) s = .next s)) ∧
  ∀ (p : PrinterNo) (i : Fin 16) (j : Job) (s : State), s.power = .up → CurrentJob s p i j → UnitFree s .pru →
    let e := s.pru.engines.get p
    (e.present = true → exec (.bookPresent p) s = .next s) ∧
    (e.present = false → ∃ t, exec (.bookPresent p) s = .next t ∧ UnchangedBut [.pru] s t ∧
      let seen := if j.state = .awaitingBook ∨ j.state = .turnPage ∧ turning e.motion = false then
          { e with present := true, motion := .feed, bookPosition := 0, inFeed := true }
        else { e with present := true }
      t.pru = { s.pru with engines := s.pru.engines.set p seen }) ∧
    (e.motion ≠ .feed → ∀ n, exec (.topEdge p n) s = .next s ∧ exec (.stepLimit p) s = .next s) ∧
    (e.motion = .feed → ∀ n : Fin 4096, ∃ t, exec (.topEdge p n) s = .next t ∧
      UnchangedBut [.pru, .buffers, .screens, .inExecution] s t ∧
      let seen := { e with motion := .read, bookPosition := n.val }
      if j.state = .awaitingBook then
        JobMoved s t p seen i { j with edge := some n.val, state := .reading } []
      else Rendered s.scu t.scu ∧ t.pru = withJob s p seen i (some { j with edge := some n.val }) s.pru.notes) ∧
    (e.motion = .feed → j.attempts ≠ 0 → ¬UnitFree s .plu →
      exec (.stepLimit p) s = .next (ask (.event (.stepLimit p)) s)) ∧
    (e.motion = .feed → (j.attempts ≠ 0 → UnitFree s .plu) → ∃ t, exec (.stepLimit p) s = .next t ∧
      BadBookTaken s t p i j { e with bookPosition := 4095 } .insertBook .misfeed)

/-- The stripe of a first insertion that names the job's account starts it at the later of the stripe's position and
the one after printed-through, an unreadable stripe of an account awaiting a new book at page 1, line 1; the snapshot
is then taken once, in one operation of the Passbook Line Unit with the entry read, for whose turn the event waits
(R100). A reinsertion's stripe must name the account and the page expected. Any other book is a wrong book. A second
misfeed beyond the travel ends the job ABORTED (MISFEED) and clears the book. With no stripe read running the event
does nothing (R107, R117, R123 to R125, R128).
That the book position stays through an eject and a stripe pass, and a job's edge until its next top edge, is log entry
54. -/
def Obligations.StripesDecideWhereAJobStarts : Prop :=
  ∀ (p : PrinterNo) (i : Fin 16) (j : Job) (k : Fin 64) (a : Account) (bytes : Option (List Byte)) (s : State),
    s.power = .up → CurrentJob s p i j → FirstWith s.store.accounts (fun x => x.number = j.account) k a →
    UnitFree s .pru →
    let e := s.pru.engines.get p
    let still := { e with motion := Motion.still }
    let lt (x y : Nat × Nat) : Prop := x.1 < y.1 ∨ x.1 = y.1 ∧ x.2 < y.2
    ((e.motion ≠ .read → exec (.stripeReadComplete p bytes) s = .next s)) ∧
    (e.motion = .read → j.state = .reading → (∀ d, readStripe bytes = some d → d.account = j.account) →
      ¬UnitFree s .plu →
      exec (.stripeReadComplete p bytes) s = .next (ask (.event (.stripeReadComplete p bytes)) s)) ∧
    (e.motion = .read → UnitFree s .plu → ∃ t, exec (.stripeReadComplete p bytes) s = .next t ∧
      UnchangedBut [.accounts, .pru, .buffers, .screens, .windows, .pacing, .inExecution] s t ∧
      (j.state ≠ .turnPage →
        let items := j.snapshot.getD
          ((a.summary.toList.map .summary) ++ (a.lines.filter fun l => !l.void).map .line)
        let Starts (page line : Nat) : Prop := GoesOn s t p i j items page line
          (if j.snapshot = none then s.store.accounts.set k (some { snapshotEntry a with
            activeDay := s.clock.day, activeSecond := s.clock.seconds })
          else s.store.accounts)
        match readStripe bytes with
        | some d => if d.account ≠ j.account then BadBookTaken s t p i j still .wrongBook .wrongBook
          else match a.printed with
            | some (page, line) => (lt (d.page, d.line) (page, line + 1) → Starts page (line + 1)) ∧
                (¬lt (d.page, d.line) (page, line + 1) → Starts d.page d.line)
            | none => Starts d.page d.line
        | none => if a.newBook = true then Starts 1 1
          else BadBookTaken s t p i j still .wrongBook .wrongBook) ∧
      (j.state = .turnPage → ∀ items page line, j.snapshot = some items → j.next = some (page, line) →
        match readStripe bytes with
        | some d => if d.account = j.account ∧ d.page = page then
            GoesOn s t p i j items page (max line d.line) s.store.accounts
          else BadBookTaken s t p i j still .wrongBook .wrongBook
        | none => BadBookTaken s t p i j still .wrongBook .wrongBook))

/-- LINE_DONE starts the head's return under the jam timer, and the item stands printed at its page and line: a line
its date, narrative, amount and, when present, balance-after, a summary its folded count, net amount and the dates of
its first and last keys (R126; the list of printed lines is the model's own record, log entry 38). When the head is
home the line is printed: the item is reported at its page and line and leaves the snapshot, the next position
advances, and the job goes on by the cases of R127, a cancel first of all; a second misfeed beyond the travel ends it
ABORTED (MISFEED) (R125). The report is an operation of the Passbook Line Unit, for whose turn HEAD_HOME waits (R100).
Without their motion the two events do nothing (R108, R126, R127).
That the book position stays through an eject and a stripe pass, and a job's edge until its next top edge, is log entry
54. -/
def Obligations.LinesArePrintedWhenTheHeadIsHome : Prop :=
  ∀ (p : PrinterNo) (i : Fin 16) (j : Job) (k : Fin 64) (a : Account) (item : PrintItem) (rest : List PrintItem)
    (page line : Nat) (s : State), let e := s.pru.engines.get p
    s.power = .up → CurrentJob s p i j → FirstWith s.store.accounts (fun x => x.number = j.account) k a →
    j.snapshot = some (item :: rest) → j.next = some (page, line) → UnitFree s .pru →
    (e.motion ≠ .line → exec (.lineDone p) s = .next s) ∧ (e.motion ≠ .headReturn → exec (.headHome p) s = .next s) ∧
    (e.motion = .line → ∃ t, exec (.lineDone p) s = .next t ∧ UnchangedBut [.pru, .out] s t ∧
      t.pru = { s.pru with engines := s.pru.engines.set p { e with motion := .headReturn } } ∧
      t.out = { s.out with printed := s.out.printed.set p (s.out.printed.get p ++ [⟨page, line, match item with
        | .line l => .line l.key.date l.narrative l.amount l.balance
        | .summary m => .summary m.count m.net m.first.date m.last.date⟩]) }) ∧
    (e.motion = .headReturn → ¬UnitFree s .plu → exec (.headHome p) s = .next (ask (.event (.headHome p)) s)) ∧
    (e.motion = .headReturn → UnitFree s .plu → ∃ t, exec (.headHome p) s = .next t ∧
      UnchangedBut [.accounts, .pru, .buffers, .screens, .windows, .pacing, .inExecution] s t ∧
      let accounts := s.store.accounts.set k (some { (match item with
        | .summary _ => { a with taken := none }
        | .line l => { a with lines := a.lines.eraseP fun x => x.key == l.key }) with
          printed := some (page, line)
          newBook := false
          activeDay := s.clock.day
          activeSecond := s.clock.seconds })
      if j.cancel = true then
        t.store.accounts = accounts ∧ t.store.pacing = s.store.pacing ∧ JobMoved s t p { e with motion := .write .finish false } i { j with
          snapshot := some rest, next := some (page, line + 1), state := .writingStripe,
          outcome := some (.partly .cancelled) } []
      else GoesOn s t p i j rest page (line + 1) accounts)

/-- A stripe write whose read-back agrees ends in the eject of its purpose: the job's end, the page turn with its
prompt, or the re-prompt of a misfeed; one that disagrees is written once more, and after a second disagreement the
job becomes EJECTING with PARTIAL (STRIPE_NOT_WRITTEN). An eject that ends a job ends it with its pending outcome; a
page turn's ends a job whose cancel was kept; any other, a clearing eject with no current job among them, changes
nothing more (R119, R125, R127, R128, R132; that a cancel kept while a misfeed's stripe is written ends the job
PARTIAL (CANCELLED) after it is log entry 31, and that a kept cancel gives way to STRIPE_NOT_WRITTEN after the second
disagreement log entry 65). An event waits for the turn of the Printer Unit, and of the Passbook
Line Unit where a job ends (R100).
That the book position stays through a stripe pass and an eject, and a job's edge until its next top edge, is log entry
54. -/
def Obligations.StripeWritesAreVerifiedAndBooksEjected : Prop :=
  (∀ (p : PrinterNo) (s : State), let e := s.pru.engines.get p
    TakenAt s [.pru] →
    (∀ bytes, s.power ≠ .up ∨ (∀ why second, e.motion ≠ .write why second) →
      exec (.stripeWriteComplete p bytes) s = .next s) ∧
    (s.power = .off ∨ (∀ why, e.motion ≠ .eject why) → exec (.ejectDone p) s = .next s) ∧
    ∀ why, e.motion = .eject why → s.power = .shut ∨ s.power = .up ∧ e.current = none →
      exec (.ejectDone p) s = .next { s with pru := { s.pru with
        engines := s.pru.engines.set p { e with motion := .still, inFeed := false } } }) ∧
  ∀ (p : PrinterNo) (i : Fin 16) (j : Job) (s : State), let e := s.pru.engines.get p
    s.power = .up → CurrentJob s p i j → UnitFree s .pru →
    (∀ why second bytes, e.motion = .write why second → ∃ t, exec (.stripeWriteComplete p bytes) s = .next t ∧
      UnchangedBut [.pru, .buffers, .screens, .windows, .inExecution] s t ∧
      let next := j.next.getD (1, 1)
      let ejecting := { e with motion := Motion.eject .finish }
      if bytes = some (stripeBytes j.account next.1 next.2) then
        match why with
        | .finish => JobMoved s t p ejecting i { j with state := .ejecting } []
        | .turn => t.scu = s.scu ∧
            t.pru = { s.pru with engines := s.pru.engines.set p { e with motion := .eject .turn } } ∧
            t.port.windows = notify (attention s j .turnPage j.attempts) s.port.windows
        | .retry => if j.cancel = true then
              JobMoved s t p ejecting i { j with state := .ejecting, outcome := some (.partly .cancelled) } []
            else j.state = .printing → JobMoved s t p { e with motion := .eject .retry } i
              { j with state := .awaitingBook } (attention s j .insertBook j.attempts)
      else if second = false then t.scu = s.scu ∧ t.port.windows = s.port.windows ∧
        t.pru = { s.pru with engines := s.pru.engines.set p { e with motion := .write why true } }
      else JobMoved s t p ejecting i
        { j with state := .ejecting, outcome := some (.partly .stripeNotWritten) } []) ∧
    ∀ why, e.motion = .eject why →
      let ends := why = .finish ∨ why = .turn ∧ j.cancel = true
      (ends → ¬UnitFree s .plu → exec (.ejectDone p) s = .next (ask (.event (.ejectDone p)) s)) ∧
      ((ends → UnitFree s .plu) → ∃ t, exec (.ejectDone p) s = .next t ∧
      UnchangedBut [.accounts, .pru, .buffers, .screens, .windows, .inExecution] s t ∧
      let out := { e with motion := Motion.still, inFeed := false }
      let Ends (o : JobEnd) : Prop := ∃ u, JobEnded s u i j o (freedEngine out j) ∧ t = startNext p u
      match why with
      | .finish => ∀ o, j.outcome = some o → Ends o
      | .turn => if j.cancel = true then Ends (.partly .cancelled)
          else t.pru = { s.pru with engines := s.pru.engines.set p out } ∧ UnchangedBut [.pru] s t
      | _ => t.pru = { s.pru with engines := s.pru.engines.set p out } ∧ UnchangedBut [.pru] s t)

/-- A book pulled from its sensor acts by the current job's state: a job READING waits again and prompts, one that is
printing, turning its page or writing its stripe ends PARTIAL (BOOK_PULLED), one EJECTING ends with its pending
outcome, and a book taken to turn the page or awaited changes no job. A jam timer that expires puts the printer out of
service, ends the job ABORTED (JAM), captures PRINTER_JAM and prompts; the queue stays (R117, R129, R130). With no
current job, or once the store is shut, a removal is only seen. That a removal makes the mechanism still in every
state, where R129 says no effect too, is log entry 31, and that step 1 of R117 releases what a job in WRITING_STRIPE
with BOOK_FULL or CANCELLED pending has not printed is log entry 57; the printer's number in a detail is log entry 35,
and the fault's source log entry 40. An event waits for the turn of the Printer Unit, and of the Passbook Line Unit
where a job ends (R100, R119).
That the book position stays when a book is pulled, jams or is ejected, and a job's edge until its next top edge, is log
entry 54. -/
def Obligations.PulledBooksAndJams : Prop :=
  (∀ (p : PrinterNo) (s : State), let e := s.pru.engines.get p
    TakenAt s [.pru] → s.power ≠ .up ∨ e.current = none →
    (e.present = false → exec (.bookRemoved p) s = .next s) ∧
    (e.present = true → exec (.bookRemoved p) s = .next { s with pru := { s.pru with
      engines := s.pru.engines.set p { e with motion := .still, inFeed := false, present := false } } }) ∧
    exec (.jamTimerExpiry p) s = .next s) ∧
  ∀ (p : PrinterNo) (i : Fin 16) (j : Job) (s : State), let e := s.pru.engines.get p
    let ends := j.state = .printing ∨ j.state = .writingStripe ∨ j.state = .ejecting ∨
      j.state = .turnPage ∧ turning e.motion = true
    s.power = .up → CurrentJob s p i j → UnitFree s .pru →
    (e.present = true → ends → ¬UnitFree s .plu → exec (.bookRemoved p) s = .next (ask (.event (.bookRemoved p)) s)) ∧
    (e.motion = .headReturn → ¬UnitFree s .plu →
      exec (.jamTimerExpiry p) s = .next (ask (.event (.jamTimerExpiry p)) s)) ∧
    (e.present = false → exec (.bookRemoved p) s = .next s) ∧
    (e.present = true → (ends → UnitFree s .plu) → ∃ t, exec (.bookRemoved p) s = .next t ∧
      UnchangedBut [.accounts, .pru, .buffers, .screens, .windows, .inExecution] s t ∧
      let out := { e with motion := Motion.still, inFeed := false, present := false }
      let Ends (o : JobEnd) : Prop := ∃ u, JobEnded s u i j o (freedEngine out j) ∧ t = startNext p u
      let Waits : Prop := UnchangedBut [.pru] s t ∧ t.pru = { s.pru with engines := s.pru.engines.set p out }
      match j.state with
      | .reading => JobMoved s t p out i { j with state := .awaitingBook } (attention s j .insertBook j.attempts)
      | .printing => Ends (.partly .bookPulled)
      | .writingStripe => Ends (.partly .bookPulled)
      | .turnPage => if turning e.motion = true then Ends (.partly .bookPulled) else Waits
      | .ejecting => ∀ o, j.outcome = some o → Ends o
      | _ => Waits) ∧
    (e.motion ≠ .headReturn → exec (.jamTimerExpiry p) s = .next s) ∧
    (e.motion = .headReturn → UnitFree s .plu → ∃ t u, exec (.jamTimerExpiry p) s = .next t ∧
      UnchangedBut [.accounts, .pru, .buffers, .screens, .windows, .fault, .inExecution] s t ∧
      JobEnded s u i j (.aborted .jam) { e with
        state := .outOfService, current := none, motion := .still, queue := e.queue.filter (· != j.id) } ∧
      t.pru = u.pru ∧ t.store = u.store ∧ t.scu = u.scu ∧
      t.port.fault = (if s.port.fault.held then { s.port.fault with lost := min 15 (s.port.fault.lost + 1) }
        else ⟨true, .printerJam, .pru, [.num (p.val + 1), .num j.id], s.clock.day, s.clock.seconds,
          s.port.fault.lost⟩) ∧
      t.port.windows = notify ((officerMaster, .fault .printerJam .pru [.num (p.val + 1), .num j.id]) ::
        attention s j .outOfService j.attempts) u.port.windows)

/-- A stripe written for an account, page and next line reads back as just those, so no part of them is lost on the
book; one that differs in length or in its check, that holds a digit above 9, or whose page or line is out of range, is
unreadable (R123, R193). -/
def Obligations.StripesReadBackWhatWasWritten : Prop :=
  (∀ account page line : Nat, account < 1000000000000 → 1 ≤ page → page ≤ 12 → 1 ≤ line → line ≤ 21 →
    readStripe (some (stripeBytes account page line)) = some ⟨account, page, line⟩) ∧
  (∀ account page line : Nat, account < 1000000000000 → page < 256 → line < 256 →
    (page = 0 ∨ 12 < page ∨ line = 0 ∨ 21 < line) → readStripe (some (stripeBytes account page line)) = none) ∧
  ∀ bytes : List Byte, bytes.length ≠ 10 ∨
    (∃ b ∈ bytes.take 6, 9 < b.toNat / 16 ∨ 9 < b.toNat % 16) ∨ bytes.drop 8 ≠ bytesOf 2 (crc16 (bytes.take 8)).toNat → readStripe (some bytes) = none
/-! ### Screens -/

/-- ROW.CLAIM gives the caller the lowest free master buffer, blank and without fields, or is refused TABLE_FULL;
ROW.FREE takes back the caller's own buffer that no map entry names (R141). ROW.WRITE writes the cells given into the
caller's own buffer from the column on: those past column 79 are cut off, those in a live field are kept, codes
outside 32 to 126 become 63, and the rows that show the buffer are marked (R139, R142, R148). Each check that fails
gives its outcome. -/
def Obligations.RowsAreClaimedFreedAndWritten : Prop :=
  ∀ (h : ReqHead) (s : State), FromAny h →
    let Stays (i : Instr) (kind : Nat) (code : Code) : Prop := ∃ t, exec i s = .next t ∧
      UnchangedBut [.windows, .responses, .inExecution, .turns] s t ∧ Answered h kind code false [] [] s t
    let Becomes (i : Instr) (kind : Nat) (b : BufferNo) (x : RowBuffer) (fields : List (Option (List Item))) : Prop :=
      ∃ t, exec i s = .next t ∧
        UnchangedBut [.buffers, .owners, .fields, .windows, .responses, .inExecution, .turns] s t ∧
        t.scu = { s.scu with buffers := s.scu.buffers.set b x } ∧ Answered h kind .done false fields [] s t
    (InService h (.rowClaim h) s →
      (∀ b, (s.scu.buffers.get b).owner = .free → (∀ k < b, (s.scu.buffers.get k).owner ≠ .free) →
        Becomes (.rowClaim h) 128 b ⟨.master h.master, 0, Table.fill 5 none, false, Table.fill 80 blankCell⟩
          [some [.num b.val]]) ∧
      ((∀ b, (s.scu.buffers.get b).owner ≠ .free) → Stays (.rowClaim h) 128 .tableFull)) ∧
    (∀ f : Fld Nat, (∀ b : BufferNo, f ≠ .value b.val) → InService h (.rowFree h f) s →
      Stays (.rowFree h f) 129 .badField) ∧
    (∀ b : BufferNo, let i : Instr := .rowFree h (.value b.val)
      let x := s.scu.buffers.get b
      InService h i s →
      (x.owner ≠ .master h.master → Stays i 129 .notOwner) ∧
      (x.owner = .master h.master → x.refs ≠ 0 → Stays i 129 .wrongState) ∧
      (x.owner = .master h.master → x.refs = 0 →
        Becomes i 129 b ⟨.free, 0, Table.fill 5 none, false, Table.fill 80 blankCell⟩ [])) ∧
    (∀ r : RowWriteReq, InService h (.rowWrite h r) s →
      (∀ b : BufferNo, r.buffer ≠ .value b.val) ∨ (∀ k : Fin 80, r.column ≠ .value k.val) ∨
        (∀ l : List Cell, 1 ≤ l.length → l.length ≤ 48 → r.cells ≠ .value l) →
      Stays (.rowWrite h r) 130 .badField) ∧
    ∀ (b : BufferNo) (column : Fin 80) (cells : List Cell),
      let i : Instr := .rowWrite h ⟨.value b.val, .value column.val, .value cells⟩
      let x := s.scu.buffers.get b
      let given := cells.map fun c => { c with code := keptCode c.code }
      let written (k : Fin 80) : Cell := if column.val ≤ k.val ∧ inField x k.val = false then
        (given[k.val - column.val]?).getD (x.cells.get k) else x.cells.get k
      InService h i s → 1 ≤ cells.length → cells.length ≤ 48 →
      (x.owner ≠ .master h.master → Stays i 130 .notOwner) ∧
      (x.owner = .master h.master → ∃ t, exec i s = .next t ∧
        UnchangedBut [.buffers, .screens, .windows, .responses, .inExecution, .turns] s t ∧
        BufferPut s.scu t.scu b { x with cells := Table.ofFn written } ∧
        Answered h 130 .done false [some [.num ((List.range 80).filter fun k =>
          column.val ≤ k && k < column.val + cells.length && !inField x k).length]] [] s t)

/-- MAP.SET sets one map entry, to a buffer of the part, of the caller or of master 4, or to blank: the count of the
buffer named before falls by 1, that of the one now named rises by 1, the row is dirty, and the answer gives the state
(R146, R147). FIELD.BIND empties a slot of the caller's own buffer, its cells blank, and binds the new field, which is
rendered at once in its width clamped into 1 to 20; the rows that show the buffer are marked (R143, R145, R148). That
the idle count of a position which the source names starts again, as R152 says of a position a request names, is the
model's reading, log entry 19.  What a field shows of its source, and in which form, SourceReportsRenderTheirFields
spells. -/
def Obligations.MapEntriesAndFieldsAreSet : Prop :=
  (∀ (h : ReqHead) (p : Position) (row : Row) (b : Option BufferNo) (s : State),
    let i : Instr := .mapSet h ⟨.value p.val, .value row.val,
      match b with | some b => .value b.val | none => .absent⟩
    let old := (s.scu.screens.get p).map.get row
    InService h i s → MayActFor h s p →
    (∀ k, b = some k → (s.scu.buffers.get k).owner = .part ∨
      (s.scu.buffers.get k).owner = .master h.master ∨ (s.scu.buffers.get k).owner = .master officerMaster) →
    ∃ t, exec i s = .next t ∧
      UnchangedBut [.buffers, .owners, .screens, .maps, .idles, .windows, .responses, .inExecution, .turns] s t ∧
      (∀ k, t.scu.buffers.get k = { s.scu.buffers.get k with
        refs := (s.scu.buffers.get k).refs - (if old = some k then 1 else 0) + if b = some k then 1 else 0 }) ∧
      t.scu.screens = (restartedScu s p).screens.modify p (fun x =>
        { x with map := x.map.set row b, dirty := x.dirty.set row true }) ∧
      Answered h 131 .done false [some [.num (shownState (t.scu.screens.get p))]] [] s t) ∧
  ∀ (h : ReqHead) (b : BufferNo) (slot : Fin 4) (column width : Nat) (f : SourceField) (s : State),
    let i : Instr := .fieldBind h ⟨.value b.val, .value slot.val, .value column, .value width, .value f⟩
    let x := s.scu.buffers.get b
    let w := max 1 (min 20 width)
    let begun : Scu := match f with
      | .quoteLeft q | .jobState q => restartedScu s (Fin.ofNat 12 q)
      | _ => s.scu
    let freed (k : Fin 80) : Cell := match x.fields.get slot.castSucc with
      | some g => if g.column ≤ k.val ∧ k.val < g.column + g.width then blankCell else x.cells.get k
      | none => x.cells.get k
    let Puts (field : Option LiveField) (cell : Fin 80 → Cell) : Prop := ∃ t, exec i s = .next t ∧
      UnchangedBut [.buffers, .fields, .screens, .idles, .windows, .responses, .inExecution, .turns] s t ∧
      BufferPut begun t.scu b
        { x with fields := x.fields.set slot.castSucc field, cells := Table.ofFn cell } ∧
      Answered h 132 .done false [some [.num w]] [] s t
    InService h i s → FromAny h → x.owner = .master h.master →
    (f = .none → Puts none freed) ∧
    ∀ src, checkedSource s f = some (some src) → column ≤ 79 → column + w ≤ 80 →
      (∀ j g, j ≠ slot.castSucc → x.fields.get j = some g →
        column + w ≤ g.column ∨ g.column + g.width ≤ column) →
      (∀ d, sourceDrawer src = some d → h.master = officerMaster ∨
        ∃ q, (s.store.drawers.get d).bound = some q ∧ servingMaster s q = h.master) →
      Puts (some ⟨column, w, src⟩) fun k =>
        if column ≤ k.val ∧ k.val < column + w then
          plainCell (((fitted w (shown s (.master h.master) src))[k.val - column]?).getD 32)
        else freed k

/-- What a source report does where it is taken at once.  Every live field of every buffer that is bound to a reported
source holds the fitted rendering of its source's value as it now is, every attribute clear; a report of a drawer's state
or of the day state renders totals too, and one of a binding's change the drawer row of its position (R139, R140, R144).
Cells outside those fields, owners, counts and fields stay.  The map entries of LIVE and DARK screens that name a buffer
whose cells the rendering altered, or whose changed flag was set, are dirty; no other flag has been set and none cleared;
and the changed flags are clear (R139, R144, R148).  The rendering is R145's: a number with a point before its last
decimals, at least one digit before it and a leading minus, right-aligned; a text left-aligned; asterisks where either is
too wide for the field; blanks where the value is absent, the count is blind or the drawer is kept from the buffer's
owner. -/
def Obligations.SourceReportsRenderTheirFields : Prop :=
  (∀ (s : State) (o : Owner) (w : Nat) (x : Source), w ≤ 20 →
    (fitted w (shown s o x)).length = w ∧ FieldShows s o w x (fitted w (shown s o x))) ∧
  ∀ (l : List Report) (s : State), (s.power = .up → UnitFree s .scu) →
    let t := report l s
    UnchangedBut [.buffers, .screens] s t ∧
    (∀ b, let x := s.scu.buffers.get b
      let y := t.scu.buffers.get b
      { y with cells := x.cells, changed := x.changed } = x ∧ y.changed = false ∧
      (∀ k f, x.fields.get k = some f → Renewed s l f.source →
        (∀ j g, j ≠ k → x.fields.get j = some g → f.Apart g) → Showing s x.owner f y.cells) ∧
      ∀ i, (∀ k f, x.fields.get k = some f → Renewed s l f.source → ¬f.Holds i) → y.cells.get i = x.cells.get i) ∧
    ∀ p, let x := s.scu.screens.get p
      let y := t.scu.screens.get p
      { y with dirty := x.dirty } = x ∧ ∀ n, y.dirty.get n = true ↔ x.dirty.get n = true ∨
        x.silent = false ∧ x.lockHeld = false ∧ ∃ b, x.map.get n = some b ∧
          ((s.scu.buffers.get b).changed = true ∨ (t.scu.buffers.get b).cells ≠ (s.scu.buffers.get b).cells)

/-- An idle count that reaches 0 sets lock held, stops, and tells the serving master; a LIVE or DARK screen becomes
LOCKED with every row dirty (R152). SCREEN.UNLOCK, from master 4 or with the teller signed on, clears lock held and
starts the count afresh; a LOCKED screen is dirty in every row (R154). SCREEN.SETTINGS takes an idle timeout, 0 or
clamped into 30 to 1800, by which running counts restart, stop, or start where they were off, and a lock text cut off
at 80 characters, which makes row 12 of LOCKED screens dirty (R156). While an operation asked earlier stands at the
Screen Unit the expiry changes nothing (R144). That the expiry command stands for the tick's part at one screen, which
it locks where at most one second is left, is log entry 12. -/
def Obligations.LocksComeAndGo : Prop :=
  (∀ (p : Position) (s : State), s.power ≠ .off →
    let x := s.scu.screens.get p
    ((∀ n, x.idle = some n → 1 < n) ∨ ¬TakenAt s [.scu] → exec (.idleCountExpiry p) s = .next s) ∧
    ∀ n, x.idle = some n → n ≤ 1 → TakenAt s [.scu] → ∃ t, exec (.idleCountExpiry p) s = .next t ∧
      UnchangedBut [.screens, .locks, .idles, .windows] s t ∧
      OneScreen p { x with
        lockHeld := true
        idle := none
        dirty := if x.silent = true ∨ x.lockHeld = true then x.dirty else Table.fill 24 true } s.scu t.scu ∧
      Raised [(servingMaster s p, .screen .locked p)] s t) ∧
  (∀ (h : ReqHead) (r : UnlockReq) (s : State), let i : Instr := .screenUnlock h r
    let Fails (code : Code) : Prop := ∃ t, exec i s = .next t ∧
      UnchangedBut [.screens, .idles, .windows, .responses, .inExecution, .turns] s t ∧ Answered h 134 code false [] [] s t
    InService h i s →
    ((∀ p : Position, r.position ≠ .value p.val) ∨ (∀ n ≤ 9999, r.teller ≠ .value n) → Fails .badField) ∧
    ∀ (p : Position) (n : Nat), r = ⟨.value p.val, .value n⟩ → n ≤ 9999 → h.spare = false → h.officer = false →
      h.master ≠ officerMaster → h.master.val ≠ (s.store.positions.get p).serving.val → Fails .notYourPosition) ∧
  (∀ (h : ReqHead) (p : Position) (teller : Nat) (s : State),
    let i : Instr := .screenUnlock h ⟨.value p.val, .value teller⟩
    let x := s.scu.screens.get p
    let known := h.master = officerMaster ∨ (s.store.positions.get p).teller = some teller
    let Refused (code : Code) : Prop := ∃ t, exec i s = .next t ∧
      UnchangedBut [.screens, .idles, .windows, .responses, .inExecution, .turns] s t ∧ t.scu = restartedScu s p ∧
      Answered h 134 code false [] [] s t
    InService h i s → MayActFor h s p → teller ≤ 9999 →
    (x.lockHeld = false → Refused .wrongState) ∧
    (x.lockHeld = true → ¬known → Refused .notPermitted) ∧
    (x.lockHeld = true → known → ∃ t, exec i s = .next t ∧
      UnchangedBut [.screens, .locks, .idles, .windows, .responses, .inExecution, .turns] s t ∧
      OneScreen p { x with
        lockHeld := false
        dirty := if x.silent = true then x.dirty else Table.fill 24 true
        idle := if (s.store.positions.get p).teller.isSome = true ∧ s.scu.idleTimeout ≠ 0 then
          some s.scu.idleTimeout else x.idle } s.scu t.scu ∧
      Answered h 134 .done false [some [.num (shownState (t.scu.screens.get p))]] [] s t)) ∧
  ∀ (h : ReqHead) (timeout : Option Nat) (text : Option (List Nat)) (s : State),
    let i : Instr := .screenSettings h ⟨match timeout with | some n => .value n | none => .absent,
      match text with | some l => .value l | none => .absent⟩
    let taken (n : Nat) : Nat := if n = 0 then 0 else max 30 (min 1800 n)
    InService h i s → FromOfficer h → ∃ t, exec i s = .next t ∧
      UnchangedBut [.screens, .idles, .idleTimeout, .lockText, .windows, .responses, .inExecution, .turns] s t ∧
      t.scu.idleTimeout = (timeout.map taken).getD s.scu.idleTimeout ∧
      t.scu.lockText = (text.map fun l => (l.take 80).map keptCode).getD s.scu.lockText ∧
      (∀ p, let x := s.scu.screens.get p
        t.scu.screens.get p = { x with
          idle := match timeout with
            | none => x.idle
            | some n => if n = 0 then none
              else if (s.store.positions.get p).teller.isSome = true ∧ x.lockHeld = false ∧
                (x.idle.isSome = true ∨ s.scu.idleTimeout = 0) then some (taken n) else x.idle
          dirty := if text.isSome = true ∧ x.lockHeld = true ∧ x.silent = false then x.dirty.set 12 true
            else x.dirty }) ∧
      Answered h 135 .done false [some [.num t.scu.idleTimeout],
        some [.flag (timeout.elim false fun n => taken n != n)]] [] s t

/-- A line with no row in flight on a screen that is not OFFLINE sends its lowest dirty row; an acknowledgement of the
latest send frees the line; the acknowledgement timer sends the row again, and the second time declares the line
silent, the row dirty again, and tells the serving master. A silent line is probed, and the answer to the latest probe
makes every row dirty and tells the serving master. Any other frame or expiry changes nothing. Frames and expiries are
so taken where no operation asked earlier stands at the Screen Unit, for which they wait; a row is sent whatever
stands there (R144, R149 to R151, R193; log entry 10).  That tries are 0 with no row in flight is the model's choice, log
entry 61. -/
def Obligations.DisplayLinesSendProbeAndRecover : Prop :=
  ∀ (p : Position) (s : State), s.power ≠ .off →
    let x := s.scu.screens.get p
    let Stays (i : Instr) : Prop := exec i s = .next s
    (x.inFlight.isSome = true ∨ x.silent = true ∨ (∀ n, x.dirty.get n = false) → Stays (.rowSend p)) ∧
    (∀ n, x.inFlight = none → x.silent = false → x.dirty.get n = true → (∀ k < n, x.dirty.get k = false) →
      ∃ t, exec (.rowSend p) s = .next t ∧ RowSent s t p n 1) ∧
    (TakenAt s [.scu] →
    (∀ number check, let good := check = Frame.check ⟨9, [number]⟩ ∧ x.inFlight.isSome = true ∧
        x.sendNo = number ∧ x.silent = false
      (¬good → Stays (.rowAck p number check)) ∧
      (good → ∃ t, exec (.rowAck p number check) s = .next t ∧ UnchangedBut [.screens, .lines] s t ∧
        OneScreen p { x with inFlight := none, tries := 0 } s.scu t.scu)) ∧
    (x.inFlight = none → Stays (.ackTimerExpiry p)) ∧
    (∀ n, x.inFlight = some n → x.tries = 1 → ∃ t, exec (.ackTimerExpiry p) s = .next t ∧ RowSent s t p n 2) ∧
    (∀ n, x.inFlight = some n → x.tries = 2 → ∃ t, exec (.ackTimerExpiry p) s = .next t ∧
      UnchangedBut [.screens, .lines, .windows] s t ∧
      OneScreen p { x with silent := true, inFlight := none, tries := 0, dirty := x.dirty.set n true, probe := none }
        s.scu t.scu ∧
      Raised [(servingMaster s p, .screen .offline p)] s t) ∧
    (x.silent = false → Stays (.probeTimerExpiry p)) ∧
    (x.silent = true → ∃ t, exec (.probeTimerExpiry p) s = .next t ∧ UnchangedBut [.screens, .lines, .out] s t ∧
      OneScreen p { x with sendNo := x.sendNo + 1, probe := some (x.sendNo + 1) } s.scu t.scu ∧
      t.out = { s.out with displays := s.out.displays.modify p fun l => l ++ [⟨2, [x.sendNo + 1]⟩] }) ∧
    ∀ number check, let good := check = Frame.check ⟨10, [number]⟩ ∧ x.silent = true ∧ x.probe = some number
      (¬good → Stays (.probeAnswer p number check)) ∧
      (good → ∃ t, exec (.probeAnswer p number check) s = .next t ∧
        UnchangedBut [.screens, .lines, .windows] s t ∧
        OneScreen p { x with silent := false, probe := none, dirty := Table.fill 24 true } s.scu t.scu ∧
        Raised [(servingMaster s p, .screen .online p)] s t))

/-! ### The business day and the head-office line -/

/-- DAY.OPEN in NO_DAY, for a date later than the last delivered, with the branch number set and home currency
defined: a DAY_OPEN record with the date, the day OPEN without a reference, and every drawer IDLE with its opening
counts the current ones, its totals, tally and attempts 0 and no counted counts (R11, R160). DAY.CLOSE in OPEN: a
DAY_CLOSE_BEGIN record, the day CLOSING and every HELD quote EXPIRED (DAY_CLOSE) (R59, R161). DAY.REOPEN in CLOSING
while no drawer is settled: a DAY_REOPEN record and the day OPEN (R162). Each change of the day is raised to master 4
(R159). A refusal's detail without a presence mask is log entry 59. -/
def Obligations.TheDayOpensClosesAndReopens : Prop :=
  ∀ (h : ReqHead) (s : State), FromOfficer h → JournalWhole s →
    let day := s.store.day
    let number : List (Option (List Item)) := [some [.num (day.used + 1)]]
    (∀ year month date : Nat, let whole := 10000 * year + 100 * month + date
      let i : Instr := .dayOpen h (.value whole)
      let longest := if month = 2 then (if year % 4 = 0 ∧ year % 100 ≠ 0 ∨ year % 400 = 0 then 29 else 28)
        else if month = 4 ∨ month = 6 ∨ month = 9 ∨ month = 11 then 30 else 31
      InService h i s → day.state = .noDay → year ≤ 9999 → 1 ≤ month → month ≤ 12 → 1 ≤ date → date ≤ longest →
      (∀ x, day.lastDelivered = some x → x < whole) → s.store.lineSettings.branch.isSome = true →
      (s.store.currencies.get 0).defined = true →
      ∃ t, exec i s = .next t ∧ UnchangedBut [.journal, .day, .drawers, .counted, .buffers, .screens, .windows,
          .responses, .inExecution, .turns] s t ∧
        Rendered s.scu t.scu ∧ Appended { emptyRecord .dayOpen with account := some whole } .none s t ∧
        t.store.day = { day with state := .opened, date := some whole, reference := none, used := day.used + 1 } ∧
        (∀ n, t.store.drawers.get n = { s.store.drawers.get n with
          opening := Table.ofFn fun x => if (s.store.currencies.get (denomCurrency x)).defined = true then
            (s.store.drawers.get n).current.get x else (s.store.drawers.get n).opening.get x
          receipts := Table.fill 4 0
          payments := Table.fill 4 0
          transfersIn := Table.fill 4 0
          transfersOut := Table.fill 4 0
          tally := 0
          attempts := 0
          state := .idle
          lastApplied := 1 }) ∧
        (∀ n, t.counted.get n = none) ∧
        Answered h 144 .done false number (highNotice s ++ [(officerMaster, .dayChanged .opened)]) s t) ∧
    (InService h (.dayClose h) s → day.state = .opened → day.used + s.jsu.holds + 1 ≤ 16383 →
      ∃ t, exec (.dayClose h) s = .next t ∧ UnchangedBut [.journal, .day, .exu, .buffers, .screens, .windows,
          .responses, .inExecution, .turns] s t ∧
        Rendered s.scu t.scu ∧ Appended (emptyRecord .dayCloseBegin) .none s t ∧
        t.store.day = { day with state := .closing, used := day.used + 1 } ∧ t.exu.made = s.exu.made ∧
        (∀ j, t.exu.quotes.get j = (s.exu.quotes.get j).map fun q =>
          if q.state = .held then { q with state := .expired .dayClose } else q) ∧
        Answered h 145 .done false number (highNotice s ++ [(officerMaster, .dayChanged .closing)]) s t) ∧
    (InService h (.dayReopen h) s → day.state = .closing → day.used + s.jsu.holds + 1 ≤ 16383 →
      ((∀ n, ¬Settled s n) → ∃ t, exec (.dayReopen h) s = .next t ∧
        UnchangedBut [.journal, .day, .buffers, .screens, .windows, .responses, .inExecution, .turns] s t ∧
        Rendered s.scu t.scu ∧ Appended (emptyRecord .dayReopen) .none s t ∧
        t.store.day = { day with state := .opened, used := day.used + 1 } ∧
        Answered h 146 .done false number (highNotice s ++ [(officerMaster, .dayChanged .opened)]) s t) ∧
      ∀ n, Settled s n → (∀ k < n, ¬Settled s k) → ∃ t, exec (.dayReopen h) s = .next t ∧
        UnchangedBut [.windows, .responses, .inExecution, .turns] s t ∧
        Answered h 146 .wrongState false [some [.num n.val]] [] s t)

/-- DAY.SEAL in CLOSING, every drawer CLOSED and no transfer OFFERED. A job past AWAITING_BOOK refuses it with nothing
changed. Otherwise the jobs, QUEUED and AWAITING_BOOK, end CANCELLED (DAY_SEAL) in ascending slot order, each by R117
with its PRINT_DONE, a job that kept its snapshot from a misfeed's new prompt with its items released; and where no
line is in another snapshot a DAY_SEAL record, the day SEALED, the carry count m of the summaries and lines not void,
books in a feed ejected and the printers sealed; it answers the sequence, n, m and T (R113, R117, R136, R163, R164,
R168; the detail's number is log entry 7, that it stands without a presence mask log entry 59, and that a jammed
printer keeps its book log entry 33, and that an engine keeps its book position through the eject log entry 54). DAY.SEND: the day SENDING, line ready raised and the first CALL sent (R165,
R170, R171; that it leaves within DAY.SEND is log entry 36). DAY.CLEAR of a delivered day: NO_DAY, the journal unused,
bindings and transfers ended, the sender IDLE with its counts kept (log entry 36) and the locks of bound positions
ended (R12, R96, R136, R153, R166). -/
def Obligations.DaysAreSealedSentAndCleared : Prop :=
  ∀ (h : ReqHead) (s : State), FromOfficer h →
    let day := s.store.day
    let total (n m : Nat) : Nat := 3 + (n + 31) / 32 + (m + 31) / 32
    (let i : Instr := .daySeal h
      let lines (x : State) : Nat := ((x.store.accounts.list.filterMap id).map fun a =>
        (if a.summary.isSome = true then 1 else 0) + (a.lines.filter fun l => !l.void).length).sum
      InService h i s → JournalWhole s → day.state = .closing → day.used + s.jsu.holds + 1 ≤ 16384 →
      (∀ n, (s.store.drawers.get n).state = .closed) →
      (∀ j a, s.store.transfers.get j = some a → a.state ≠ .offered) →
      ((∃ k j, s.pru.jobs.get k = some j ∧ j.state ≠ .queued ∧ j.state ≠ .awaitingBook) →
        ∃ t, exec i s = .next t ∧ UnchangedBut [.windows, .responses, .inExecution, .turns] s t ∧
          Answered h 147 .wrongState false [some [.num 3]] [] s t) ∧
      ((∀ k j, s.pru.jobs.get k = some j → j.state = .queued ∨ j.state = .awaitingBook) →
        (∀ k a, s.store.accounts.get k = some a → a.taken.isSome = true ∨ (∃ l ∈ a.lines, l.inSnapshot = true) →
          ∃ n j, s.pru.jobs.get n = some j ∧ j.snapshot.getD [] ≠ [] ∧
            FirstWith s.store.accounts (fun x => x.number = j.account) k a) →
        ∃ v t, exec i s = .next t ∧ CancelledInTurn s v (List.finRange 16) ∧ (∀ k, v.pru.jobs.get k = none) ∧
          (∀ k a, v.store.accounts.get k = some a → a.taken = none ∧ ∀ l ∈ a.lines, l.inSnapshot = false) ∧
          UnchangedBut [.journal, .day, .carryCount, .pru, .buffers, .screens, .windows, .responses,
            .inExecution, .turns] v t ∧
          t.store.day = { day with state := .sealed, used := day.used + 1 } ∧ t.store.carryCount = lines v ∧
          Appended (emptyRecord .daySeal) .none s t ∧ Rendered v.scu t.scu ∧
          { t.pru with engines := v.pru.engines } = { v.pru with sealAnswered := true } ∧
          (∀ p, t.pru.engines.get p = { v.pru.engines.get p with
            motion := if (v.pru.engines.get p).inFeed = true ∧ (v.pru.engines.get p).state ≠ .outOfService then
                .eject .clearing
              else (v.pru.engines.get p).motion }) ∧
          Answered h 147 .done false [some [.num (day.used + 1)], some [.num (day.used + 1)], some [.num (lines v)],
              some [.num (total (day.used + 1) (lines v))]]
            (highNotice s ++ [(officerMaster, .dayChanged .sealed)]) v t)) ∧
    (∀ branch, InService h (.daySend h) s → day.state = .sealed → s.store.lineSettings.branch = some branch →
      ∃ t, exec (.daySend h) s = .next t ∧ UnchangedBut [.day, .sender, .out, .buffers, .screens, .windows,
          .responses, .inExecution, .turns] s t ∧
        let all := total day.used s.store.carryCount
        Rendered s.scu t.scu ∧ t.store.day = { day with state := .sending } ∧
        t.sender = ⟨.waitReady, 1, none, [], 0, some s.store.lineSettings.timeout, 0, none⟩ ∧
        t.out = { s.out with
          lineReady := true
          line := s.out.line ++ [⟨1, bytesOf 2 branch ++ packedDigits 4 (day.date.getD 0) ++ bytesOf 2 all ++
            bytesOf 2 (day.ackThrough + 1)⟩] } ∧
        Answered h 148 .done false [some [.num all], some [.num (day.ackThrough + 1)]]
          [(officerMaster, .dayChanged .sending)] s t) ∧
    (InService h (.dayClear h) s → day.state = .delivered → ∃ t, exec (.dayClear h) s = .next t ∧
      UnchangedBut [.day, .drawers, .bounds, .positions, .transfers, .board, .sender, .pru, .buffers, .screens,
        .locks, .idles, .windows, .responses, .inExecution, .turns] s t ∧
      t.store.day = { day with
        state := .noDay, date := none, lastDelivered := day.date, ackThrough := 0, used := 0, openCommits := [] } ∧
      (∀ n, t.store.drawers.get n = { s.store.drawers.get n with bound := none, lastApplied := 0 }) ∧
      (∀ p, t.store.positions.get p = { s.store.positions.get p with drawer := none, teller := none }) ∧
      (∀ j, t.store.transfers.get j = none) ∧ t.store.board = { s.store.board with lastApplied := 0 } ∧
      t.sender = { s.sender with state := .idle } ∧ t.pru = { s.pru with sealAnswered := false } ∧
      Rendered { s.scu with screens := Table.ofFn fun p =>
        let x := s.scu.screens.get p
        let e := s.store.positions.get p
        if e.drawer.isSome = true ∨ e.teller.isSome = true then
          { x with
            idle := none
            lockHeld := false
            dirty := if x.lockHeld = true ∧ x.silent = false then Table.fill 24 true else x.dirty }
        else x } t.scu ∧
      Answered h 149 .done false [some [.date (day.date.getD 0)]] [(officerMaster, .dayChanged .noDay)] s t)

/-- What each block of the day-end file carries, with n the journal count and m the carry count: the header's branch
number, business date, n, m and T; the journal in blocks of 32, each record its image with the applied mark set; the 13
drawers, each its number, its opening and closing counts of every denomination of every defined currency, its rounding
tally and its count attempts; the carry-over set in blocks of 32, by ascending account its summary and its lines not void;
the trailer's n, 13, m, all records, T, the numbers of POSTING and of REVERSAL records and the sum of their home amounts
modulo 2^32.  Blocks are numbered from 1 in that order and carry their section and record count, each record its length
(R113, R168, R169, R192, R193).  The layouts of header, summary and line are the model's choice, log entry 37, and absent
rates as zeros log entry 8. -/
def Obligations.BlocksCarryTheDayEndFile : Prop :=
  ∀ s : State, let n := s.store.day.used
    let m := s.store.carryCount
    let j := (n + 31) / 32
    let c := (m + 31) / 32
    let all := 3 + j + c
    let journal := s.store.journal.take n
    let counts (k : Counts) : List Byte := (definedDenoms s).flatMap fun x =>
      bytesOf 1 (64 * (x.val / 12) + x.val % 12) ++ countBytes (k.get x)
    let cash := journal.filter fun r => r.kind == .posting || r.kind == .reversal
    let numberOf (kind : RecordKind) : Nat := (journal.filter fun r => r.kind == kind).length
    blockFrame s 1 = framed 1 1 [bytesOf 2 (s.store.lineSettings.branch.getD 0) ++
      packedDigits 4 (s.store.day.date.getD 0) ++ bytesOf 2 n ++ bytesOf 2 m ++ bytesOf 2 all] ∧
    (∀ i < j, blockFrame s (2 + i) = framed (2 + i) 2 (((journal.drop (32 * i)).take 32).map fun r =>
      laidOut { r with applied := true })) ∧
    blockFrame s (2 + j) = framed (2 + j) 3 ((List.finRange 13).map fun d =>
      let e := s.store.drawers.get d
      bytesOf 1 d.val ++ counts e.opening ++ counts e.current ++ amountBytes e.tally ++ bytesOf 1 e.attempts) ∧
    (∀ held : List Account, held.Perm (s.store.accounts.list.filterMap id) →
      held.Pairwise (fun a b => a.number < b.number) → ∀ i < c, blockFrame s (3 + j + i) =
        framed (3 + j + i) 4 (((held.flatMap carriedOver).drop (32 * i)).take 32)) ∧
    blockFrame s all = framed all 5 [[n, 13, m, 1 + n + 13 + m + 1, all, numberOf .posting, numberOf .reversal,
      ((cash.map fun r => r.homeAmount.getD 0).sum % 4294967296).toNat].flatMap (bytesOf 4)]

/-- What head office sends, frame by frame. READY in WAIT_READY resumes at the block it names, or the sender fails
BAD_RESUME after an ABORT; BUSY waits 30 seconds, or at the fifth CALL fails BUSY_LIMIT; ACK of an outstanding block
acknowledges every block up to it; NAK is a retry; CLOSED in WAIT_CLOSED with a reference of 1 to 16 characters
delivers the day. A frame with a good check that the state does not admit counts as an anomaly, and one with a bad
check, or in IDLE, DONE or FAILED, changes nothing (R169 to R175, R193). A block built from a record whose check fails
is not sent: the sender fails by STORE_CHECK, with that fault alone (R83, R169, R175). The order of the notices and
the timeout kept by each block are log entry 36, the sources of the faults log entry 40, and a CLOSED whose reference
is of other characters, counted as an anomaly, log entry 44. What a block carries BlocksCarryTheDayEndFile spells. A frame waits where an operation asked earlier stands at
the Day and Line Unit, and one that sends a block of the carry-over section where one stands at the Passbook Line
Unit, from which the block is read (R100, R159, R169). -/
def Obligations.HeadOfficeFramesAreTaken : Prop :=
  ∀ s : State, s.power = .up → UnitFree s .dlu →
    let x := s.sender
    let k := s.store.day.ackThrough
    let Counts (i : Instr) : Prop := ∃ t, exec i s = .next t ∧ Anomalous s t
    let Drops (i : Instr) (good : Prop) : Prop := ¬good ∨ ¬Listens s → exec i s = .next s
    let Waits (i : Instr) : Prop := readsCarry s (eventEffect i s) = true → ¬UnitFree s .plu →
      exec i s = .next (ask (.event i) s)
    (∀ e check : Word, let i : Instr := .ready e check
      let good := check = Frame.check ⟨17, bytesOf 2 e.toNat⟩
      Drops i good ∧ Waits i ∧ (good → Listens s →
        (x.state ≠ .waitReady ∨ e = 0 → Counts i) ∧
        (x.state = .waitReady → e ≠ 0 → e.toNat ≤ k + 1 → UnitFree s .plu → ∃ t, exec i s = .next t ∧
          TransferGoesOn s t (e.toNat - 1) [] { x with state := .sending, timer := none, outstanding := [] }) ∧
        (x.state = .waitReady → k + 1 < e.toNat → ∃ t, exec i s = .next t ∧
          SenderFailed { s with out := { s.out with line := s.out.line ++ [⟨4, []⟩] } } t .badResume))) ∧
    (∀ check : Word, let i : Instr := .busy check
      let good := check = Frame.check ⟨18, []⟩
      Drops i good ∧ (good → Listens s →
        (x.state ≠ .waitReady → Counts i) ∧
        (x.state = .waitReady → x.calls < 5 →
          exec i s = .next { s with sender := { x with state := .calling, timer := none, wait := some 30 } }) ∧
        (x.state = .waitReady → 5 ≤ x.calls → ∃ t, exec i s = .next t ∧ SenderFailed s t .busyLimit))) ∧
    (∀ n check : Word, let i : Instr := .ack n check
      let good := check = Frame.check ⟨19, bytesOf 2 n.toNat⟩
      let out := x.state = .sending ∧ ∃ b ∈ x.outstanding, b.block = n.toNat
      let kept := x.outstanding.filter fun b => decide (n.toNat < b.block)
      Drops i good ∧ Waits i ∧ (good → Listens s →
        (¬out → Counts i) ∧
        (out → UnitFree s .plu → ∃ t, exec i s = .next t ∧ TransferGoesOn s t n.toNat kept { x with outstanding := kept }))) ∧
    (∀ n check : Word, let i : Instr := .nak n check
      let good := check = Frame.check ⟨20, bytesOf 2 n.toNat⟩
      let found := x.outstanding.find? fun b => b.block == n.toNat
      Drops i good ∧ Waits i ∧ (good → Listens s →
        (x.state ≠ .sending ∨ found = none → Counts i) ∧
        ∀ b, x.state = .sending → found = some b → UnitFree s .plu → ∃ t, exec i s = .next t ∧ Retried s t b)) ∧
    (∀ (reference : List Byte) (check : Word), let i : Instr := .closed reference check
      let good := check = Frame.check ⟨21, bytesOf 1 reference.length ++ reference⟩
      let ends := x.state = .waitClosed ∧ 1 ≤ reference.length ∧ reference.length ≤ 16 ∧
        ∀ b ∈ reference, 32 ≤ b.toNat ∧ b.toNat ≤ 126
      Drops i good ∧ (good → Listens s →
        (¬ends → Counts i) ∧
        (ends → ∃ t, exec i s = .next t ∧ UnchangedBut [.sender, .out, .day, .buffers, .screens, .windows, .inExecution] s t ∧
          Rendered s.scu t.scu ∧ t.sender = { x with state := .done, timer := none } ∧
          t.out = { s.out with lineReady := false } ∧
          t.store.day = { s.store.day with reference := some reference, state := .delivered } ∧
          t.port.windows = notify [(officerMaster, .dayChanged .delivered), (officerMaster, .delivered reference)]
            s.port.windows))) ∧
    ∀ bytes : List Byte, let i : Instr := .unknownFrame bytes
      let good := frameStands bytes = true ∧ isKnownFrame bytes = false
      Drops i good ∧ (good → Listens s → Counts i)

/-- The sender's expiries. A wait for the next CALL that ends sends it (R171). The response timer in WAIT_READY sends
CALL again, or at the fifth fails NO_ANSWER (R171); in WAIT_CLOSED it sends END again, or at the fifth fails END_LIMIT
(R174). The oldest outstanding block whose age reaches the response timeout takes a retry, which a record whose check
fails ends by STORE_CHECK (R169, R173, R175). Elsewhere each of them changes nothing. That these commands act where at
most one second is left is log entry 12, the timeout kept by each block and the order of the notices log entry 36, and
the source of the fault log entry 40. While an operation asked earlier stands at the Day and Line Unit, or at the
Passbook Line Unit from which a block of the carry-over section is read again, an expiry changes nothing (R100, R159).
-/
def Obligations.SenderExpiriesResendOrFail : Prop :=
  ∀ s : State, s.power = .up →
    let x := s.sender
    let due (i : Instr) (state : SenderState) (ready : Prop) (effect : State → Prop) : Prop :=
      (x.state = state → ready → ∃ t, exec i s = .next t ∧ effect t) ∧
        (x.state ≠ state ∨ ¬ready → exec i s = .next s)
    let timed := ∃ n, x.timer = some n ∧ n ≤ 1
    (¬UnitFree s .dlu → ∀ i ∈ [Instr.callWaitExpiry, .responseTimerExpiry, .endTimerExpiry, .blockAgeTimeout],
      exec i s = .next s) ∧
    (¬UnitFree s .plu → readsCarry s (blockAgeDue s) = true → exec .blockAgeTimeout s = .next s) ∧
    (UnitFree s .dlu →
    due .callWaitExpiry .calling (x.wait.getD 0 ≤ 1) (CallSent s) ∧
    due .responseTimerExpiry .waitReady timed
      (fun t => if x.calls < 5 then CallSent s t else SenderFailed s t .noAnswer) ∧
    due .endTimerExpiry .waitClosed timed
      (fun t => if x.endTries < 5 then EndSent s t (x.endTries + 1) else SenderFailed s t .endLimit) ∧
    (UnitFree s .plu → due .blockAgeTimeout .sending (∃ b, x.outstanding.head? = some b ∧ b.limit ≤ b.age + 1)
      fun t => ∀ b, x.outstanding.head? = some b → Retried s t b))
end

