-- ==== Sys2Proof/Laws/State.lean ====
section
/-! SUPPORT. What each plain update of the state does to each field: one lemma per field, true by
computation, for the simplifier.  A lemma about a field the update leaves says so; one about a field it
writes gives its value. -/

namespace Sys2Proof.Machine

variable (s : State)

/-! ### modifyWindow -/

@[simp] theorem modifyWindow_pending (m : Master) (f : Window → Window) :
    (modifyWindow m f s).pending = s.pending := rfl
@[simp] theorem modifyWindow_power (m : Master) (f : Window → Window) :
    (modifyWindow m f s).power = s.power := rfl
@[simp] theorem modifyWindow_clock (m : Master) (f : Window → Window) :
    (modifyWindow m f s).clock = s.clock := rfl
@[simp] theorem modifyWindow_store (m : Master) (f : Window → Window) :
    (modifyWindow m f s).store = s.store := rfl
@[simp] theorem modifyWindow_kept (m : Master) (f : Window → Window) :
    (modifyWindow m f s).kept = s.kept := rfl
@[simp] theorem modifyWindow_jsu (m : Master) (f : Window → Window) : (modifyWindow m f s).jsu = s.jsu := rfl
@[simp] theorem modifyWindow_delivery (m : Master) (f : Window → Window) :
    (modifyWindow m f s).delivery = s.delivery := rfl
@[simp] theorem modifyWindow_counted (m : Master) (f : Window → Window) :
    (modifyWindow m f s).counted = s.counted := rfl
@[simp] theorem modifyWindow_exu (m : Master) (f : Window → Window) : (modifyWindow m f s).exu = s.exu := rfl
@[simp] theorem modifyWindow_pru (m : Master) (f : Window → Window) : (modifyWindow m f s).pru = s.pru := rfl
@[simp] theorem modifyWindow_scu (m : Master) (f : Window → Window) : (modifyWindow m f s).scu = s.scu := rfl
@[simp] theorem modifyWindow_sender (m : Master) (f : Window → Window) :
    (modifyWindow m f s).sender = s.sender := rfl
@[simp] theorem modifyWindow_out (m : Master) (f : Window → Window) : (modifyWindow m f s).out = s.out := rfl
@[simp] theorem modifyWindow_freeCount (m : Master) (f : Window → Window) :
    (modifyWindow m f s).freeCount = s.freeCount := rfl
@[simp] theorem modifyWindow_port_windows (m : Master) (f : Window → Window) :
    (modifyWindow m f s).port.windows = s.port.windows.modify m f := rfl
@[simp] theorem modifyWindow_port_lastServed (m : Master) (f : Window → Window) :
    (modifyWindow m f s).port.lastServed = s.port.lastServed := rfl
@[simp] theorem modifyWindow_port_burstUsed (m : Master) (f : Window → Window) :
    (modifyWindow m f s).port.burstUsed = s.port.burstUsed := rfl
@[simp] theorem modifyWindow_port_inExecution (m : Master) (f : Window → Window) :
    (modifyWindow m f s).port.inExecution = s.port.inExecution := rfl
@[simp] theorem modifyWindow_port_order (m : Master) (f : Window → Window) :
    (modifyWindow m f s).port.order = s.port.order := rfl
@[simp] theorem modifyWindow_port_fault (m : Master) (f : Window → Window) :
    (modifyWindow m f s).port.fault = s.port.fault := rfl

/-! ### modifyDay -/

@[simp] theorem modifyDay_pending (f : DayRecord → DayRecord) : (modifyDay f s).pending = s.pending := rfl
@[simp] theorem modifyDay_power (f : DayRecord → DayRecord) : (modifyDay f s).power = s.power := rfl
@[simp] theorem modifyDay_clock (f : DayRecord → DayRecord) : (modifyDay f s).clock = s.clock := rfl
@[simp] theorem modifyDay_kept (f : DayRecord → DayRecord) : (modifyDay f s).kept = s.kept := rfl
@[simp] theorem modifyDay_jsu (f : DayRecord → DayRecord) : (modifyDay f s).jsu = s.jsu := rfl
@[simp] theorem modifyDay_delivery (f : DayRecord → DayRecord) : (modifyDay f s).delivery = s.delivery := rfl
@[simp] theorem modifyDay_counted (f : DayRecord → DayRecord) : (modifyDay f s).counted = s.counted := rfl
@[simp] theorem modifyDay_exu (f : DayRecord → DayRecord) : (modifyDay f s).exu = s.exu := rfl
@[simp] theorem modifyDay_pru (f : DayRecord → DayRecord) : (modifyDay f s).pru = s.pru := rfl
@[simp] theorem modifyDay_scu (f : DayRecord → DayRecord) : (modifyDay f s).scu = s.scu := rfl
@[simp] theorem modifyDay_sender (f : DayRecord → DayRecord) : (modifyDay f s).sender = s.sender := rfl
@[simp] theorem modifyDay_port (f : DayRecord → DayRecord) : (modifyDay f s).port = s.port := rfl
@[simp] theorem modifyDay_out (f : DayRecord → DayRecord) : (modifyDay f s).out = s.out := rfl
@[simp] theorem modifyDay_freeCount (f : DayRecord → DayRecord) :
    (modifyDay f s).freeCount = s.freeCount := rfl
@[simp] theorem modifyDay_store_header (f : DayRecord → DayRecord) :
    (modifyDay f s).store.header = s.store.header := rfl
@[simp] theorem modifyDay_store_day (f : DayRecord → DayRecord) :
    (modifyDay f s).store.day = f s.store.day := rfl
@[simp] theorem modifyDay_store_lineSettings (f : DayRecord → DayRecord) :
    (modifyDay f s).store.lineSettings = s.store.lineSettings := rfl
@[simp] theorem modifyDay_store_currencies (f : DayRecord → DayRecord) :
    (modifyDay f s).store.currencies = s.store.currencies := rfl
@[simp] theorem modifyDay_store_drawers (f : DayRecord → DayRecord) :
    (modifyDay f s).store.drawers = s.store.drawers := rfl
@[simp] theorem modifyDay_store_positions (f : DayRecord → DayRecord) :
    (modifyDay f s).store.positions = s.store.positions := rfl
@[simp] theorem modifyDay_store_burst (f : DayRecord → DayRecord) :
    (modifyDay f s).store.burst = s.store.burst := rfl
@[simp] theorem modifyDay_store_transfers (f : DayRecord → DayRecord) :
    (modifyDay f s).store.transfers = s.store.transfers := rfl
@[simp] theorem modifyDay_store_nextTransfer (f : DayRecord → DayRecord) :
    (modifyDay f s).store.nextTransfer = s.store.nextTransfer := rfl
@[simp] theorem modifyDay_store_board (f : DayRecord → DayRecord) :
    (modifyDay f s).store.board = s.store.board := rfl
@[simp] theorem modifyDay_store_classes (f : DayRecord → DayRecord) :
    (modifyDay f s).store.classes = s.store.classes := rfl
@[simp] theorem modifyDay_store_accounts (f : DayRecord → DayRecord) :
    (modifyDay f s).store.accounts = s.store.accounts := rfl
@[simp] theorem modifyDay_store_lastTaken (f : DayRecord → DayRecord) :
    (modifyDay f s).store.lastTaken = s.store.lastTaken := rfl
@[simp] theorem modifyDay_store_lastAnswer (f : DayRecord → DayRecord) :
    (modifyDay f s).store.lastAnswer = s.store.lastAnswer := rfl
@[simp] theorem modifyDay_store_carryCount (f : DayRecord → DayRecord) :
    (modifyDay f s).store.carryCount = s.store.carryCount := rfl
@[simp] theorem modifyDay_store_pacing (f : DayRecord → DayRecord) :
    (modifyDay f s).store.pacing = s.store.pacing := rfl
@[simp] theorem modifyDay_store_journal (f : DayRecord → DayRecord) :
    (modifyDay f s).store.journal = s.store.journal := rfl

/-! ### setDayState -/

@[simp] theorem setDayState_pending (x : DayState) : (setDayState x s).pending = s.pending := rfl
@[simp] theorem setDayState_power (x : DayState) : (setDayState x s).power = s.power := rfl
@[simp] theorem setDayState_clock (x : DayState) : (setDayState x s).clock = s.clock := rfl
@[simp] theorem setDayState_kept (x : DayState) : (setDayState x s).kept = s.kept := rfl
@[simp] theorem setDayState_jsu (x : DayState) : (setDayState x s).jsu = s.jsu := rfl
@[simp] theorem setDayState_delivery (x : DayState) : (setDayState x s).delivery = s.delivery := rfl
@[simp] theorem setDayState_counted (x : DayState) : (setDayState x s).counted = s.counted := rfl
@[simp] theorem setDayState_exu (x : DayState) : (setDayState x s).exu = s.exu := rfl
@[simp] theorem setDayState_pru (x : DayState) : (setDayState x s).pru = s.pru := rfl
@[simp] theorem setDayState_scu (x : DayState) : (setDayState x s).scu = s.scu := rfl
@[simp] theorem setDayState_sender (x : DayState) : (setDayState x s).sender = s.sender := rfl
@[simp] theorem setDayState_port (x : DayState) : (setDayState x s).port = s.port := rfl
@[simp] theorem setDayState_out (x : DayState) : (setDayState x s).out = s.out := rfl
@[simp] theorem setDayState_freeCount (x : DayState) : (setDayState x s).freeCount = s.freeCount := rfl
@[simp] theorem setDayState_store_header (x : DayState) :
    (setDayState x s).store.header = s.store.header := rfl
@[simp] theorem setDayState_store_day (x : DayState) :
    (setDayState x s).store.day = { s.store.day with state := x } := rfl
@[simp] theorem setDayState_store_lineSettings (x : DayState) :
    (setDayState x s).store.lineSettings = s.store.lineSettings := rfl
@[simp] theorem setDayState_store_currencies (x : DayState) :
    (setDayState x s).store.currencies = s.store.currencies := rfl
@[simp] theorem setDayState_store_drawers (x : DayState) :
    (setDayState x s).store.drawers = s.store.drawers := rfl
@[simp] theorem setDayState_store_positions (x : DayState) :
    (setDayState x s).store.positions = s.store.positions := rfl
@[simp] theorem setDayState_store_burst (x : DayState) : (setDayState x s).store.burst = s.store.burst := rfl
@[simp] theorem setDayState_store_transfers (x : DayState) :
    (setDayState x s).store.transfers = s.store.transfers := rfl
@[simp] theorem setDayState_store_nextTransfer (x : DayState) :
    (setDayState x s).store.nextTransfer = s.store.nextTransfer := rfl
@[simp] theorem setDayState_store_board (x : DayState) : (setDayState x s).store.board = s.store.board := rfl
@[simp] theorem setDayState_store_classes (x : DayState) :
    (setDayState x s).store.classes = s.store.classes := rfl
@[simp] theorem setDayState_store_accounts (x : DayState) :
    (setDayState x s).store.accounts = s.store.accounts := rfl
@[simp] theorem setDayState_store_lastTaken (x : DayState) :
    (setDayState x s).store.lastTaken = s.store.lastTaken := rfl
@[simp] theorem setDayState_store_lastAnswer (x : DayState) :
    (setDayState x s).store.lastAnswer = s.store.lastAnswer := rfl
@[simp] theorem setDayState_store_carryCount (x : DayState) :
    (setDayState x s).store.carryCount = s.store.carryCount := rfl
@[simp] theorem setDayState_store_pacing (x : DayState) :
    (setDayState x s).store.pacing = s.store.pacing := rfl
@[simp] theorem setDayState_store_journal (x : DayState) :
    (setDayState x s).store.journal = s.store.journal := rfl

/-! ### setAckThrough -/

@[simp] theorem setAckThrough_pending (k : Nat) : (setAckThrough k s).pending = s.pending := rfl
@[simp] theorem setAckThrough_power (k : Nat) : (setAckThrough k s).power = s.power := rfl
@[simp] theorem setAckThrough_clock (k : Nat) : (setAckThrough k s).clock = s.clock := rfl
@[simp] theorem setAckThrough_kept (k : Nat) : (setAckThrough k s).kept = s.kept := rfl
@[simp] theorem setAckThrough_jsu (k : Nat) : (setAckThrough k s).jsu = s.jsu := rfl
@[simp] theorem setAckThrough_delivery (k : Nat) : (setAckThrough k s).delivery = s.delivery := rfl
@[simp] theorem setAckThrough_counted (k : Nat) : (setAckThrough k s).counted = s.counted := rfl
@[simp] theorem setAckThrough_exu (k : Nat) : (setAckThrough k s).exu = s.exu := rfl
@[simp] theorem setAckThrough_pru (k : Nat) : (setAckThrough k s).pru = s.pru := rfl
@[simp] theorem setAckThrough_scu (k : Nat) : (setAckThrough k s).scu = s.scu := rfl
@[simp] theorem setAckThrough_sender (k : Nat) : (setAckThrough k s).sender = s.sender := rfl
@[simp] theorem setAckThrough_port (k : Nat) : (setAckThrough k s).port = s.port := rfl
@[simp] theorem setAckThrough_out (k : Nat) : (setAckThrough k s).out = s.out := rfl
@[simp] theorem setAckThrough_freeCount (k : Nat) : (setAckThrough k s).freeCount = s.freeCount := rfl
@[simp] theorem setAckThrough_store_header (k : Nat) :
    (setAckThrough k s).store.header = s.store.header := rfl
@[simp] theorem setAckThrough_store_day (k : Nat) :
    (setAckThrough k s).store.day = { s.store.day with ackThrough := k } := rfl
@[simp] theorem setAckThrough_store_lineSettings (k : Nat) :
    (setAckThrough k s).store.lineSettings = s.store.lineSettings := rfl
@[simp] theorem setAckThrough_store_currencies (k : Nat) :
    (setAckThrough k s).store.currencies = s.store.currencies := rfl
@[simp] theorem setAckThrough_store_drawers (k : Nat) :
    (setAckThrough k s).store.drawers = s.store.drawers := rfl
@[simp] theorem setAckThrough_store_positions (k : Nat) :
    (setAckThrough k s).store.positions = s.store.positions := rfl
@[simp] theorem setAckThrough_store_burst (k : Nat) : (setAckThrough k s).store.burst = s.store.burst := rfl
@[simp] theorem setAckThrough_store_transfers (k : Nat) :
    (setAckThrough k s).store.transfers = s.store.transfers := rfl
@[simp] theorem setAckThrough_store_nextTransfer (k : Nat) :
    (setAckThrough k s).store.nextTransfer = s.store.nextTransfer := rfl
@[simp] theorem setAckThrough_store_board (k : Nat) : (setAckThrough k s).store.board = s.store.board := rfl
@[simp] theorem setAckThrough_store_classes (k : Nat) :
    (setAckThrough k s).store.classes = s.store.classes := rfl
@[simp] theorem setAckThrough_store_accounts (k : Nat) :
    (setAckThrough k s).store.accounts = s.store.accounts := rfl
@[simp] theorem setAckThrough_store_lastTaken (k : Nat) :
    (setAckThrough k s).store.lastTaken = s.store.lastTaken := rfl
@[simp] theorem setAckThrough_store_lastAnswer (k : Nat) :
    (setAckThrough k s).store.lastAnswer = s.store.lastAnswer := rfl
@[simp] theorem setAckThrough_store_carryCount (k : Nat) :
    (setAckThrough k s).store.carryCount = s.store.carryCount := rfl
@[simp] theorem setAckThrough_store_pacing (k : Nat) :
    (setAckThrough k s).store.pacing = s.store.pacing := rfl
@[simp] theorem setAckThrough_store_journal (k : Nat) :
    (setAckThrough k s).store.journal = s.store.journal := rfl

/-! ### modifyDrawer -/

@[simp] theorem modifyDrawer_pending (d : DrawerNo) (f : Drawer → Drawer) :
    (modifyDrawer d f s).pending = s.pending := rfl
@[simp] theorem modifyDrawer_power (d : DrawerNo) (f : Drawer → Drawer) :
    (modifyDrawer d f s).power = s.power := rfl
@[simp] theorem modifyDrawer_clock (d : DrawerNo) (f : Drawer → Drawer) :
    (modifyDrawer d f s).clock = s.clock := rfl
@[simp] theorem modifyDrawer_kept (d : DrawerNo) (f : Drawer → Drawer) :
    (modifyDrawer d f s).kept = s.kept := rfl
@[simp] theorem modifyDrawer_jsu (d : DrawerNo) (f : Drawer → Drawer) :
    (modifyDrawer d f s).jsu = s.jsu := rfl
@[simp] theorem modifyDrawer_delivery (d : DrawerNo) (f : Drawer → Drawer) :
    (modifyDrawer d f s).delivery = s.delivery := rfl
@[simp] theorem modifyDrawer_counted (d : DrawerNo) (f : Drawer → Drawer) :
    (modifyDrawer d f s).counted = s.counted := rfl
@[simp] theorem modifyDrawer_exu (d : DrawerNo) (f : Drawer → Drawer) :
    (modifyDrawer d f s).exu = s.exu := rfl
@[simp] theorem modifyDrawer_pru (d : DrawerNo) (f : Drawer → Drawer) :
    (modifyDrawer d f s).pru = s.pru := rfl
@[simp] theorem modifyDrawer_scu (d : DrawerNo) (f : Drawer → Drawer) :
    (modifyDrawer d f s).scu = s.scu := rfl
@[simp] theorem modifyDrawer_sender (d : DrawerNo) (f : Drawer → Drawer) :
    (modifyDrawer d f s).sender = s.sender := rfl
@[simp] theorem modifyDrawer_port (d : DrawerNo) (f : Drawer → Drawer) :
    (modifyDrawer d f s).port = s.port := rfl
@[simp] theorem modifyDrawer_out (d : DrawerNo) (f : Drawer → Drawer) :
    (modifyDrawer d f s).out = s.out := rfl
@[simp] theorem modifyDrawer_freeCount (d : DrawerNo) (f : Drawer → Drawer) :
    (modifyDrawer d f s).freeCount = s.freeCount := rfl
@[simp] theorem modifyDrawer_store_header (d : DrawerNo) (f : Drawer → Drawer) :
    (modifyDrawer d f s).store.header = s.store.header := rfl
@[simp] theorem modifyDrawer_store_day (d : DrawerNo) (f : Drawer → Drawer) :
    (modifyDrawer d f s).store.day = s.store.day := rfl
@[simp] theorem modifyDrawer_store_lineSettings (d : DrawerNo) (f : Drawer → Drawer) :
    (modifyDrawer d f s).store.lineSettings = s.store.lineSettings := rfl
@[simp] theorem modifyDrawer_store_currencies (d : DrawerNo) (f : Drawer → Drawer) :
    (modifyDrawer d f s).store.currencies = s.store.currencies := rfl
@[simp] theorem modifyDrawer_store_drawers (d : DrawerNo) (f : Drawer → Drawer) :
    (modifyDrawer d f s).store.drawers = s.store.drawers.modify d f := rfl
@[simp] theorem modifyDrawer_store_positions (d : DrawerNo) (f : Drawer → Drawer) :
    (modifyDrawer d f s).store.positions = s.store.positions := rfl
@[simp] theorem modifyDrawer_store_burst (d : DrawerNo) (f : Drawer → Drawer) :
    (modifyDrawer d f s).store.burst = s.store.burst := rfl
@[simp] theorem modifyDrawer_store_transfers (d : DrawerNo) (f : Drawer → Drawer) :
    (modifyDrawer d f s).store.transfers = s.store.transfers := rfl
@[simp] theorem modifyDrawer_store_nextTransfer (d : DrawerNo) (f : Drawer → Drawer) :
    (modifyDrawer d f s).store.nextTransfer = s.store.nextTransfer := rfl
@[simp] theorem modifyDrawer_store_board (d : DrawerNo) (f : Drawer → Drawer) :
    (modifyDrawer d f s).store.board = s.store.board := rfl
@[simp] theorem modifyDrawer_store_classes (d : DrawerNo) (f : Drawer → Drawer) :
    (modifyDrawer d f s).store.classes = s.store.classes := rfl
@[simp] theorem modifyDrawer_store_accounts (d : DrawerNo) (f : Drawer → Drawer) :
    (modifyDrawer d f s).store.accounts = s.store.accounts := rfl
@[simp] theorem modifyDrawer_store_lastTaken (d : DrawerNo) (f : Drawer → Drawer) :
    (modifyDrawer d f s).store.lastTaken = s.store.lastTaken := rfl
@[simp] theorem modifyDrawer_store_lastAnswer (d : DrawerNo) (f : Drawer → Drawer) :
    (modifyDrawer d f s).store.lastAnswer = s.store.lastAnswer := rfl
@[simp] theorem modifyDrawer_store_carryCount (d : DrawerNo) (f : Drawer → Drawer) :
    (modifyDrawer d f s).store.carryCount = s.store.carryCount := rfl
@[simp] theorem modifyDrawer_store_pacing (d : DrawerNo) (f : Drawer → Drawer) :
    (modifyDrawer d f s).store.pacing = s.store.pacing := rfl
@[simp] theorem modifyDrawer_store_journal (d : DrawerNo) (f : Drawer → Drawer) :
    (modifyDrawer d f s).store.journal = s.store.journal := rfl

/-! ### modifyPosition -/

@[simp] theorem modifyPosition_pending (p : Position) (f : PositionEntry → PositionEntry) :
    (modifyPosition p f s).pending = s.pending := rfl
@[simp] theorem modifyPosition_power (p : Position) (f : PositionEntry → PositionEntry) :
    (modifyPosition p f s).power = s.power := rfl
@[simp] theorem modifyPosition_clock (p : Position) (f : PositionEntry → PositionEntry) :
    (modifyPosition p f s).clock = s.clock := rfl
@[simp] theorem modifyPosition_kept (p : Position) (f : PositionEntry → PositionEntry) :
    (modifyPosition p f s).kept = s.kept := rfl
@[simp] theorem modifyPosition_jsu (p : Position) (f : PositionEntry → PositionEntry) :
    (modifyPosition p f s).jsu = s.jsu := rfl
@[simp] theorem modifyPosition_delivery (p : Position) (f : PositionEntry → PositionEntry) :
    (modifyPosition p f s).delivery = s.delivery := rfl
@[simp] theorem modifyPosition_counted (p : Position) (f : PositionEntry → PositionEntry) :
    (modifyPosition p f s).counted = s.counted := rfl
@[simp] theorem modifyPosition_exu (p : Position) (f : PositionEntry → PositionEntry) :
    (modifyPosition p f s).exu = s.exu := rfl
@[simp] theorem modifyPosition_pru (p : Position) (f : PositionEntry → PositionEntry) :
    (modifyPosition p f s).pru = s.pru := rfl
@[simp] theorem modifyPosition_scu (p : Position) (f : PositionEntry → PositionEntry) :
    (modifyPosition p f s).scu = s.scu := rfl
@[simp] theorem modifyPosition_sender (p : Position) (f : PositionEntry → PositionEntry) :
    (modifyPosition p f s).sender = s.sender := rfl
@[simp] theorem modifyPosition_port (p : Position) (f : PositionEntry → PositionEntry) :
    (modifyPosition p f s).port = s.port := rfl
@[simp] theorem modifyPosition_out (p : Position) (f : PositionEntry → PositionEntry) :
    (modifyPosition p f s).out = s.out := rfl
@[simp] theorem modifyPosition_freeCount (p : Position) (f : PositionEntry → PositionEntry) :
    (modifyPosition p f s).freeCount = s.freeCount := rfl
@[simp] theorem modifyPosition_store_header (p : Position) (f : PositionEntry → PositionEntry) :
    (modifyPosition p f s).store.header = s.store.header := rfl
@[simp] theorem modifyPosition_store_day (p : Position) (f : PositionEntry → PositionEntry) :
    (modifyPosition p f s).store.day = s.store.day := rfl
@[simp] theorem modifyPosition_store_lineSettings (p : Position) (f : PositionEntry → PositionEntry) :
    (modifyPosition p f s).store.lineSettings = s.store.lineSettings := rfl
@[simp] theorem modifyPosition_store_currencies (p : Position) (f : PositionEntry → PositionEntry) :
    (modifyPosition p f s).store.currencies = s.store.currencies := rfl
@[simp] theorem modifyPosition_store_drawers (p : Position) (f : PositionEntry → PositionEntry) :
    (modifyPosition p f s).store.drawers = s.store.drawers := rfl
@[simp] theorem modifyPosition_store_positions (p : Position) (f : PositionEntry → PositionEntry) :
    (modifyPosition p f s).store.positions = s.store.positions.modify p f := rfl
@[simp] theorem modifyPosition_store_burst (p : Position) (f : PositionEntry → PositionEntry) :
    (modifyPosition p f s).store.burst = s.store.burst := rfl
@[simp] theorem modifyPosition_store_transfers (p : Position) (f : PositionEntry → PositionEntry) :
    (modifyPosition p f s).store.transfers = s.store.transfers := rfl
@[simp] theorem modifyPosition_store_nextTransfer (p : Position) (f : PositionEntry → PositionEntry) :
    (modifyPosition p f s).store.nextTransfer = s.store.nextTransfer := rfl
@[simp] theorem modifyPosition_store_board (p : Position) (f : PositionEntry → PositionEntry) :
    (modifyPosition p f s).store.board = s.store.board := rfl
@[simp] theorem modifyPosition_store_classes (p : Position) (f : PositionEntry → PositionEntry) :
    (modifyPosition p f s).store.classes = s.store.classes := rfl
@[simp] theorem modifyPosition_store_accounts (p : Position) (f : PositionEntry → PositionEntry) :
    (modifyPosition p f s).store.accounts = s.store.accounts := rfl
@[simp] theorem modifyPosition_store_lastTaken (p : Position) (f : PositionEntry → PositionEntry) :
    (modifyPosition p f s).store.lastTaken = s.store.lastTaken := rfl
@[simp] theorem modifyPosition_store_lastAnswer (p : Position) (f : PositionEntry → PositionEntry) :
    (modifyPosition p f s).store.lastAnswer = s.store.lastAnswer := rfl
@[simp] theorem modifyPosition_store_carryCount (p : Position) (f : PositionEntry → PositionEntry) :
    (modifyPosition p f s).store.carryCount = s.store.carryCount := rfl
@[simp] theorem modifyPosition_store_pacing (p : Position) (f : PositionEntry → PositionEntry) :
    (modifyPosition p f s).store.pacing = s.store.pacing := rfl
@[simp] theorem modifyPosition_store_journal (p : Position) (f : PositionEntry → PositionEntry) :
    (modifyPosition p f s).store.journal = s.store.journal := rfl

/-! ### modifyTransfer -/

@[simp] theorem modifyTransfer_pending (i : Fin 8) (x : Transfer) :
    (modifyTransfer i x s).pending = s.pending := rfl
@[simp] theorem modifyTransfer_power (i : Fin 8) (x : Transfer) :
    (modifyTransfer i x s).power = s.power := rfl
@[simp] theorem modifyTransfer_clock (i : Fin 8) (x : Transfer) :
    (modifyTransfer i x s).clock = s.clock := rfl
@[simp] theorem modifyTransfer_kept (i : Fin 8) (x : Transfer) : (modifyTransfer i x s).kept = s.kept := rfl
@[simp] theorem modifyTransfer_jsu (i : Fin 8) (x : Transfer) : (modifyTransfer i x s).jsu = s.jsu := rfl
@[simp] theorem modifyTransfer_delivery (i : Fin 8) (x : Transfer) :
    (modifyTransfer i x s).delivery = s.delivery := rfl
@[simp] theorem modifyTransfer_counted (i : Fin 8) (x : Transfer) :
    (modifyTransfer i x s).counted = s.counted := rfl
@[simp] theorem modifyTransfer_exu (i : Fin 8) (x : Transfer) : (modifyTransfer i x s).exu = s.exu := rfl
@[simp] theorem modifyTransfer_pru (i : Fin 8) (x : Transfer) : (modifyTransfer i x s).pru = s.pru := rfl
@[simp] theorem modifyTransfer_scu (i : Fin 8) (x : Transfer) : (modifyTransfer i x s).scu = s.scu := rfl
@[simp] theorem modifyTransfer_sender (i : Fin 8) (x : Transfer) :
    (modifyTransfer i x s).sender = s.sender := rfl
@[simp] theorem modifyTransfer_port (i : Fin 8) (x : Transfer) : (modifyTransfer i x s).port = s.port := rfl
@[simp] theorem modifyTransfer_out (i : Fin 8) (x : Transfer) : (modifyTransfer i x s).out = s.out := rfl
@[simp] theorem modifyTransfer_freeCount (i : Fin 8) (x : Transfer) :
    (modifyTransfer i x s).freeCount = s.freeCount := rfl
@[simp] theorem modifyTransfer_store_header (i : Fin 8) (x : Transfer) :
    (modifyTransfer i x s).store.header = s.store.header := rfl
@[simp] theorem modifyTransfer_store_day (i : Fin 8) (x : Transfer) :
    (modifyTransfer i x s).store.day = s.store.day := rfl
@[simp] theorem modifyTransfer_store_lineSettings (i : Fin 8) (x : Transfer) :
    (modifyTransfer i x s).store.lineSettings = s.store.lineSettings := rfl
@[simp] theorem modifyTransfer_store_currencies (i : Fin 8) (x : Transfer) :
    (modifyTransfer i x s).store.currencies = s.store.currencies := rfl
@[simp] theorem modifyTransfer_store_drawers (i : Fin 8) (x : Transfer) :
    (modifyTransfer i x s).store.drawers = s.store.drawers := rfl
@[simp] theorem modifyTransfer_store_positions (i : Fin 8) (x : Transfer) :
    (modifyTransfer i x s).store.positions = s.store.positions := rfl
@[simp] theorem modifyTransfer_store_burst (i : Fin 8) (x : Transfer) :
    (modifyTransfer i x s).store.burst = s.store.burst := rfl
@[simp] theorem modifyTransfer_store_transfers (i : Fin 8) (x : Transfer) :
    (modifyTransfer i x s).store.transfers = s.store.transfers.set i (some x) := rfl
@[simp] theorem modifyTransfer_store_nextTransfer (i : Fin 8) (x : Transfer) :
    (modifyTransfer i x s).store.nextTransfer = s.store.nextTransfer := rfl
@[simp] theorem modifyTransfer_store_board (i : Fin 8) (x : Transfer) :
    (modifyTransfer i x s).store.board = s.store.board := rfl
@[simp] theorem modifyTransfer_store_classes (i : Fin 8) (x : Transfer) :
    (modifyTransfer i x s).store.classes = s.store.classes := rfl
@[simp] theorem modifyTransfer_store_accounts (i : Fin 8) (x : Transfer) :
    (modifyTransfer i x s).store.accounts = s.store.accounts := rfl
@[simp] theorem modifyTransfer_store_lastTaken (i : Fin 8) (x : Transfer) :
    (modifyTransfer i x s).store.lastTaken = s.store.lastTaken := rfl
@[simp] theorem modifyTransfer_store_lastAnswer (i : Fin 8) (x : Transfer) :
    (modifyTransfer i x s).store.lastAnswer = s.store.lastAnswer := rfl
@[simp] theorem modifyTransfer_store_carryCount (i : Fin 8) (x : Transfer) :
    (modifyTransfer i x s).store.carryCount = s.store.carryCount := rfl
@[simp] theorem modifyTransfer_store_pacing (i : Fin 8) (x : Transfer) :
    (modifyTransfer i x s).store.pacing = s.store.pacing := rfl
@[simp] theorem modifyTransfer_store_journal (i : Fin 8) (x : Transfer) :
    (modifyTransfer i x s).store.journal = s.store.journal := rfl

/-! ### setNextTransfer -/

@[simp] theorem setNextTransfer_pending (n : Nat) : (setNextTransfer n s).pending = s.pending := rfl
@[simp] theorem setNextTransfer_power (n : Nat) : (setNextTransfer n s).power = s.power := rfl
@[simp] theorem setNextTransfer_clock (n : Nat) : (setNextTransfer n s).clock = s.clock := rfl
@[simp] theorem setNextTransfer_kept (n : Nat) : (setNextTransfer n s).kept = s.kept := rfl
@[simp] theorem setNextTransfer_jsu (n : Nat) : (setNextTransfer n s).jsu = s.jsu := rfl
@[simp] theorem setNextTransfer_delivery (n : Nat) : (setNextTransfer n s).delivery = s.delivery := rfl
@[simp] theorem setNextTransfer_counted (n : Nat) : (setNextTransfer n s).counted = s.counted := rfl
@[simp] theorem setNextTransfer_exu (n : Nat) : (setNextTransfer n s).exu = s.exu := rfl
@[simp] theorem setNextTransfer_pru (n : Nat) : (setNextTransfer n s).pru = s.pru := rfl
@[simp] theorem setNextTransfer_scu (n : Nat) : (setNextTransfer n s).scu = s.scu := rfl
@[simp] theorem setNextTransfer_sender (n : Nat) : (setNextTransfer n s).sender = s.sender := rfl
@[simp] theorem setNextTransfer_port (n : Nat) : (setNextTransfer n s).port = s.port := rfl
@[simp] theorem setNextTransfer_out (n : Nat) : (setNextTransfer n s).out = s.out := rfl
@[simp] theorem setNextTransfer_freeCount (n : Nat) : (setNextTransfer n s).freeCount = s.freeCount := rfl
@[simp] theorem setNextTransfer_store_header (n : Nat) :
    (setNextTransfer n s).store.header = s.store.header := rfl
@[simp] theorem setNextTransfer_store_day (n : Nat) : (setNextTransfer n s).store.day = s.store.day := rfl
@[simp] theorem setNextTransfer_store_lineSettings (n : Nat) :
    (setNextTransfer n s).store.lineSettings = s.store.lineSettings := rfl
@[simp] theorem setNextTransfer_store_currencies (n : Nat) :
    (setNextTransfer n s).store.currencies = s.store.currencies := rfl
@[simp] theorem setNextTransfer_store_drawers (n : Nat) :
    (setNextTransfer n s).store.drawers = s.store.drawers := rfl
@[simp] theorem setNextTransfer_store_positions (n : Nat) :
    (setNextTransfer n s).store.positions = s.store.positions := rfl
@[simp] theorem setNextTransfer_store_burst (n : Nat) :
    (setNextTransfer n s).store.burst = s.store.burst := rfl
@[simp] theorem setNextTransfer_store_transfers (n : Nat) :
    (setNextTransfer n s).store.transfers = s.store.transfers := rfl
@[simp] theorem setNextTransfer_store_nextTransfer (n : Nat) :
    (setNextTransfer n s).store.nextTransfer = n := rfl
@[simp] theorem setNextTransfer_store_board (n : Nat) :
    (setNextTransfer n s).store.board = s.store.board := rfl
@[simp] theorem setNextTransfer_store_classes (n : Nat) :
    (setNextTransfer n s).store.classes = s.store.classes := rfl
@[simp] theorem setNextTransfer_store_accounts (n : Nat) :
    (setNextTransfer n s).store.accounts = s.store.accounts := rfl
@[simp] theorem setNextTransfer_store_lastTaken (n : Nat) :
    (setNextTransfer n s).store.lastTaken = s.store.lastTaken := rfl
@[simp] theorem setNextTransfer_store_lastAnswer (n : Nat) :
    (setNextTransfer n s).store.lastAnswer = s.store.lastAnswer := rfl
@[simp] theorem setNextTransfer_store_carryCount (n : Nat) :
    (setNextTransfer n s).store.carryCount = s.store.carryCount := rfl
@[simp] theorem setNextTransfer_store_pacing (n : Nat) :
    (setNextTransfer n s).store.pacing = s.store.pacing := rfl
@[simp] theorem setNextTransfer_store_journal (n : Nat) :
    (setNextTransfer n s).store.journal = s.store.journal := rfl

/-! ### modifyBoard -/

@[simp] theorem modifyBoard_pending (f : Board → Board) : (modifyBoard f s).pending = s.pending := rfl
@[simp] theorem modifyBoard_power (f : Board → Board) : (modifyBoard f s).power = s.power := rfl
@[simp] theorem modifyBoard_clock (f : Board → Board) : (modifyBoard f s).clock = s.clock := rfl
@[simp] theorem modifyBoard_kept (f : Board → Board) : (modifyBoard f s).kept = s.kept := rfl
@[simp] theorem modifyBoard_jsu (f : Board → Board) : (modifyBoard f s).jsu = s.jsu := rfl
@[simp] theorem modifyBoard_delivery (f : Board → Board) : (modifyBoard f s).delivery = s.delivery := rfl
@[simp] theorem modifyBoard_counted (f : Board → Board) : (modifyBoard f s).counted = s.counted := rfl
@[simp] theorem modifyBoard_exu (f : Board → Board) : (modifyBoard f s).exu = s.exu := rfl
@[simp] theorem modifyBoard_pru (f : Board → Board) : (modifyBoard f s).pru = s.pru := rfl
@[simp] theorem modifyBoard_scu (f : Board → Board) : (modifyBoard f s).scu = s.scu := rfl
@[simp] theorem modifyBoard_sender (f : Board → Board) : (modifyBoard f s).sender = s.sender := rfl
@[simp] theorem modifyBoard_port (f : Board → Board) : (modifyBoard f s).port = s.port := rfl
@[simp] theorem modifyBoard_out (f : Board → Board) : (modifyBoard f s).out = s.out := rfl
@[simp] theorem modifyBoard_freeCount (f : Board → Board) : (modifyBoard f s).freeCount = s.freeCount := rfl
@[simp] theorem modifyBoard_store_header (f : Board → Board) :
    (modifyBoard f s).store.header = s.store.header := rfl
@[simp] theorem modifyBoard_store_day (f : Board → Board) : (modifyBoard f s).store.day = s.store.day := rfl
@[simp] theorem modifyBoard_store_lineSettings (f : Board → Board) :
    (modifyBoard f s).store.lineSettings = s.store.lineSettings := rfl
@[simp] theorem modifyBoard_store_currencies (f : Board → Board) :
    (modifyBoard f s).store.currencies = s.store.currencies := rfl
@[simp] theorem modifyBoard_store_drawers (f : Board → Board) :
    (modifyBoard f s).store.drawers = s.store.drawers := rfl
@[simp] theorem modifyBoard_store_positions (f : Board → Board) :
    (modifyBoard f s).store.positions = s.store.positions := rfl
@[simp] theorem modifyBoard_store_burst (f : Board → Board) :
    (modifyBoard f s).store.burst = s.store.burst := rfl
@[simp] theorem modifyBoard_store_transfers (f : Board → Board) :
    (modifyBoard f s).store.transfers = s.store.transfers := rfl
@[simp] theorem modifyBoard_store_nextTransfer (f : Board → Board) :
    (modifyBoard f s).store.nextTransfer = s.store.nextTransfer := rfl
@[simp] theorem modifyBoard_store_board (f : Board → Board) :
    (modifyBoard f s).store.board = f s.store.board := rfl
@[simp] theorem modifyBoard_store_classes (f : Board → Board) :
    (modifyBoard f s).store.classes = s.store.classes := rfl
@[simp] theorem modifyBoard_store_accounts (f : Board → Board) :
    (modifyBoard f s).store.accounts = s.store.accounts := rfl
@[simp] theorem modifyBoard_store_lastTaken (f : Board → Board) :
    (modifyBoard f s).store.lastTaken = s.store.lastTaken := rfl
@[simp] theorem modifyBoard_store_lastAnswer (f : Board → Board) :
    (modifyBoard f s).store.lastAnswer = s.store.lastAnswer := rfl
@[simp] theorem modifyBoard_store_carryCount (f : Board → Board) :
    (modifyBoard f s).store.carryCount = s.store.carryCount := rfl
@[simp] theorem modifyBoard_store_pacing (f : Board → Board) :
    (modifyBoard f s).store.pacing = s.store.pacing := rfl
@[simp] theorem modifyBoard_store_journal (f : Board → Board) :
    (modifyBoard f s).store.journal = s.store.journal := rfl

/-! ### setAccount -/

@[simp] theorem setAccount_pending (i : Fin 64) (a : Account) : (setAccount i a s).pending = s.pending := rfl
@[simp] theorem setAccount_power (i : Fin 64) (a : Account) : (setAccount i a s).power = s.power := rfl
@[simp] theorem setAccount_clock (i : Fin 64) (a : Account) : (setAccount i a s).clock = s.clock := rfl
@[simp] theorem setAccount_kept (i : Fin 64) (a : Account) : (setAccount i a s).kept = s.kept := rfl
@[simp] theorem setAccount_jsu (i : Fin 64) (a : Account) : (setAccount i a s).jsu = s.jsu := rfl
@[simp] theorem setAccount_delivery (i : Fin 64) (a : Account) :
    (setAccount i a s).delivery = s.delivery := rfl
@[simp] theorem setAccount_counted (i : Fin 64) (a : Account) : (setAccount i a s).counted = s.counted := rfl
@[simp] theorem setAccount_exu (i : Fin 64) (a : Account) : (setAccount i a s).exu = s.exu := rfl
@[simp] theorem setAccount_pru (i : Fin 64) (a : Account) : (setAccount i a s).pru = s.pru := rfl
@[simp] theorem setAccount_scu (i : Fin 64) (a : Account) : (setAccount i a s).scu = s.scu := rfl
@[simp] theorem setAccount_sender (i : Fin 64) (a : Account) : (setAccount i a s).sender = s.sender := rfl
@[simp] theorem setAccount_port (i : Fin 64) (a : Account) : (setAccount i a s).port = s.port := rfl
@[simp] theorem setAccount_out (i : Fin 64) (a : Account) : (setAccount i a s).out = s.out := rfl
@[simp] theorem setAccount_freeCount (i : Fin 64) (a : Account) :
    (setAccount i a s).freeCount = s.freeCount := rfl
@[simp] theorem setAccount_store_header (i : Fin 64) (a : Account) :
    (setAccount i a s).store.header = s.store.header := rfl
@[simp] theorem setAccount_store_day (i : Fin 64) (a : Account) :
    (setAccount i a s).store.day = s.store.day := rfl
@[simp] theorem setAccount_store_lineSettings (i : Fin 64) (a : Account) :
    (setAccount i a s).store.lineSettings = s.store.lineSettings := rfl
@[simp] theorem setAccount_store_currencies (i : Fin 64) (a : Account) :
    (setAccount i a s).store.currencies = s.store.currencies := rfl
@[simp] theorem setAccount_store_drawers (i : Fin 64) (a : Account) :
    (setAccount i a s).store.drawers = s.store.drawers := rfl
@[simp] theorem setAccount_store_positions (i : Fin 64) (a : Account) :
    (setAccount i a s).store.positions = s.store.positions := rfl
@[simp] theorem setAccount_store_burst (i : Fin 64) (a : Account) :
    (setAccount i a s).store.burst = s.store.burst := rfl
@[simp] theorem setAccount_store_transfers (i : Fin 64) (a : Account) :
    (setAccount i a s).store.transfers = s.store.transfers := rfl
@[simp] theorem setAccount_store_nextTransfer (i : Fin 64) (a : Account) :
    (setAccount i a s).store.nextTransfer = s.store.nextTransfer := rfl
@[simp] theorem setAccount_store_board (i : Fin 64) (a : Account) :
    (setAccount i a s).store.board = s.store.board := rfl
@[simp] theorem setAccount_store_classes (i : Fin 64) (a : Account) :
    (setAccount i a s).store.classes = s.store.classes := rfl
@[simp] theorem setAccount_store_accounts (i : Fin 64) (a : Account) :
    (setAccount i a s).store.accounts = s.store.accounts.set i (some a) := rfl
@[simp] theorem setAccount_store_lastTaken (i : Fin 64) (a : Account) :
    (setAccount i a s).store.lastTaken = s.store.lastTaken := rfl
@[simp] theorem setAccount_store_lastAnswer (i : Fin 64) (a : Account) :
    (setAccount i a s).store.lastAnswer = s.store.lastAnswer := rfl
@[simp] theorem setAccount_store_carryCount (i : Fin 64) (a : Account) :
    (setAccount i a s).store.carryCount = s.store.carryCount := rfl
@[simp] theorem setAccount_store_pacing (i : Fin 64) (a : Account) :
    (setAccount i a s).store.pacing = s.store.pacing := rfl
@[simp] theorem setAccount_store_journal (i : Fin 64) (a : Account) :
    (setAccount i a s).store.journal = s.store.journal := rfl

/-! ### setLastTaken -/

@[simp] theorem setLastTaken_pending (k : Key) : (setLastTaken k s).pending = s.pending := rfl
@[simp] theorem setLastTaken_power (k : Key) : (setLastTaken k s).power = s.power := rfl
@[simp] theorem setLastTaken_clock (k : Key) : (setLastTaken k s).clock = s.clock := rfl
@[simp] theorem setLastTaken_kept (k : Key) : (setLastTaken k s).kept = s.kept := rfl
@[simp] theorem setLastTaken_jsu (k : Key) : (setLastTaken k s).jsu = s.jsu := rfl
@[simp] theorem setLastTaken_delivery (k : Key) : (setLastTaken k s).delivery = s.delivery := rfl
@[simp] theorem setLastTaken_counted (k : Key) : (setLastTaken k s).counted = s.counted := rfl
@[simp] theorem setLastTaken_exu (k : Key) : (setLastTaken k s).exu = s.exu := rfl
@[simp] theorem setLastTaken_pru (k : Key) : (setLastTaken k s).pru = s.pru := rfl
@[simp] theorem setLastTaken_scu (k : Key) : (setLastTaken k s).scu = s.scu := rfl
@[simp] theorem setLastTaken_sender (k : Key) : (setLastTaken k s).sender = s.sender := rfl
@[simp] theorem setLastTaken_port (k : Key) : (setLastTaken k s).port = s.port := rfl
@[simp] theorem setLastTaken_out (k : Key) : (setLastTaken k s).out = s.out := rfl
@[simp] theorem setLastTaken_freeCount (k : Key) : (setLastTaken k s).freeCount = s.freeCount := rfl
@[simp] theorem setLastTaken_store_header (k : Key) : (setLastTaken k s).store.header = s.store.header := rfl
@[simp] theorem setLastTaken_store_day (k : Key) : (setLastTaken k s).store.day = s.store.day := rfl
@[simp] theorem setLastTaken_store_lineSettings (k : Key) :
    (setLastTaken k s).store.lineSettings = s.store.lineSettings := rfl
@[simp] theorem setLastTaken_store_currencies (k : Key) :
    (setLastTaken k s).store.currencies = s.store.currencies := rfl
@[simp] theorem setLastTaken_store_drawers (k : Key) :
    (setLastTaken k s).store.drawers = s.store.drawers := rfl
@[simp] theorem setLastTaken_store_positions (k : Key) :
    (setLastTaken k s).store.positions = s.store.positions := rfl
@[simp] theorem setLastTaken_store_burst (k : Key) : (setLastTaken k s).store.burst = s.store.burst := rfl
@[simp] theorem setLastTaken_store_transfers (k : Key) :
    (setLastTaken k s).store.transfers = s.store.transfers := rfl
@[simp] theorem setLastTaken_store_nextTransfer (k : Key) :
    (setLastTaken k s).store.nextTransfer = s.store.nextTransfer := rfl
@[simp] theorem setLastTaken_store_board (k : Key) : (setLastTaken k s).store.board = s.store.board := rfl
@[simp] theorem setLastTaken_store_classes (k : Key) :
    (setLastTaken k s).store.classes = s.store.classes := rfl
@[simp] theorem setLastTaken_store_accounts (k : Key) :
    (setLastTaken k s).store.accounts = s.store.accounts := rfl
@[simp] theorem setLastTaken_store_lastTaken (k : Key) : (setLastTaken k s).store.lastTaken = some k := rfl
@[simp] theorem setLastTaken_store_lastAnswer (k : Key) :
    (setLastTaken k s).store.lastAnswer = s.store.lastAnswer := rfl
@[simp] theorem setLastTaken_store_carryCount (k : Key) :
    (setLastTaken k s).store.carryCount = s.store.carryCount := rfl
@[simp] theorem setLastTaken_store_pacing (k : Key) : (setLastTaken k s).store.pacing = s.store.pacing := rfl
@[simp] theorem setLastTaken_store_journal (k : Key) :
    (setLastTaken k s).store.journal = s.store.journal := rfl

/-! ### setLastAnswer -/

@[simp] theorem setLastAnswer_pending (a : LineAnswer) : (setLastAnswer a s).pending = s.pending := rfl
@[simp] theorem setLastAnswer_power (a : LineAnswer) : (setLastAnswer a s).power = s.power := rfl
@[simp] theorem setLastAnswer_clock (a : LineAnswer) : (setLastAnswer a s).clock = s.clock := rfl
@[simp] theorem setLastAnswer_kept (a : LineAnswer) : (setLastAnswer a s).kept = s.kept := rfl
@[simp] theorem setLastAnswer_jsu (a : LineAnswer) : (setLastAnswer a s).jsu = s.jsu := rfl
@[simp] theorem setLastAnswer_delivery (a : LineAnswer) : (setLastAnswer a s).delivery = s.delivery := rfl
@[simp] theorem setLastAnswer_counted (a : LineAnswer) : (setLastAnswer a s).counted = s.counted := rfl
@[simp] theorem setLastAnswer_exu (a : LineAnswer) : (setLastAnswer a s).exu = s.exu := rfl
@[simp] theorem setLastAnswer_pru (a : LineAnswer) : (setLastAnswer a s).pru = s.pru := rfl
@[simp] theorem setLastAnswer_scu (a : LineAnswer) : (setLastAnswer a s).scu = s.scu := rfl
@[simp] theorem setLastAnswer_sender (a : LineAnswer) : (setLastAnswer a s).sender = s.sender := rfl
@[simp] theorem setLastAnswer_port (a : LineAnswer) : (setLastAnswer a s).port = s.port := rfl
@[simp] theorem setLastAnswer_out (a : LineAnswer) : (setLastAnswer a s).out = s.out := rfl
@[simp] theorem setLastAnswer_freeCount (a : LineAnswer) : (setLastAnswer a s).freeCount = s.freeCount := rfl
@[simp] theorem setLastAnswer_store_header (a : LineAnswer) :
    (setLastAnswer a s).store.header = s.store.header := rfl
@[simp] theorem setLastAnswer_store_day (a : LineAnswer) : (setLastAnswer a s).store.day = s.store.day := rfl
@[simp] theorem setLastAnswer_store_lineSettings (a : LineAnswer) :
    (setLastAnswer a s).store.lineSettings = s.store.lineSettings := rfl
@[simp] theorem setLastAnswer_store_currencies (a : LineAnswer) :
    (setLastAnswer a s).store.currencies = s.store.currencies := rfl
@[simp] theorem setLastAnswer_store_drawers (a : LineAnswer) :
    (setLastAnswer a s).store.drawers = s.store.drawers := rfl
@[simp] theorem setLastAnswer_store_positions (a : LineAnswer) :
    (setLastAnswer a s).store.positions = s.store.positions := rfl
@[simp] theorem setLastAnswer_store_burst (a : LineAnswer) :
    (setLastAnswer a s).store.burst = s.store.burst := rfl
@[simp] theorem setLastAnswer_store_transfers (a : LineAnswer) :
    (setLastAnswer a s).store.transfers = s.store.transfers := rfl
@[simp] theorem setLastAnswer_store_nextTransfer (a : LineAnswer) :
    (setLastAnswer a s).store.nextTransfer = s.store.nextTransfer := rfl
@[simp] theorem setLastAnswer_store_board (a : LineAnswer) :
    (setLastAnswer a s).store.board = s.store.board := rfl
@[simp] theorem setLastAnswer_store_classes (a : LineAnswer) :
    (setLastAnswer a s).store.classes = s.store.classes := rfl
@[simp] theorem setLastAnswer_store_accounts (a : LineAnswer) :
    (setLastAnswer a s).store.accounts = s.store.accounts := rfl
@[simp] theorem setLastAnswer_store_lastTaken (a : LineAnswer) :
    (setLastAnswer a s).store.lastTaken = s.store.lastTaken := rfl
@[simp] theorem setLastAnswer_store_lastAnswer (a : LineAnswer) :
    (setLastAnswer a s).store.lastAnswer = a := rfl
@[simp] theorem setLastAnswer_store_carryCount (a : LineAnswer) :
    (setLastAnswer a s).store.carryCount = s.store.carryCount := rfl
@[simp] theorem setLastAnswer_store_pacing (a : LineAnswer) :
    (setLastAnswer a s).store.pacing = s.store.pacing := rfl
@[simp] theorem setLastAnswer_store_journal (a : LineAnswer) :
    (setLastAnswer a s).store.journal = s.store.journal := rfl

/-! ### applyPace -/

@[simp] theorem applyPace_pending (p : PrinterNo) : (applyPace p s).pending = s.pending := rfl
@[simp] theorem applyPace_power (p : PrinterNo) : (applyPace p s).power = s.power := rfl
@[simp] theorem applyPace_clock (p : PrinterNo) : (applyPace p s).clock = s.clock := rfl
@[simp] theorem applyPace_kept (p : PrinterNo) : (applyPace p s).kept = s.kept := rfl
@[simp] theorem applyPace_jsu (p : PrinterNo) : (applyPace p s).jsu = s.jsu := rfl
@[simp] theorem applyPace_delivery (p : PrinterNo) : (applyPace p s).delivery = s.delivery := rfl
@[simp] theorem applyPace_counted (p : PrinterNo) : (applyPace p s).counted = s.counted := rfl
@[simp] theorem applyPace_exu (p : PrinterNo) : (applyPace p s).exu = s.exu := rfl
@[simp] theorem applyPace_pru (p : PrinterNo) : (applyPace p s).pru = s.pru := rfl
@[simp] theorem applyPace_scu (p : PrinterNo) : (applyPace p s).scu = s.scu := rfl
@[simp] theorem applyPace_sender (p : PrinterNo) : (applyPace p s).sender = s.sender := rfl
@[simp] theorem applyPace_port (p : PrinterNo) : (applyPace p s).port = s.port := rfl
@[simp] theorem applyPace_out (p : PrinterNo) : (applyPace p s).out = s.out := rfl
@[simp] theorem applyPace_freeCount (p : PrinterNo) : (applyPace p s).freeCount = s.freeCount := rfl
@[simp] theorem applyPace_store_header (p : PrinterNo) : (applyPace p s).store.header = s.store.header := rfl
@[simp] theorem applyPace_store_day (p : PrinterNo) : (applyPace p s).store.day = s.store.day := rfl
@[simp] theorem applyPace_store_lineSettings (p : PrinterNo) :
    (applyPace p s).store.lineSettings = s.store.lineSettings := rfl
@[simp] theorem applyPace_store_currencies (p : PrinterNo) :
    (applyPace p s).store.currencies = s.store.currencies := rfl
@[simp] theorem applyPace_store_drawers (p : PrinterNo) :
    (applyPace p s).store.drawers = s.store.drawers := rfl
@[simp] theorem applyPace_store_positions (p : PrinterNo) :
    (applyPace p s).store.positions = s.store.positions := rfl
@[simp] theorem applyPace_store_burst (p : PrinterNo) : (applyPace p s).store.burst = s.store.burst := rfl
@[simp] theorem applyPace_store_transfers (p : PrinterNo) :
    (applyPace p s).store.transfers = s.store.transfers := rfl
@[simp] theorem applyPace_store_nextTransfer (p : PrinterNo) :
    (applyPace p s).store.nextTransfer = s.store.nextTransfer := rfl
@[simp] theorem applyPace_store_board (p : PrinterNo) : (applyPace p s).store.board = s.store.board := rfl
@[simp] theorem applyPace_store_classes (p : PrinterNo) :
    (applyPace p s).store.classes = s.store.classes := rfl
@[simp] theorem applyPace_store_accounts (p : PrinterNo) :
    (applyPace p s).store.accounts = s.store.accounts := rfl
@[simp] theorem applyPace_store_lastTaken (p : PrinterNo) :
    (applyPace p s).store.lastTaken = s.store.lastTaken := rfl
@[simp] theorem applyPace_store_lastAnswer (p : PrinterNo) :
    (applyPace p s).store.lastAnswer = s.store.lastAnswer := rfl
@[simp] theorem applyPace_store_carryCount (p : PrinterNo) :
    (applyPace p s).store.carryCount = s.store.carryCount := rfl
@[simp] theorem applyPace_store_pacing (p : PrinterNo) :
    (applyPace p s).store.pacing = s.store.pacing.modify p fun x => { x with applied := x.staged } := rfl
@[simp] theorem applyPace_store_journal (p : PrinterNo) :
    (applyPace p s).store.journal = s.store.journal := rfl

/-! ### writeAppend -/

@[simp] theorem writeAppend_pending (r : Record) : (writeAppend r s).pending = s.pending := rfl
@[simp] theorem writeAppend_power (r : Record) : (writeAppend r s).power = s.power := rfl
@[simp] theorem writeAppend_clock (r : Record) : (writeAppend r s).clock = s.clock := rfl
@[simp] theorem writeAppend_kept (r : Record) : (writeAppend r s).kept = s.kept := rfl
@[simp] theorem writeAppend_jsu (r : Record) : (writeAppend r s).jsu = s.jsu := rfl
@[simp] theorem writeAppend_delivery (r : Record) : (writeAppend r s).delivery = s.delivery := rfl
@[simp] theorem writeAppend_counted (r : Record) : (writeAppend r s).counted = s.counted := rfl
@[simp] theorem writeAppend_exu (r : Record) : (writeAppend r s).exu = s.exu := rfl
@[simp] theorem writeAppend_pru (r : Record) : (writeAppend r s).pru = s.pru := rfl
@[simp] theorem writeAppend_scu (r : Record) : (writeAppend r s).scu = s.scu := rfl
@[simp] theorem writeAppend_sender (r : Record) : (writeAppend r s).sender = s.sender := rfl
@[simp] theorem writeAppend_port (r : Record) : (writeAppend r s).port = s.port := rfl
@[simp] theorem writeAppend_out (r : Record) : (writeAppend r s).out = s.out := rfl
@[simp] theorem writeAppend_freeCount (r : Record) : (writeAppend r s).freeCount = s.freeCount := rfl
@[simp] theorem writeAppend_store_header (r : Record) : (writeAppend r s).store.header = s.store.header := rfl
@[simp] theorem writeAppend_store_day (r : Record) :
    (writeAppend r s).store.day = { s.store.day with
      used := s.store.day.used + 1
      openCommits := s.store.day.openCommits ++ [nextSequence s] } := rfl
@[simp] theorem writeAppend_store_lineSettings (r : Record) :
    (writeAppend r s).store.lineSettings = s.store.lineSettings := rfl
@[simp] theorem writeAppend_store_currencies (r : Record) :
    (writeAppend r s).store.currencies = s.store.currencies := rfl
@[simp] theorem writeAppend_store_drawers (r : Record) :
    (writeAppend r s).store.drawers = s.store.drawers := rfl
@[simp] theorem writeAppend_store_positions (r : Record) :
    (writeAppend r s).store.positions = s.store.positions := rfl
@[simp] theorem writeAppend_store_burst (r : Record) : (writeAppend r s).store.burst = s.store.burst := rfl
@[simp] theorem writeAppend_store_transfers (r : Record) :
    (writeAppend r s).store.transfers = s.store.transfers := rfl
@[simp] theorem writeAppend_store_nextTransfer (r : Record) :
    (writeAppend r s).store.nextTransfer = s.store.nextTransfer := rfl
@[simp] theorem writeAppend_store_board (r : Record) : (writeAppend r s).store.board = s.store.board := rfl
@[simp] theorem writeAppend_store_classes (r : Record) :
    (writeAppend r s).store.classes = s.store.classes := rfl
@[simp] theorem writeAppend_store_accounts (r : Record) :
    (writeAppend r s).store.accounts = s.store.accounts := rfl
@[simp] theorem writeAppend_store_lastTaken (r : Record) :
    (writeAppend r s).store.lastTaken = s.store.lastTaken := rfl
@[simp] theorem writeAppend_store_lastAnswer (r : Record) :
    (writeAppend r s).store.lastAnswer = s.store.lastAnswer := rfl
@[simp] theorem writeAppend_store_carryCount (r : Record) :
    (writeAppend r s).store.carryCount = s.store.carryCount := rfl
@[simp] theorem writeAppend_store_pacing (r : Record) : (writeAppend r s).store.pacing = s.store.pacing := rfl
@[simp] theorem writeAppend_store_journal (r : Record) :
    (writeAppend r s).store.journal = s.store.journal.take s.store.day.used ++
      stampRecord s r :: s.store.journal.drop (s.store.day.used + 1) := rfl

/-! ### setApplied -/

@[simp] theorem setApplied_pending (n : Nat) (d : Disposition) : (setApplied n d s).pending = s.pending := rfl
@[simp] theorem setApplied_power (n : Nat) (d : Disposition) : (setApplied n d s).power = s.power := rfl
@[simp] theorem setApplied_clock (n : Nat) (d : Disposition) : (setApplied n d s).clock = s.clock := rfl
@[simp] theorem setApplied_kept (n : Nat) (d : Disposition) : (setApplied n d s).kept = s.kept := rfl
@[simp] theorem setApplied_jsu (n : Nat) (d : Disposition) : (setApplied n d s).jsu = s.jsu := rfl
@[simp] theorem setApplied_delivery (n : Nat) (d : Disposition) :
    (setApplied n d s).delivery = s.delivery := rfl
@[simp] theorem setApplied_counted (n : Nat) (d : Disposition) : (setApplied n d s).counted = s.counted := rfl
@[simp] theorem setApplied_exu (n : Nat) (d : Disposition) : (setApplied n d s).exu = s.exu := rfl
@[simp] theorem setApplied_pru (n : Nat) (d : Disposition) : (setApplied n d s).pru = s.pru := rfl
@[simp] theorem setApplied_scu (n : Nat) (d : Disposition) : (setApplied n d s).scu = s.scu := rfl
@[simp] theorem setApplied_sender (n : Nat) (d : Disposition) : (setApplied n d s).sender = s.sender := rfl
@[simp] theorem setApplied_port (n : Nat) (d : Disposition) : (setApplied n d s).port = s.port := rfl
@[simp] theorem setApplied_out (n : Nat) (d : Disposition) : (setApplied n d s).out = s.out := rfl
@[simp] theorem setApplied_freeCount (n : Nat) (d : Disposition) :
    (setApplied n d s).freeCount = s.freeCount := rfl
@[simp] theorem setApplied_store_header (n : Nat) (d : Disposition) :
    (setApplied n d s).store.header = s.store.header := rfl
@[simp] theorem setApplied_store_day (n : Nat) (d : Disposition) :
    (setApplied n d s).store.day = { s.store.day with openCommits := s.store.day.openCommits.erase n } := rfl
@[simp] theorem setApplied_store_lineSettings (n : Nat) (d : Disposition) :
    (setApplied n d s).store.lineSettings = s.store.lineSettings := rfl
@[simp] theorem setApplied_store_currencies (n : Nat) (d : Disposition) :
    (setApplied n d s).store.currencies = s.store.currencies := rfl
@[simp] theorem setApplied_store_drawers (n : Nat) (d : Disposition) :
    (setApplied n d s).store.drawers = s.store.drawers := rfl
@[simp] theorem setApplied_store_positions (n : Nat) (d : Disposition) :
    (setApplied n d s).store.positions = s.store.positions := rfl
@[simp] theorem setApplied_store_burst (n : Nat) (d : Disposition) :
    (setApplied n d s).store.burst = s.store.burst := rfl
@[simp] theorem setApplied_store_transfers (n : Nat) (d : Disposition) :
    (setApplied n d s).store.transfers = s.store.transfers := rfl
@[simp] theorem setApplied_store_nextTransfer (n : Nat) (d : Disposition) :
    (setApplied n d s).store.nextTransfer = s.store.nextTransfer := rfl
@[simp] theorem setApplied_store_board (n : Nat) (d : Disposition) :
    (setApplied n d s).store.board = s.store.board := rfl
@[simp] theorem setApplied_store_classes (n : Nat) (d : Disposition) :
    (setApplied n d s).store.classes = s.store.classes := rfl
@[simp] theorem setApplied_store_accounts (n : Nat) (d : Disposition) :
    (setApplied n d s).store.accounts = s.store.accounts := rfl
@[simp] theorem setApplied_store_lastTaken (n : Nat) (d : Disposition) :
    (setApplied n d s).store.lastTaken = s.store.lastTaken := rfl
@[simp] theorem setApplied_store_lastAnswer (n : Nat) (d : Disposition) :
    (setApplied n d s).store.lastAnswer = s.store.lastAnswer := rfl
@[simp] theorem setApplied_store_carryCount (n : Nat) (d : Disposition) :
    (setApplied n d s).store.carryCount = s.store.carryCount := rfl
@[simp] theorem setApplied_store_pacing (n : Nat) (d : Disposition) :
    (setApplied n d s).store.pacing = s.store.pacing := rfl
@[simp] theorem setApplied_store_journal (n : Nat) (d : Disposition) :
    (setApplied n d s).store.journal = s.store.journal.modify (n - 1) (markedRecord d) := rfl

/-! ### addHolds -/

@[simp] theorem addHolds_pending (n : Nat) : (addHolds n s).pending = s.pending := rfl
@[simp] theorem addHolds_power (n : Nat) : (addHolds n s).power = s.power := rfl
@[simp] theorem addHolds_clock (n : Nat) : (addHolds n s).clock = s.clock := rfl
@[simp] theorem addHolds_store (n : Nat) : (addHolds n s).store = s.store := rfl
@[simp] theorem addHolds_kept (n : Nat) : (addHolds n s).kept = s.kept := rfl
@[simp] theorem addHolds_delivery (n : Nat) : (addHolds n s).delivery = s.delivery := rfl
@[simp] theorem addHolds_counted (n : Nat) : (addHolds n s).counted = s.counted := rfl
@[simp] theorem addHolds_exu (n : Nat) : (addHolds n s).exu = s.exu := rfl
@[simp] theorem addHolds_pru (n : Nat) : (addHolds n s).pru = s.pru := rfl
@[simp] theorem addHolds_scu (n : Nat) : (addHolds n s).scu = s.scu := rfl
@[simp] theorem addHolds_sender (n : Nat) : (addHolds n s).sender = s.sender := rfl
@[simp] theorem addHolds_port (n : Nat) : (addHolds n s).port = s.port := rfl
@[simp] theorem addHolds_out (n : Nat) : (addHolds n s).out = s.out := rfl
@[simp] theorem addHolds_freeCount (n : Nat) : (addHolds n s).freeCount = s.freeCount := rfl
@[simp] theorem addHolds_jsu_holds (n : Nat) : (addHolds n s).jsu.holds = s.jsu.holds + n := rfl
@[simp] theorem addHolds_jsu_cause (n : Nat) : (addHolds n s).jsu.cause = s.jsu.cause := rfl

/-! ### dropHold -/

@[simp] theorem dropHold_pending : (dropHold s).pending = s.pending := rfl
@[simp] theorem dropHold_power : (dropHold s).power = s.power := rfl
@[simp] theorem dropHold_clock : (dropHold s).clock = s.clock := rfl
@[simp] theorem dropHold_store : (dropHold s).store = s.store := rfl
@[simp] theorem dropHold_kept : (dropHold s).kept = s.kept := rfl
@[simp] theorem dropHold_delivery : (dropHold s).delivery = s.delivery := rfl
@[simp] theorem dropHold_counted : (dropHold s).counted = s.counted := rfl
@[simp] theorem dropHold_exu : (dropHold s).exu = s.exu := rfl
@[simp] theorem dropHold_pru : (dropHold s).pru = s.pru := rfl
@[simp] theorem dropHold_scu : (dropHold s).scu = s.scu := rfl
@[simp] theorem dropHold_sender : (dropHold s).sender = s.sender := rfl
@[simp] theorem dropHold_port : (dropHold s).port = s.port := rfl
@[simp] theorem dropHold_out : (dropHold s).out = s.out := rfl
@[simp] theorem dropHold_freeCount : (dropHold s).freeCount = s.freeCount := rfl
@[simp] theorem dropHold_jsu_holds : (dropHold s).jsu.holds = s.jsu.holds - 1 := rfl
@[simp] theorem dropHold_jsu_cause : (dropHold s).jsu.cause = s.jsu.cause := rfl

/-! ### setCause -/

@[simp] theorem setCause_pending (c : RestartCause) : (setCause c s).pending = s.pending := rfl
@[simp] theorem setCause_power (c : RestartCause) : (setCause c s).power = s.power := rfl
@[simp] theorem setCause_clock (c : RestartCause) : (setCause c s).clock = s.clock := rfl
@[simp] theorem setCause_store (c : RestartCause) : (setCause c s).store = s.store := rfl
@[simp] theorem setCause_kept (c : RestartCause) : (setCause c s).kept = s.kept := rfl
@[simp] theorem setCause_delivery (c : RestartCause) : (setCause c s).delivery = s.delivery := rfl
@[simp] theorem setCause_counted (c : RestartCause) : (setCause c s).counted = s.counted := rfl
@[simp] theorem setCause_exu (c : RestartCause) : (setCause c s).exu = s.exu := rfl
@[simp] theorem setCause_pru (c : RestartCause) : (setCause c s).pru = s.pru := rfl
@[simp] theorem setCause_scu (c : RestartCause) : (setCause c s).scu = s.scu := rfl
@[simp] theorem setCause_sender (c : RestartCause) : (setCause c s).sender = s.sender := rfl
@[simp] theorem setCause_port (c : RestartCause) : (setCause c s).port = s.port := rfl
@[simp] theorem setCause_out (c : RestartCause) : (setCause c s).out = s.out := rfl
@[simp] theorem setCause_freeCount (c : RestartCause) : (setCause c s).freeCount = s.freeCount := rfl
@[simp] theorem setCause_jsu_holds (c : RestartCause) : (setCause c s).jsu.holds = s.jsu.holds := rfl
@[simp] theorem setCause_jsu_cause (c : RestartCause) : (setCause c s).jsu.cause = c := rfl

/-! ### setCounted -/

@[simp] theorem setCounted_pending (d : DrawerNo) (c : Option Counts) :
    (setCounted d c s).pending = s.pending := rfl
@[simp] theorem setCounted_power (d : DrawerNo) (c : Option Counts) :
    (setCounted d c s).power = s.power := rfl
@[simp] theorem setCounted_clock (d : DrawerNo) (c : Option Counts) :
    (setCounted d c s).clock = s.clock := rfl
@[simp] theorem setCounted_store (d : DrawerNo) (c : Option Counts) :
    (setCounted d c s).store = s.store := rfl
@[simp] theorem setCounted_kept (d : DrawerNo) (c : Option Counts) : (setCounted d c s).kept = s.kept := rfl
@[simp] theorem setCounted_jsu (d : DrawerNo) (c : Option Counts) : (setCounted d c s).jsu = s.jsu := rfl
@[simp] theorem setCounted_delivery (d : DrawerNo) (c : Option Counts) :
    (setCounted d c s).delivery = s.delivery := rfl
@[simp] theorem setCounted_exu (d : DrawerNo) (c : Option Counts) : (setCounted d c s).exu = s.exu := rfl
@[simp] theorem setCounted_pru (d : DrawerNo) (c : Option Counts) : (setCounted d c s).pru = s.pru := rfl
@[simp] theorem setCounted_scu (d : DrawerNo) (c : Option Counts) : (setCounted d c s).scu = s.scu := rfl
@[simp] theorem setCounted_sender (d : DrawerNo) (c : Option Counts) :
    (setCounted d c s).sender = s.sender := rfl
@[simp] theorem setCounted_port (d : DrawerNo) (c : Option Counts) : (setCounted d c s).port = s.port := rfl
@[simp] theorem setCounted_out (d : DrawerNo) (c : Option Counts) : (setCounted d c s).out = s.out := rfl
@[simp] theorem setCounted_freeCount (d : DrawerNo) (c : Option Counts) :
    (setCounted d c s).freeCount = s.freeCount := rfl
@[simp] theorem setCounted_counted (d : DrawerNo) (c : Option Counts) :
    (setCounted d c s).counted = s.counted.set d c := rfl

/-! ### setQuote -/

@[simp] theorem setQuote_pending (i : Fin 16) (q : Quote) : (setQuote i q s).pending = s.pending := rfl
@[simp] theorem setQuote_power (i : Fin 16) (q : Quote) : (setQuote i q s).power = s.power := rfl
@[simp] theorem setQuote_clock (i : Fin 16) (q : Quote) : (setQuote i q s).clock = s.clock := rfl
@[simp] theorem setQuote_store (i : Fin 16) (q : Quote) : (setQuote i q s).store = s.store := rfl
@[simp] theorem setQuote_kept (i : Fin 16) (q : Quote) : (setQuote i q s).kept = s.kept := rfl
@[simp] theorem setQuote_jsu (i : Fin 16) (q : Quote) : (setQuote i q s).jsu = s.jsu := rfl
@[simp] theorem setQuote_delivery (i : Fin 16) (q : Quote) : (setQuote i q s).delivery = s.delivery := rfl
@[simp] theorem setQuote_counted (i : Fin 16) (q : Quote) : (setQuote i q s).counted = s.counted := rfl
@[simp] theorem setQuote_pru (i : Fin 16) (q : Quote) : (setQuote i q s).pru = s.pru := rfl
@[simp] theorem setQuote_scu (i : Fin 16) (q : Quote) : (setQuote i q s).scu = s.scu := rfl
@[simp] theorem setQuote_sender (i : Fin 16) (q : Quote) : (setQuote i q s).sender = s.sender := rfl
@[simp] theorem setQuote_port (i : Fin 16) (q : Quote) : (setQuote i q s).port = s.port := rfl
@[simp] theorem setQuote_out (i : Fin 16) (q : Quote) : (setQuote i q s).out = s.out := rfl
@[simp] theorem setQuote_freeCount (i : Fin 16) (q : Quote) : (setQuote i q s).freeCount = s.freeCount := rfl
@[simp] theorem setQuote_exu_quotes (i : Fin 16) (q : Quote) :
    (setQuote i q s).exu.quotes = s.exu.quotes.set i (some q) := rfl
@[simp] theorem setQuote_exu_made (i : Fin 16) (q : Quote) : (setQuote i q s).exu.made = s.exu.made := rfl

/-! ### expireHeld -/

@[simp] theorem expireHeld_pending (p : Quote → Bool) (r : ExpiryReason) :
    (expireHeld p r s).pending = s.pending := rfl
@[simp] theorem expireHeld_power (p : Quote → Bool) (r : ExpiryReason) :
    (expireHeld p r s).power = s.power := rfl
@[simp] theorem expireHeld_clock (p : Quote → Bool) (r : ExpiryReason) :
    (expireHeld p r s).clock = s.clock := rfl
@[simp] theorem expireHeld_store (p : Quote → Bool) (r : ExpiryReason) :
    (expireHeld p r s).store = s.store := rfl
@[simp] theorem expireHeld_kept (p : Quote → Bool) (r : ExpiryReason) :
    (expireHeld p r s).kept = s.kept := rfl
@[simp] theorem expireHeld_jsu (p : Quote → Bool) (r : ExpiryReason) : (expireHeld p r s).jsu = s.jsu := rfl
@[simp] theorem expireHeld_delivery (p : Quote → Bool) (r : ExpiryReason) :
    (expireHeld p r s).delivery = s.delivery := rfl
@[simp] theorem expireHeld_counted (p : Quote → Bool) (r : ExpiryReason) :
    (expireHeld p r s).counted = s.counted := rfl
@[simp] theorem expireHeld_pru (p : Quote → Bool) (r : ExpiryReason) : (expireHeld p r s).pru = s.pru := rfl
@[simp] theorem expireHeld_scu (p : Quote → Bool) (r : ExpiryReason) : (expireHeld p r s).scu = s.scu := rfl
@[simp] theorem expireHeld_sender (p : Quote → Bool) (r : ExpiryReason) :
    (expireHeld p r s).sender = s.sender := rfl
@[simp] theorem expireHeld_port (p : Quote → Bool) (r : ExpiryReason) :
    (expireHeld p r s).port = s.port := rfl
@[simp] theorem expireHeld_out (p : Quote → Bool) (r : ExpiryReason) : (expireHeld p r s).out = s.out := rfl
@[simp] theorem expireHeld_freeCount (p : Quote → Bool) (r : ExpiryReason) :
    (expireHeld p r s).freeCount = s.freeCount := rfl
@[simp] theorem expireHeld_exu_quotes (p : Quote → Bool) (r : ExpiryReason) :
    (expireHeld p r s).exu.quotes = s.exu.quotes.map (Option.map (endHeld p r)) := rfl
@[simp] theorem expireHeld_exu_made (p : Quote → Bool) (r : ExpiryReason) :
    (expireHeld p r s).exu.made = s.exu.made := rfl

/-! ### modifyEngine -/

@[simp] theorem modifyEngine_pending (p : PrinterNo) (f : Engine → Engine) :
    (modifyEngine p f s).pending = s.pending := rfl
@[simp] theorem modifyEngine_power (p : PrinterNo) (f : Engine → Engine) :
    (modifyEngine p f s).power = s.power := rfl
@[simp] theorem modifyEngine_clock (p : PrinterNo) (f : Engine → Engine) :
    (modifyEngine p f s).clock = s.clock := rfl
@[simp] theorem modifyEngine_store (p : PrinterNo) (f : Engine → Engine) :
    (modifyEngine p f s).store = s.store := rfl
@[simp] theorem modifyEngine_kept (p : PrinterNo) (f : Engine → Engine) :
    (modifyEngine p f s).kept = s.kept := rfl
@[simp] theorem modifyEngine_jsu (p : PrinterNo) (f : Engine → Engine) :
    (modifyEngine p f s).jsu = s.jsu := rfl
@[simp] theorem modifyEngine_delivery (p : PrinterNo) (f : Engine → Engine) :
    (modifyEngine p f s).delivery = s.delivery := rfl
@[simp] theorem modifyEngine_counted (p : PrinterNo) (f : Engine → Engine) :
    (modifyEngine p f s).counted = s.counted := rfl
@[simp] theorem modifyEngine_exu (p : PrinterNo) (f : Engine → Engine) :
    (modifyEngine p f s).exu = s.exu := rfl
@[simp] theorem modifyEngine_scu (p : PrinterNo) (f : Engine → Engine) :
    (modifyEngine p f s).scu = s.scu := rfl
@[simp] theorem modifyEngine_sender (p : PrinterNo) (f : Engine → Engine) :
    (modifyEngine p f s).sender = s.sender := rfl
@[simp] theorem modifyEngine_port (p : PrinterNo) (f : Engine → Engine) :
    (modifyEngine p f s).port = s.port := rfl
@[simp] theorem modifyEngine_out (p : PrinterNo) (f : Engine → Engine) :
    (modifyEngine p f s).out = s.out := rfl
@[simp] theorem modifyEngine_freeCount (p : PrinterNo) (f : Engine → Engine) :
    (modifyEngine p f s).freeCount = s.freeCount := rfl
@[simp] theorem modifyEngine_pru_engines (p : PrinterNo) (f : Engine → Engine) :
    (modifyEngine p f s).pru.engines = s.pru.engines.modify p f := rfl
@[simp] theorem modifyEngine_pru_jobs (p : PrinterNo) (f : Engine → Engine) :
    (modifyEngine p f s).pru.jobs = s.pru.jobs := rfl
@[simp] theorem modifyEngine_pru_nextJob (p : PrinterNo) (f : Engine → Engine) :
    (modifyEngine p f s).pru.nextJob = s.pru.nextJob := rfl
@[simp] theorem modifyEngine_pru_notes (p : PrinterNo) (f : Engine → Engine) :
    (modifyEngine p f s).pru.notes = s.pru.notes := rfl
@[simp] theorem modifyEngine_pru_sealAnswered (p : PrinterNo) (f : Engine → Engine) :
    (modifyEngine p f s).pru.sealAnswered = s.pru.sealAnswered := rfl

/-! ### setMotion -/

@[simp] theorem setMotion_pending (p : PrinterNo) (m : Motion) : (setMotion p m s).pending = s.pending := rfl
@[simp] theorem setMotion_power (p : PrinterNo) (m : Motion) : (setMotion p m s).power = s.power := rfl
@[simp] theorem setMotion_clock (p : PrinterNo) (m : Motion) : (setMotion p m s).clock = s.clock := rfl
@[simp] theorem setMotion_store (p : PrinterNo) (m : Motion) : (setMotion p m s).store = s.store := rfl
@[simp] theorem setMotion_kept (p : PrinterNo) (m : Motion) : (setMotion p m s).kept = s.kept := rfl
@[simp] theorem setMotion_jsu (p : PrinterNo) (m : Motion) : (setMotion p m s).jsu = s.jsu := rfl
@[simp] theorem setMotion_delivery (p : PrinterNo) (m : Motion) :
    (setMotion p m s).delivery = s.delivery := rfl
@[simp] theorem setMotion_counted (p : PrinterNo) (m : Motion) : (setMotion p m s).counted = s.counted := rfl
@[simp] theorem setMotion_exu (p : PrinterNo) (m : Motion) : (setMotion p m s).exu = s.exu := rfl
@[simp] theorem setMotion_scu (p : PrinterNo) (m : Motion) : (setMotion p m s).scu = s.scu := rfl
@[simp] theorem setMotion_sender (p : PrinterNo) (m : Motion) : (setMotion p m s).sender = s.sender := rfl
@[simp] theorem setMotion_port (p : PrinterNo) (m : Motion) : (setMotion p m s).port = s.port := rfl
@[simp] theorem setMotion_out (p : PrinterNo) (m : Motion) : (setMotion p m s).out = s.out := rfl
@[simp] theorem setMotion_freeCount (p : PrinterNo) (m : Motion) :
    (setMotion p m s).freeCount = s.freeCount := rfl
@[simp] theorem setMotion_pru_engines (p : PrinterNo) (m : Motion) :
    (setMotion p m s).pru.engines = s.pru.engines.modify p fun e => { e with motion := m } := rfl
@[simp] theorem setMotion_pru_jobs (p : PrinterNo) (m : Motion) :
    (setMotion p m s).pru.jobs = s.pru.jobs := rfl
@[simp] theorem setMotion_pru_nextJob (p : PrinterNo) (m : Motion) :
    (setMotion p m s).pru.nextJob = s.pru.nextJob := rfl
@[simp] theorem setMotion_pru_notes (p : PrinterNo) (m : Motion) :
    (setMotion p m s).pru.notes = s.pru.notes := rfl
@[simp] theorem setMotion_pru_sealAnswered (p : PrinterNo) (m : Motion) :
    (setMotion p m s).pru.sealAnswered = s.pru.sealAnswered := rfl

/-! ### setJob -/

@[simp] theorem setJob_pending (i : Fin 16) (j : Job) : (setJob i j s).pending = s.pending := rfl
@[simp] theorem setJob_power (i : Fin 16) (j : Job) : (setJob i j s).power = s.power := rfl
@[simp] theorem setJob_clock (i : Fin 16) (j : Job) : (setJob i j s).clock = s.clock := rfl
@[simp] theorem setJob_store (i : Fin 16) (j : Job) : (setJob i j s).store = s.store := rfl
@[simp] theorem setJob_kept (i : Fin 16) (j : Job) : (setJob i j s).kept = s.kept := rfl
@[simp] theorem setJob_jsu (i : Fin 16) (j : Job) : (setJob i j s).jsu = s.jsu := rfl
@[simp] theorem setJob_delivery (i : Fin 16) (j : Job) : (setJob i j s).delivery = s.delivery := rfl
@[simp] theorem setJob_counted (i : Fin 16) (j : Job) : (setJob i j s).counted = s.counted := rfl
@[simp] theorem setJob_exu (i : Fin 16) (j : Job) : (setJob i j s).exu = s.exu := rfl
@[simp] theorem setJob_scu (i : Fin 16) (j : Job) : (setJob i j s).scu = s.scu := rfl
@[simp] theorem setJob_sender (i : Fin 16) (j : Job) : (setJob i j s).sender = s.sender := rfl
@[simp] theorem setJob_port (i : Fin 16) (j : Job) : (setJob i j s).port = s.port := rfl
@[simp] theorem setJob_out (i : Fin 16) (j : Job) : (setJob i j s).out = s.out := rfl
@[simp] theorem setJob_freeCount (i : Fin 16) (j : Job) : (setJob i j s).freeCount = s.freeCount := rfl
@[simp] theorem setJob_pru_engines (i : Fin 16) (j : Job) : (setJob i j s).pru.engines = s.pru.engines := rfl
@[simp] theorem setJob_pru_jobs (i : Fin 16) (j : Job) :
    (setJob i j s).pru.jobs = s.pru.jobs.set i (some j) := rfl
@[simp] theorem setJob_pru_nextJob (i : Fin 16) (j : Job) : (setJob i j s).pru.nextJob = s.pru.nextJob := rfl
@[simp] theorem setJob_pru_notes (i : Fin 16) (j : Job) : (setJob i j s).pru.notes = s.pru.notes := rfl
@[simp] theorem setJob_pru_sealAnswered (i : Fin 16) (j : Job) :
    (setJob i j s).pru.sealAnswered = s.pru.sealAnswered := rfl

/-! ### stopPrinters -/

@[simp] theorem stopPrinters_pending : (stopPrinters s).pending = s.pending := rfl
@[simp] theorem stopPrinters_power : (stopPrinters s).power = s.power := rfl
@[simp] theorem stopPrinters_clock : (stopPrinters s).clock = s.clock := rfl
@[simp] theorem stopPrinters_store : (stopPrinters s).store = s.store := rfl
@[simp] theorem stopPrinters_kept : (stopPrinters s).kept = s.kept := rfl
@[simp] theorem stopPrinters_jsu : (stopPrinters s).jsu = s.jsu := rfl
@[simp] theorem stopPrinters_delivery : (stopPrinters s).delivery = s.delivery := rfl
@[simp] theorem stopPrinters_counted : (stopPrinters s).counted = s.counted := rfl
@[simp] theorem stopPrinters_exu : (stopPrinters s).exu = s.exu := rfl
@[simp] theorem stopPrinters_scu : (stopPrinters s).scu = s.scu := rfl
@[simp] theorem stopPrinters_sender : (stopPrinters s).sender = s.sender := rfl
@[simp] theorem stopPrinters_port : (stopPrinters s).port = s.port := rfl
@[simp] theorem stopPrinters_out : (stopPrinters s).out = s.out := rfl
@[simp] theorem stopPrinters_freeCount : (stopPrinters s).freeCount = s.freeCount := rfl
@[simp] theorem stopPrinters_pru_engines : (stopPrinters s).pru.engines = s.pru.engines.map stopEngine := rfl
@[simp] theorem stopPrinters_pru_jobs : (stopPrinters s).pru.jobs = s.pru.jobs := rfl
@[simp] theorem stopPrinters_pru_nextJob : (stopPrinters s).pru.nextJob = s.pru.nextJob := rfl
@[simp] theorem stopPrinters_pru_notes : (stopPrinters s).pru.notes = s.pru.notes := rfl
@[simp] theorem stopPrinters_pru_sealAnswered : (stopPrinters s).pru.sealAnswered = s.pru.sealAnswered := rfl

/-! ### modifyScreen -/

@[simp] theorem modifyScreen_pending (p : Position) (f : Screen → Screen) :
    (modifyScreen p f s).pending = s.pending := rfl
@[simp] theorem modifyScreen_power (p : Position) (f : Screen → Screen) :
    (modifyScreen p f s).power = s.power := rfl
@[simp] theorem modifyScreen_clock (p : Position) (f : Screen → Screen) :
    (modifyScreen p f s).clock = s.clock := rfl
@[simp] theorem modifyScreen_store (p : Position) (f : Screen → Screen) :
    (modifyScreen p f s).store = s.store := rfl
@[simp] theorem modifyScreen_kept (p : Position) (f : Screen → Screen) :
    (modifyScreen p f s).kept = s.kept := rfl
@[simp] theorem modifyScreen_jsu (p : Position) (f : Screen → Screen) :
    (modifyScreen p f s).jsu = s.jsu := rfl
@[simp] theorem modifyScreen_delivery (p : Position) (f : Screen → Screen) :
    (modifyScreen p f s).delivery = s.delivery := rfl
@[simp] theorem modifyScreen_counted (p : Position) (f : Screen → Screen) :
    (modifyScreen p f s).counted = s.counted := rfl
@[simp] theorem modifyScreen_exu (p : Position) (f : Screen → Screen) :
    (modifyScreen p f s).exu = s.exu := rfl
@[simp] theorem modifyScreen_pru (p : Position) (f : Screen → Screen) :
    (modifyScreen p f s).pru = s.pru := rfl
@[simp] theorem modifyScreen_sender (p : Position) (f : Screen → Screen) :
    (modifyScreen p f s).sender = s.sender := rfl
@[simp] theorem modifyScreen_port (p : Position) (f : Screen → Screen) :
    (modifyScreen p f s).port = s.port := rfl
@[simp] theorem modifyScreen_out (p : Position) (f : Screen → Screen) :
    (modifyScreen p f s).out = s.out := rfl
@[simp] theorem modifyScreen_freeCount (p : Position) (f : Screen → Screen) :
    (modifyScreen p f s).freeCount = s.freeCount := rfl
@[simp] theorem modifyScreen_scu_buffers (p : Position) (f : Screen → Screen) :
    (modifyScreen p f s).scu.buffers = s.scu.buffers := rfl
@[simp] theorem modifyScreen_scu_screens (p : Position) (f : Screen → Screen) :
    (modifyScreen p f s).scu.screens = s.scu.screens.modify p f := rfl
@[simp] theorem modifyScreen_scu_idleTimeout (p : Position) (f : Screen → Screen) :
    (modifyScreen p f s).scu.idleTimeout = s.scu.idleTimeout := rfl
@[simp] theorem modifyScreen_scu_lockText (p : Position) (f : Screen → Screen) :
    (modifyScreen p f s).scu.lockText = s.scu.lockText := rfl

/-! ### modifySender -/

@[simp] theorem modifySender_pending (f : Sender → Sender) : (modifySender f s).pending = s.pending := rfl
@[simp] theorem modifySender_power (f : Sender → Sender) : (modifySender f s).power = s.power := rfl
@[simp] theorem modifySender_clock (f : Sender → Sender) : (modifySender f s).clock = s.clock := rfl
@[simp] theorem modifySender_store (f : Sender → Sender) : (modifySender f s).store = s.store := rfl
@[simp] theorem modifySender_kept (f : Sender → Sender) : (modifySender f s).kept = s.kept := rfl
@[simp] theorem modifySender_jsu (f : Sender → Sender) : (modifySender f s).jsu = s.jsu := rfl
@[simp] theorem modifySender_delivery (f : Sender → Sender) : (modifySender f s).delivery = s.delivery := rfl
@[simp] theorem modifySender_counted (f : Sender → Sender) : (modifySender f s).counted = s.counted := rfl
@[simp] theorem modifySender_exu (f : Sender → Sender) : (modifySender f s).exu = s.exu := rfl
@[simp] theorem modifySender_pru (f : Sender → Sender) : (modifySender f s).pru = s.pru := rfl
@[simp] theorem modifySender_scu (f : Sender → Sender) : (modifySender f s).scu = s.scu := rfl
@[simp] theorem modifySender_port (f : Sender → Sender) : (modifySender f s).port = s.port := rfl
@[simp] theorem modifySender_out (f : Sender → Sender) : (modifySender f s).out = s.out := rfl
@[simp] theorem modifySender_freeCount (f : Sender → Sender) :
    (modifySender f s).freeCount = s.freeCount := rfl
@[simp] theorem modifySender_sender (f : Sender → Sender) : (modifySender f s).sender = f s.sender := rfl

/-! ### emitLine -/

@[simp] theorem emitLine_pending (f : Frame) : (emitLine f s).pending = s.pending := rfl
@[simp] theorem emitLine_power (f : Frame) : (emitLine f s).power = s.power := rfl
@[simp] theorem emitLine_clock (f : Frame) : (emitLine f s).clock = s.clock := rfl
@[simp] theorem emitLine_store (f : Frame) : (emitLine f s).store = s.store := rfl
@[simp] theorem emitLine_kept (f : Frame) : (emitLine f s).kept = s.kept := rfl
@[simp] theorem emitLine_jsu (f : Frame) : (emitLine f s).jsu = s.jsu := rfl
@[simp] theorem emitLine_delivery (f : Frame) : (emitLine f s).delivery = s.delivery := rfl
@[simp] theorem emitLine_counted (f : Frame) : (emitLine f s).counted = s.counted := rfl
@[simp] theorem emitLine_exu (f : Frame) : (emitLine f s).exu = s.exu := rfl
@[simp] theorem emitLine_pru (f : Frame) : (emitLine f s).pru = s.pru := rfl
@[simp] theorem emitLine_scu (f : Frame) : (emitLine f s).scu = s.scu := rfl
@[simp] theorem emitLine_sender (f : Frame) : (emitLine f s).sender = s.sender := rfl
@[simp] theorem emitLine_port (f : Frame) : (emitLine f s).port = s.port := rfl
@[simp] theorem emitLine_freeCount (f : Frame) : (emitLine f s).freeCount = s.freeCount := rfl
@[simp] theorem emitLine_out_line (f : Frame) : (emitLine f s).out.line = s.out.line ++ [f] := rfl
@[simp] theorem emitLine_out_displays (f : Frame) : (emitLine f s).out.displays = s.out.displays := rfl
@[simp] theorem emitLine_out_printed (f : Frame) : (emitLine f s).out.printed = s.out.printed := rfl
@[simp] theorem emitLine_out_lineReady (f : Frame) : (emitLine f s).out.lineReady = s.out.lineReady := rfl
@[simp] theorem emitLine_out_readData (f : Frame) : (emitLine f s).out.readData = s.out.readData := rfl

/-! ### setLineReady -/

@[simp] theorem setLineReady_pending (b : Bool) : (setLineReady b s).pending = s.pending := rfl
@[simp] theorem setLineReady_power (b : Bool) : (setLineReady b s).power = s.power := rfl
@[simp] theorem setLineReady_clock (b : Bool) : (setLineReady b s).clock = s.clock := rfl
@[simp] theorem setLineReady_store (b : Bool) : (setLineReady b s).store = s.store := rfl
@[simp] theorem setLineReady_kept (b : Bool) : (setLineReady b s).kept = s.kept := rfl
@[simp] theorem setLineReady_jsu (b : Bool) : (setLineReady b s).jsu = s.jsu := rfl
@[simp] theorem setLineReady_delivery (b : Bool) : (setLineReady b s).delivery = s.delivery := rfl
@[simp] theorem setLineReady_counted (b : Bool) : (setLineReady b s).counted = s.counted := rfl
@[simp] theorem setLineReady_exu (b : Bool) : (setLineReady b s).exu = s.exu := rfl
@[simp] theorem setLineReady_pru (b : Bool) : (setLineReady b s).pru = s.pru := rfl
@[simp] theorem setLineReady_scu (b : Bool) : (setLineReady b s).scu = s.scu := rfl
@[simp] theorem setLineReady_sender (b : Bool) : (setLineReady b s).sender = s.sender := rfl
@[simp] theorem setLineReady_port (b : Bool) : (setLineReady b s).port = s.port := rfl
@[simp] theorem setLineReady_freeCount (b : Bool) : (setLineReady b s).freeCount = s.freeCount := rfl
@[simp] theorem setLineReady_out_line (b : Bool) : (setLineReady b s).out.line = s.out.line := rfl
@[simp] theorem setLineReady_out_displays (b : Bool) : (setLineReady b s).out.displays = s.out.displays := rfl
@[simp] theorem setLineReady_out_printed (b : Bool) : (setLineReady b s).out.printed = s.out.printed := rfl
@[simp] theorem setLineReady_out_lineReady (b : Bool) : (setLineReady b s).out.lineReady = b := rfl
@[simp] theorem setLineReady_out_readData (b : Bool) : (setLineReady b s).out.readData = s.out.readData := rfl

/-! ### emitDisplay -/

@[simp] theorem emitDisplay_pending (p : Position) (f : Frame) :
    (emitDisplay p f s).pending = s.pending := rfl
@[simp] theorem emitDisplay_power (p : Position) (f : Frame) : (emitDisplay p f s).power = s.power := rfl
@[simp] theorem emitDisplay_clock (p : Position) (f : Frame) : (emitDisplay p f s).clock = s.clock := rfl
@[simp] theorem emitDisplay_store (p : Position) (f : Frame) : (emitDisplay p f s).store = s.store := rfl
@[simp] theorem emitDisplay_kept (p : Position) (f : Frame) : (emitDisplay p f s).kept = s.kept := rfl
@[simp] theorem emitDisplay_jsu (p : Position) (f : Frame) : (emitDisplay p f s).jsu = s.jsu := rfl
@[simp] theorem emitDisplay_delivery (p : Position) (f : Frame) :
    (emitDisplay p f s).delivery = s.delivery := rfl
@[simp] theorem emitDisplay_counted (p : Position) (f : Frame) :
    (emitDisplay p f s).counted = s.counted := rfl
@[simp] theorem emitDisplay_exu (p : Position) (f : Frame) : (emitDisplay p f s).exu = s.exu := rfl
@[simp] theorem emitDisplay_pru (p : Position) (f : Frame) : (emitDisplay p f s).pru = s.pru := rfl
@[simp] theorem emitDisplay_scu (p : Position) (f : Frame) : (emitDisplay p f s).scu = s.scu := rfl
@[simp] theorem emitDisplay_sender (p : Position) (f : Frame) : (emitDisplay p f s).sender = s.sender := rfl
@[simp] theorem emitDisplay_port (p : Position) (f : Frame) : (emitDisplay p f s).port = s.port := rfl
@[simp] theorem emitDisplay_freeCount (p : Position) (f : Frame) :
    (emitDisplay p f s).freeCount = s.freeCount := rfl
@[simp] theorem emitDisplay_out_line (p : Position) (f : Frame) :
    (emitDisplay p f s).out.line = s.out.line := rfl
@[simp] theorem emitDisplay_out_displays (p : Position) (f : Frame) :
    (emitDisplay p f s).out.displays = s.out.displays.modify p (· ++ [f]) := rfl
@[simp] theorem emitDisplay_out_printed (p : Position) (f : Frame) :
    (emitDisplay p f s).out.printed = s.out.printed := rfl
@[simp] theorem emitDisplay_out_lineReady (p : Position) (f : Frame) :
    (emitDisplay p f s).out.lineReady = s.out.lineReady := rfl
@[simp] theorem emitDisplay_out_readData (p : Position) (f : Frame) :
    (emitDisplay p f s).out.readData = s.out.readData := rfl

/-! ### emitPrinted -/

@[simp] theorem emitPrinted_pending (p : PrinterNo) (l : List PrintedLine) :
    (emitPrinted p l s).pending = s.pending := rfl
@[simp] theorem emitPrinted_power (p : PrinterNo) (l : List PrintedLine) :
    (emitPrinted p l s).power = s.power := rfl
@[simp] theorem emitPrinted_clock (p : PrinterNo) (l : List PrintedLine) :
    (emitPrinted p l s).clock = s.clock := rfl
@[simp] theorem emitPrinted_store (p : PrinterNo) (l : List PrintedLine) :
    (emitPrinted p l s).store = s.store := rfl
@[simp] theorem emitPrinted_kept (p : PrinterNo) (l : List PrintedLine) :
    (emitPrinted p l s).kept = s.kept := rfl
@[simp] theorem emitPrinted_jsu (p : PrinterNo) (l : List PrintedLine) :
    (emitPrinted p l s).jsu = s.jsu := rfl
@[simp] theorem emitPrinted_delivery (p : PrinterNo) (l : List PrintedLine) :
    (emitPrinted p l s).delivery = s.delivery := rfl
@[simp] theorem emitPrinted_counted (p : PrinterNo) (l : List PrintedLine) :
    (emitPrinted p l s).counted = s.counted := rfl
@[simp] theorem emitPrinted_exu (p : PrinterNo) (l : List PrintedLine) :
    (emitPrinted p l s).exu = s.exu := rfl
@[simp] theorem emitPrinted_pru (p : PrinterNo) (l : List PrintedLine) :
    (emitPrinted p l s).pru = s.pru := rfl
@[simp] theorem emitPrinted_scu (p : PrinterNo) (l : List PrintedLine) :
    (emitPrinted p l s).scu = s.scu := rfl
@[simp] theorem emitPrinted_sender (p : PrinterNo) (l : List PrintedLine) :
    (emitPrinted p l s).sender = s.sender := rfl
@[simp] theorem emitPrinted_port (p : PrinterNo) (l : List PrintedLine) :
    (emitPrinted p l s).port = s.port := rfl
@[simp] theorem emitPrinted_freeCount (p : PrinterNo) (l : List PrintedLine) :
    (emitPrinted p l s).freeCount = s.freeCount := rfl
@[simp] theorem emitPrinted_out_line (p : PrinterNo) (l : List PrintedLine) :
    (emitPrinted p l s).out.line = s.out.line := rfl
@[simp] theorem emitPrinted_out_displays (p : PrinterNo) (l : List PrintedLine) :
    (emitPrinted p l s).out.displays = s.out.displays := rfl
@[simp] theorem emitPrinted_out_printed (p : PrinterNo) (l : List PrintedLine) :
    (emitPrinted p l s).out.printed = s.out.printed.modify p (· ++ l) := rfl
@[simp] theorem emitPrinted_out_lineReady (p : PrinterNo) (l : List PrintedLine) :
    (emitPrinted p l s).out.lineReady = s.out.lineReady := rfl
@[simp] theorem emitPrinted_out_readData (p : PrinterNo) (l : List PrintedLine) :
    (emitPrinted p l s).out.readData = s.out.readData := rfl

/-! ### answerRead -/

@[simp] theorem answerRead_pending (w : Word) : (answerRead w s).pending = s.pending := rfl
@[simp] theorem answerRead_power (w : Word) : (answerRead w s).power = s.power := rfl
@[simp] theorem answerRead_clock (w : Word) : (answerRead w s).clock = s.clock := rfl
@[simp] theorem answerRead_store (w : Word) : (answerRead w s).store = s.store := rfl
@[simp] theorem answerRead_kept (w : Word) : (answerRead w s).kept = s.kept := rfl
@[simp] theorem answerRead_jsu (w : Word) : (answerRead w s).jsu = s.jsu := rfl
@[simp] theorem answerRead_delivery (w : Word) : (answerRead w s).delivery = s.delivery := rfl
@[simp] theorem answerRead_counted (w : Word) : (answerRead w s).counted = s.counted := rfl
@[simp] theorem answerRead_exu (w : Word) : (answerRead w s).exu = s.exu := rfl
@[simp] theorem answerRead_pru (w : Word) : (answerRead w s).pru = s.pru := rfl
@[simp] theorem answerRead_scu (w : Word) : (answerRead w s).scu = s.scu := rfl
@[simp] theorem answerRead_sender (w : Word) : (answerRead w s).sender = s.sender := rfl
@[simp] theorem answerRead_port (w : Word) : (answerRead w s).port = s.port := rfl
@[simp] theorem answerRead_freeCount (w : Word) : (answerRead w s).freeCount = s.freeCount := rfl
@[simp] theorem answerRead_out_line (w : Word) : (answerRead w s).out.line = s.out.line := rfl
@[simp] theorem answerRead_out_displays (w : Word) : (answerRead w s).out.displays = s.out.displays := rfl
@[simp] theorem answerRead_out_printed (w : Word) : (answerRead w s).out.printed = s.out.printed := rfl
@[simp] theorem answerRead_out_lineReady (w : Word) : (answerRead w s).out.lineReady = s.out.lineReady := rfl
@[simp] theorem answerRead_out_readData (w : Word) : (answerRead w s).out.readData = w := rfl

/-! ### abandonRequests -/

@[simp] theorem abandonRequests_pending : (abandonRequests s).pending = s.pending := rfl
@[simp] theorem abandonRequests_power : (abandonRequests s).power = s.power := rfl
@[simp] theorem abandonRequests_clock : (abandonRequests s).clock = s.clock := rfl
@[simp] theorem abandonRequests_store : (abandonRequests s).store = s.store := rfl
@[simp] theorem abandonRequests_kept : (abandonRequests s).kept = s.kept := rfl
@[simp] theorem abandonRequests_jsu : (abandonRequests s).jsu = s.jsu := rfl
@[simp] theorem abandonRequests_delivery : (abandonRequests s).delivery = s.delivery := rfl
@[simp] theorem abandonRequests_counted : (abandonRequests s).counted = s.counted := rfl
@[simp] theorem abandonRequests_exu : (abandonRequests s).exu = s.exu := rfl
@[simp] theorem abandonRequests_pru : (abandonRequests s).pru = s.pru := rfl
@[simp] theorem abandonRequests_scu : (abandonRequests s).scu = s.scu := rfl
@[simp] theorem abandonRequests_sender : (abandonRequests s).sender = s.sender := rfl
@[simp] theorem abandonRequests_out : (abandonRequests s).out = s.out := rfl
@[simp] theorem abandonRequests_freeCount : (abandonRequests s).freeCount = s.freeCount := rfl
@[simp] theorem abandonRequests_port_windows : (abandonRequests s).port.windows = s.port.windows := rfl
@[simp] theorem abandonRequests_port_lastServed :
    (abandonRequests s).port.lastServed = s.port.lastServed := rfl
@[simp] theorem abandonRequests_port_burstUsed : (abandonRequests s).port.burstUsed = s.port.burstUsed := rfl
@[simp] theorem abandonRequests_port_inExecution :
    (abandonRequests s).port.inExecution = Table.fill 5 none := rfl
@[simp] theorem abandonRequests_port_order :
    (abandonRequests s).port.order = s.port.order.filter takesItself := rfl
@[simp] theorem abandonRequests_port_fault : (abandonRequests s).port.fault = s.port.fault := rfl

/-! ### setOrder -/

@[simp] theorem setOrder_pending (l : List Asked) : (setOrder l s).pending = s.pending := rfl
@[simp] theorem setOrder_power (l : List Asked) : (setOrder l s).power = s.power := rfl
@[simp] theorem setOrder_clock (l : List Asked) : (setOrder l s).clock = s.clock := rfl
@[simp] theorem setOrder_store (l : List Asked) : (setOrder l s).store = s.store := rfl
@[simp] theorem setOrder_kept (l : List Asked) : (setOrder l s).kept = s.kept := rfl
@[simp] theorem setOrder_jsu (l : List Asked) : (setOrder l s).jsu = s.jsu := rfl
@[simp] theorem setOrder_delivery (l : List Asked) : (setOrder l s).delivery = s.delivery := rfl
@[simp] theorem setOrder_counted (l : List Asked) : (setOrder l s).counted = s.counted := rfl
@[simp] theorem setOrder_exu (l : List Asked) : (setOrder l s).exu = s.exu := rfl
@[simp] theorem setOrder_pru (l : List Asked) : (setOrder l s).pru = s.pru := rfl
@[simp] theorem setOrder_scu (l : List Asked) : (setOrder l s).scu = s.scu := rfl
@[simp] theorem setOrder_sender (l : List Asked) : (setOrder l s).sender = s.sender := rfl
@[simp] theorem setOrder_out (l : List Asked) : (setOrder l s).out = s.out := rfl
@[simp] theorem setOrder_freeCount (l : List Asked) : (setOrder l s).freeCount = s.freeCount := rfl
@[simp] theorem setOrder_port_windows (l : List Asked) : (setOrder l s).port.windows = s.port.windows := rfl
@[simp] theorem setOrder_port_lastServed (l : List Asked) :
    (setOrder l s).port.lastServed = s.port.lastServed := rfl
@[simp] theorem setOrder_port_burstUsed (l : List Asked) :
    (setOrder l s).port.burstUsed = s.port.burstUsed := rfl
@[simp] theorem setOrder_port_inExecution (l : List Asked) :
    (setOrder l s).port.inExecution = s.port.inExecution := rfl
@[simp] theorem setOrder_port_order (l : List Asked) : (setOrder l s).port.order = l := rfl
@[simp] theorem setOrder_port_fault (l : List Asked) : (setOrder l s).port.fault = s.port.fault := rfl

/-! ### ask -/

@[simp] theorem ask_pending (x : Asked) : (ask x s).pending = s.pending := rfl
@[simp] theorem ask_power (x : Asked) : (ask x s).power = s.power := rfl
@[simp] theorem ask_clock (x : Asked) : (ask x s).clock = s.clock := rfl
@[simp] theorem ask_store (x : Asked) : (ask x s).store = s.store := rfl
@[simp] theorem ask_kept (x : Asked) : (ask x s).kept = s.kept := rfl
@[simp] theorem ask_jsu (x : Asked) : (ask x s).jsu = s.jsu := rfl
@[simp] theorem ask_delivery (x : Asked) : (ask x s).delivery = s.delivery := rfl
@[simp] theorem ask_counted (x : Asked) : (ask x s).counted = s.counted := rfl
@[simp] theorem ask_exu (x : Asked) : (ask x s).exu = s.exu := rfl
@[simp] theorem ask_pru (x : Asked) : (ask x s).pru = s.pru := rfl
@[simp] theorem ask_scu (x : Asked) : (ask x s).scu = s.scu := rfl
@[simp] theorem ask_sender (x : Asked) : (ask x s).sender = s.sender := rfl
@[simp] theorem ask_out (x : Asked) : (ask x s).out = s.out := rfl
@[simp] theorem ask_freeCount (x : Asked) : (ask x s).freeCount = s.freeCount := rfl
@[simp] theorem ask_port_windows (x : Asked) : (ask x s).port.windows = s.port.windows := rfl
@[simp] theorem ask_port_lastServed (x : Asked) : (ask x s).port.lastServed = s.port.lastServed := rfl
@[simp] theorem ask_port_burstUsed (x : Asked) : (ask x s).port.burstUsed = s.port.burstUsed := rfl
@[simp] theorem ask_port_inExecution (x : Asked) : (ask x s).port.inExecution = s.port.inExecution := rfl
@[simp] theorem ask_port_order (x : Asked) : (ask x s).port.order = s.port.order ++ [x] := rfl
@[simp] theorem ask_port_fault (x : Asked) : (ask x s).port.fault = s.port.fault := rfl

/-! ### clearNotices -/

@[simp] theorem clearNotices_pending : (clearNotices s).pending = s.pending := rfl
@[simp] theorem clearNotices_power : (clearNotices s).power = s.power := rfl
@[simp] theorem clearNotices_clock : (clearNotices s).clock = s.clock := rfl
@[simp] theorem clearNotices_store : (clearNotices s).store = s.store := rfl
@[simp] theorem clearNotices_kept : (clearNotices s).kept = s.kept := rfl
@[simp] theorem clearNotices_jsu : (clearNotices s).jsu = s.jsu := rfl
@[simp] theorem clearNotices_delivery : (clearNotices s).delivery = s.delivery := rfl
@[simp] theorem clearNotices_counted : (clearNotices s).counted = s.counted := rfl
@[simp] theorem clearNotices_exu : (clearNotices s).exu = s.exu := rfl
@[simp] theorem clearNotices_pru : (clearNotices s).pru = s.pru := rfl
@[simp] theorem clearNotices_scu : (clearNotices s).scu = s.scu := rfl
@[simp] theorem clearNotices_sender : (clearNotices s).sender = s.sender := rfl
@[simp] theorem clearNotices_out : (clearNotices s).out = s.out := rfl
@[simp] theorem clearNotices_freeCount : (clearNotices s).freeCount = s.freeCount := rfl
@[simp] theorem clearNotices_port_windows :
    (clearNotices s).port.windows = s.port.windows.map fun w =>
      { w with waiting := Table.fill 8 none, service := Table.fill 8 none } := rfl
@[simp] theorem clearNotices_port_lastServed : (clearNotices s).port.lastServed = s.port.lastServed := rfl
@[simp] theorem clearNotices_port_burstUsed : (clearNotices s).port.burstUsed = s.port.burstUsed := rfl
@[simp] theorem clearNotices_port_inExecution : (clearNotices s).port.inExecution = s.port.inExecution := rfl
@[simp] theorem clearNotices_port_order : (clearNotices s).port.order = s.port.order := rfl
@[simp] theorem clearNotices_port_fault : (clearNotices s).port.fault = s.port.fault := rfl

/-! ### takeReports -/

@[simp] theorem takeReports_pending (rs : List Report) : (takeReports rs s).pending = s.pending := rfl
@[simp] theorem takeReports_power (rs : List Report) : (takeReports rs s).power = s.power := rfl
@[simp] theorem takeReports_clock (rs : List Report) : (takeReports rs s).clock = s.clock := rfl
@[simp] theorem takeReports_store (rs : List Report) : (takeReports rs s).store = s.store := rfl
@[simp] theorem takeReports_kept (rs : List Report) : (takeReports rs s).kept = s.kept := rfl
@[simp] theorem takeReports_jsu (rs : List Report) : (takeReports rs s).jsu = s.jsu := rfl
@[simp] theorem takeReports_delivery (rs : List Report) : (takeReports rs s).delivery = s.delivery := rfl
@[simp] theorem takeReports_counted (rs : List Report) : (takeReports rs s).counted = s.counted := rfl
@[simp] theorem takeReports_exu (rs : List Report) : (takeReports rs s).exu = s.exu := rfl
@[simp] theorem takeReports_pru (rs : List Report) : (takeReports rs s).pru = s.pru := rfl
@[simp] theorem takeReports_sender (rs : List Report) : (takeReports rs s).sender = s.sender := rfl
@[simp] theorem takeReports_port (rs : List Report) : (takeReports rs s).port = s.port := rfl
@[simp] theorem takeReports_out (rs : List Report) : (takeReports rs s).out = s.out := rfl
@[simp] theorem takeReports_freeCount (rs : List Report) : (takeReports rs s).freeCount = s.freeCount := rfl
@[simp] theorem takeReports_scu_buffers (rs : List Report) :
    (takeReports rs s).scu.buffers = (markDirty { s.scu with buffers := s.scu.buffers.map (refreshBuffer s rs) }).buffers := rfl
@[simp] theorem takeReports_scu_screens (rs : List Report) :
    (takeReports rs s).scu.screens = (markDirty { s.scu with buffers := s.scu.buffers.map (refreshBuffer s rs) }).screens := rfl
@[simp] theorem takeReports_scu_idleTimeout (rs : List Report) :
    (takeReports rs s).scu.idleTimeout = s.scu.idleTimeout := rfl
@[simp] theorem takeReports_scu_lockText (rs : List Report) :
    (takeReports rs s).scu.lockText = s.scu.lockText := rfl

/-! ### putBuffer -/

@[simp] theorem putBuffer_pending (b : BufferNo) (x : RowBuffer) :
    (putBuffer b x s).pending = s.pending := rfl
@[simp] theorem putBuffer_power (b : BufferNo) (x : RowBuffer) : (putBuffer b x s).power = s.power := rfl
@[simp] theorem putBuffer_clock (b : BufferNo) (x : RowBuffer) : (putBuffer b x s).clock = s.clock := rfl
@[simp] theorem putBuffer_store (b : BufferNo) (x : RowBuffer) : (putBuffer b x s).store = s.store := rfl
@[simp] theorem putBuffer_kept (b : BufferNo) (x : RowBuffer) : (putBuffer b x s).kept = s.kept := rfl
@[simp] theorem putBuffer_jsu (b : BufferNo) (x : RowBuffer) : (putBuffer b x s).jsu = s.jsu := rfl
@[simp] theorem putBuffer_delivery (b : BufferNo) (x : RowBuffer) :
    (putBuffer b x s).delivery = s.delivery := rfl
@[simp] theorem putBuffer_counted (b : BufferNo) (x : RowBuffer) :
    (putBuffer b x s).counted = s.counted := rfl
@[simp] theorem putBuffer_exu (b : BufferNo) (x : RowBuffer) : (putBuffer b x s).exu = s.exu := rfl
@[simp] theorem putBuffer_pru (b : BufferNo) (x : RowBuffer) : (putBuffer b x s).pru = s.pru := rfl
@[simp] theorem putBuffer_sender (b : BufferNo) (x : RowBuffer) : (putBuffer b x s).sender = s.sender := rfl
@[simp] theorem putBuffer_port (b : BufferNo) (x : RowBuffer) : (putBuffer b x s).port = s.port := rfl
@[simp] theorem putBuffer_out (b : BufferNo) (x : RowBuffer) : (putBuffer b x s).out = s.out := rfl
@[simp] theorem putBuffer_freeCount (b : BufferNo) (x : RowBuffer) :
    (putBuffer b x s).freeCount = s.freeCount := rfl
@[simp] theorem putBuffer_scu_buffers (b : BufferNo) (x : RowBuffer) :
    (putBuffer b x s).scu.buffers = (markDirty { s.scu with buffers := s.scu.buffers.set b x }).buffers := rfl
@[simp] theorem putBuffer_scu_screens (b : BufferNo) (x : RowBuffer) :
    (putBuffer b x s).scu.screens = (markDirty { s.scu with buffers := s.scu.buffers.set b x }).screens := rfl
@[simp] theorem putBuffer_scu_idleTimeout (b : BufferNo) (x : RowBuffer) :
    (putBuffer b x s).scu.idleTimeout = s.scu.idleTimeout := rfl
@[simp] theorem putBuffer_scu_lockText (b : BufferNo) (x : RowBuffer) :
    (putBuffer b x s).scu.lockText = s.scu.lockText := rfl

/-! ### respond -/

@[simp] theorem respond_pending (h : ReqHead) (k : Nat) (c : Code) (b : Bool) (l : List (Option (List Item))) :
    (respond h k c b l s).pending = s.pending := rfl
@[simp] theorem respond_power (h : ReqHead) (k : Nat) (c : Code) (b : Bool) (l : List (Option (List Item))) :
    (respond h k c b l s).power = s.power := rfl
@[simp] theorem respond_clock (h : ReqHead) (k : Nat) (c : Code) (b : Bool) (l : List (Option (List Item))) :
    (respond h k c b l s).clock = s.clock := rfl
@[simp] theorem respond_store (h : ReqHead) (k : Nat) (c : Code) (b : Bool) (l : List (Option (List Item))) :
    (respond h k c b l s).store = s.store := rfl
@[simp] theorem respond_kept (h : ReqHead) (k : Nat) (c : Code) (b : Bool) (l : List (Option (List Item))) :
    (respond h k c b l s).kept = s.kept := rfl
@[simp] theorem respond_jsu (h : ReqHead) (k : Nat) (c : Code) (b : Bool) (l : List (Option (List Item))) :
    (respond h k c b l s).jsu = s.jsu := rfl
@[simp] theorem respond_delivery (h : ReqHead) (k : Nat) (c : Code) (b : Bool) (l : List (Option (List Item))) :
    (respond h k c b l s).delivery = s.delivery := rfl
@[simp] theorem respond_counted (h : ReqHead) (k : Nat) (c : Code) (b : Bool) (l : List (Option (List Item))) :
    (respond h k c b l s).counted = s.counted := rfl
@[simp] theorem respond_exu (h : ReqHead) (k : Nat) (c : Code) (b : Bool) (l : List (Option (List Item))) :
    (respond h k c b l s).exu = s.exu := rfl
@[simp] theorem respond_pru (h : ReqHead) (k : Nat) (c : Code) (b : Bool) (l : List (Option (List Item))) :
    (respond h k c b l s).pru = s.pru := rfl
@[simp] theorem respond_scu (h : ReqHead) (k : Nat) (c : Code) (b : Bool) (l : List (Option (List Item))) :
    (respond h k c b l s).scu = s.scu := rfl
@[simp] theorem respond_sender (h : ReqHead) (k : Nat) (c : Code) (b : Bool) (l : List (Option (List Item))) :
    (respond h k c b l s).sender = s.sender := rfl
@[simp] theorem respond_out (h : ReqHead) (k : Nat) (c : Code) (b : Bool) (l : List (Option (List Item))) :
    (respond h k c b l s).out = s.out := rfl
@[simp] theorem respond_freeCount (h : ReqHead) (k : Nat) (c : Code) (b : Bool) (l : List (Option (List Item))) :
    (respond h k c b l s).freeCount = s.freeCount := rfl
@[simp] theorem respond_port_lastServed (h : ReqHead) (k : Nat) (c : Code) (b : Bool) (l : List (Option (List Item))) :
    (respond h k c b l s).port.lastServed = s.port.lastServed := rfl
@[simp] theorem respond_port_burstUsed (h : ReqHead) (k : Nat) (c : Code) (b : Bool) (l : List (Option (List Item))) :
    (respond h k c b l s).port.burstUsed = s.port.burstUsed := rfl
@[simp] theorem respond_port_inExecution (h : ReqHead) (k : Nat) (c : Code) (b : Bool) (l : List (Option (List Item))) :
    (respond h k c b l s).port.inExecution = s.port.inExecution.set h.master none := rfl
@[simp] theorem respond_port_order (h : ReqHead) (k : Nat) (c : Code) (b : Bool) (l : List (Option (List Item))) :
    (respond h k c b l s).port.order = s.port.order.erase (.request h.master) := rfl
@[simp] theorem respond_port_fault (h : ReqHead) (k : Nat) (c : Code) (b : Bool) (l : List (Option (List Item))) :
    (respond h k c b l s).port.fault = s.port.fault := rfl

/-! ### clearBindings -/

@[simp] theorem clearBindings_pending : (clearBindings s).pending = s.pending := rfl
@[simp] theorem clearBindings_power : (clearBindings s).power = s.power := rfl
@[simp] theorem clearBindings_clock : (clearBindings s).clock = s.clock := rfl
@[simp] theorem clearBindings_kept : (clearBindings s).kept = s.kept := rfl
@[simp] theorem clearBindings_jsu : (clearBindings s).jsu = s.jsu := rfl
@[simp] theorem clearBindings_delivery : (clearBindings s).delivery = s.delivery := rfl
@[simp] theorem clearBindings_counted : (clearBindings s).counted = s.counted := rfl
@[simp] theorem clearBindings_exu : (clearBindings s).exu = s.exu := rfl
@[simp] theorem clearBindings_pru : (clearBindings s).pru = s.pru := rfl
@[simp] theorem clearBindings_scu : (clearBindings s).scu = s.scu := rfl
@[simp] theorem clearBindings_sender : (clearBindings s).sender = s.sender := rfl
@[simp] theorem clearBindings_port : (clearBindings s).port = s.port := rfl
@[simp] theorem clearBindings_out : (clearBindings s).out = s.out := rfl
@[simp] theorem clearBindings_freeCount : (clearBindings s).freeCount = s.freeCount := rfl
@[simp] theorem clearBindings_store_header : (clearBindings s).store.header = s.store.header := rfl
@[simp] theorem clearBindings_store_day : (clearBindings s).store.day = s.store.day := rfl
@[simp] theorem clearBindings_store_lineSettings :
    (clearBindings s).store.lineSettings = s.store.lineSettings := rfl
@[simp] theorem clearBindings_store_currencies :
    (clearBindings s).store.currencies = s.store.currencies := rfl
@[simp] theorem clearBindings_store_drawers :
    (clearBindings s).store.drawers = s.store.drawers.map fun d => { d with bound := none, lastApplied := 0 } := rfl
@[simp] theorem clearBindings_store_positions :
    (clearBindings s).store.positions = s.store.positions.map fun e => { e with drawer := none, teller := none } := rfl
@[simp] theorem clearBindings_store_burst : (clearBindings s).store.burst = s.store.burst := rfl
@[simp] theorem clearBindings_store_transfers : (clearBindings s).store.transfers = s.store.transfers := rfl
@[simp] theorem clearBindings_store_nextTransfer :
    (clearBindings s).store.nextTransfer = s.store.nextTransfer := rfl
@[simp] theorem clearBindings_store_board : (clearBindings s).store.board = s.store.board := rfl
@[simp] theorem clearBindings_store_classes : (clearBindings s).store.classes = s.store.classes := rfl
@[simp] theorem clearBindings_store_accounts : (clearBindings s).store.accounts = s.store.accounts := rfl
@[simp] theorem clearBindings_store_lastTaken : (clearBindings s).store.lastTaken = s.store.lastTaken := rfl
@[simp] theorem clearBindings_store_lastAnswer :
    (clearBindings s).store.lastAnswer = s.store.lastAnswer := rfl
@[simp] theorem clearBindings_store_carryCount :
    (clearBindings s).store.carryCount = s.store.carryCount := rfl
@[simp] theorem clearBindings_store_pacing : (clearBindings s).store.pacing = s.store.pacing := rfl
@[simp] theorem clearBindings_store_journal : (clearBindings s).store.journal = s.store.journal := rfl

/-! ### report -/

/-- Reports that wait change the operations asked and nothing else. -/
theorem askReports_eq (rs : List Report) : ∃ l, askReports rs s = setOrder l s := by
  unfold askReports
  split
  · exact ⟨s.port.order, rfl⟩
  · split <;> exact ⟨_, rfl⟩

/-- Everything a report can do: it is taken, or it changes the operations asked. -/
theorem report_cases (rs : List Report) : report rs s = takeReports rs s ∨ ∃ l, report rs s = setOrder l s := by
  unfold report
  split
  · exact .inr (askReports_eq s rs)
  · exact .inl rfl

/-- A report leaves every part but the screens and the operations asked as it stands. -/
theorem report_eq (rs : List Report) : report rs s =
    { s with scu := (report rs s).scu, port := { s.port with order := (report rs s).port.order } } := by
  rcases report_cases s rs with h | ⟨l, h⟩ <;> rw [h] <;> rfl

@[simp] theorem report_pending (rs : List Report) : (report rs s).pending = s.pending := by rw [report_eq]
@[simp] theorem report_power (rs : List Report) : (report rs s).power = s.power := by rw [report_eq]
@[simp] theorem report_clock (rs : List Report) : (report rs s).clock = s.clock := by rw [report_eq]
@[simp] theorem report_store (rs : List Report) : (report rs s).store = s.store := by rw [report_eq]
@[simp] theorem report_kept (rs : List Report) : (report rs s).kept = s.kept := by rw [report_eq]
@[simp] theorem report_jsu (rs : List Report) : (report rs s).jsu = s.jsu := by rw [report_eq]
@[simp] theorem report_delivery (rs : List Report) : (report rs s).delivery = s.delivery := by rw [report_eq]
@[simp] theorem report_counted (rs : List Report) : (report rs s).counted = s.counted := by rw [report_eq]
@[simp] theorem report_exu (rs : List Report) : (report rs s).exu = s.exu := by rw [report_eq]
@[simp] theorem report_pru (rs : List Report) : (report rs s).pru = s.pru := by rw [report_eq]
@[simp] theorem report_sender (rs : List Report) : (report rs s).sender = s.sender := by rw [report_eq]
@[simp] theorem report_out (rs : List Report) : (report rs s).out = s.out := by rw [report_eq]
@[simp] theorem report_freeCount (rs : List Report) : (report rs s).freeCount = s.freeCount := by rw [report_eq]
@[simp] theorem report_port_windows (rs : List Report) : (report rs s).port.windows = s.port.windows := by rw [report_eq]
@[simp] theorem report_port_lastServed (rs : List Report) : (report rs s).port.lastServed = s.port.lastServed := by rw [report_eq]
@[simp] theorem report_port_burstUsed (rs : List Report) : (report rs s).port.burstUsed = s.port.burstUsed := by rw [report_eq]
@[simp] theorem report_port_inExecution (rs : List Report) : (report rs s).port.inExecution = s.port.inExecution := by rw [report_eq]
@[simp] theorem report_port_fault (rs : List Report) : (report rs s).port.fault = s.port.fault := by rw [report_eq]
@[simp] theorem report_scu_idleTimeout (rs : List Report) : (report rs s).scu.idleTimeout = s.scu.idleTimeout := by
  rcases report_cases s rs with h | ⟨l, h⟩ <;> rw [h] <;> rfl
@[simp] theorem report_scu_lockText (rs : List Report) : (report rs s).scu.lockText = s.scu.lockText := by
  rcases report_cases s rs with h | ⟨l, h⟩ <;> rw [h] <;> rfl

end Sys2Proof.Machine
end

