-- ==== Sys2Proof/Laws/Rendering.lean ====
section
/-! SUPPORT. What a source report can alter: cells under live fields, and dirty flags that become set
(R144, R145, R148). -/

namespace Sys2Proof.Machine

/-! ### Texts fill exactly their width (R145) -/

theorem length_fitted (width : Nat) (v : Shown) : (fitted width v).length = width := by
  cases v with
  | blank => simp [fitted]
  | number d i => simp only [fitted]; split <;> simp_all
  | text t => simp only [fitted]; split <;> simp_all

theorem get_putText (column : Nat) (text : List Nat) (cells : RowCells) (i : Fin 80) :
    (putText column text cells).get i =
      if column ≤ i.val then ((text[i.val - column]?).map plainCell).getD (cells.get i)
      else cells.get i := by
  simp [putText, putCells]

theorem putText_outside {column : Nat} {text : List Nat} (cells : RowCells) {i : Fin 80}
    (h : i.val < column ∨ column + text.length ≤ i.val) :
    (putText column text cells).get i = cells.get i := by
  rw [get_putText]
  split
  · rw [List.getElem?_eq_none (by omega)]; rfl
  · rfl

/-- A live field renders into its own cells alone. -/
theorem renderField_outside (s : State) (o : Owner) (f : LiveField) (cells : RowCells) {i : Fin 80}
    (h : covers f i.val = false) : (renderField s o f cells).get i = cells.get i := by
  apply putText_outside
  simp only [covers, Bool.and_eq_false_iff, decide_eq_false_iff_not, length_fitted] at *
  omega

/-! ### Buffers and screens -/

theorem refreshBuffer_rendered (s : State) (rs : List Report) (b : RowBuffer) :
    RenderedBuffer b (refreshBuffer s rs b) := by
  refine ⟨rfl, rfl, rfl, fun i hi => ?_⟩
  have key : ∀ (l : List (Option LiveField)) (cells : RowCells),
      (l.any fun f => f.elim false fun f => covers f i.val) = false →
      (l.foldl (fun cells f =>
        match f with
        | some f => if rs.any (fun r => reportHits s r f.source) then renderField s b.owner f cells
            else cells
        | none => cells) cells).get i = cells.get i := by
    intro l
    induction l with
    | nil => intro cells _; rfl
    | cons f l ih =>
      intro cells h
      simp only [List.any_cons, Bool.or_eq_false_iff] at h
      rw [List.foldl_cons, ih _ h.2]
      cases f with
      | none => rfl
      | some f =>
        dsimp only
        split
        · exact renderField_outside s b.owner f cells h.1
        · rfl
  exact key b.fields.list b.cells hi

/-- A rendering that alters a cell sets the changed flag, which stays set otherwise (R144). -/
theorem refreshBuffer_changed (s : State) (rs : List Report) (b : RowBuffer) :
    (refreshBuffer s rs b).changed = true ↔ b.changed = true ∨ (refreshBuffer s rs b).cells ≠ b.cells := by
  simp [refreshBuffer]

/-- A screen is LIVE or DARK exactly when its line is not silent and no lock is held (R146). -/
theorem liveOrDark_iff (sc : Screen) :
    (screenState sc = .live ∨ screenState sc = .dark) ↔ sc.silent = false ∧ sc.lockHeld = false := by
  unfold screenState
  cases sc.silent <;> cases sc.lockHeld <;> cases sc.map.list.any Option.isSome <;> decide

theorem markRows_rendered (t : Table RowBuffer 192) (sc : Screen) : RenderedScreen sc (markRows t sc) := by
  unfold markRows
  split
  · exact ⟨rfl, fun r h => by simp [h]⟩
  · exact ⟨rfl, fun _ h => h⟩

/-- The rows that marking leaves dirty: those that were, and those of a LIVE or DARK screen that name a changed buffer
(R148). -/
theorem markRows_dirty (t : Table RowBuffer 192) (sc : Screen) (n : Row) :
    (markRows t sc).dirty.get n = true ↔ sc.dirty.get n = true ∨
      sc.silent = false ∧ sc.lockHeld = false ∧ ∃ b, sc.map.get n = some b ∧ (t.get b).changed = true := by
  unfold markRows
  split
  · rename_i h
    have := (liveOrDark_iff sc).1 h
    simp only [Table.get_ofFn, Bool.or_eq_true, this, true_and]
    cases sc.map.get n <;> simp
  · rename_i h
    have := mt (liveOrDark_iff sc).2 h
    exact ⟨.inl, fun k => k.elim id fun k => absurd ⟨k.1, k.2.1⟩ this⟩

/-- What source reports do to a screen where they are taken. -/
theorem takeReports_screens (rs : List Report) (s : State) (p : Position) :
    (takeReports rs s).scu.screens.get p =
      markRows (s.scu.buffers.map (refreshBuffer s rs)) (s.scu.screens.get p) := by simp [takeReports, markDirty]

/-- What source reports do to a buffer where they are taken. -/
theorem takeReports_buffers (rs : List Report) (s : State) (b : BufferNo) :
    (takeReports rs s).scu.buffers.get b = { refreshBuffer s rs (s.scu.buffers.get b) with changed := false } := by
  simp [takeReports, markDirty]

theorem RowsMarked.refl (u : Scu) : RowsMarked u u := fun _ _ _ _ _ _ h => absurd rfl h

theorem Rendered.refl (u : Scu) : Rendered u u :=
  ⟨fun _ => ⟨rfl, rfl, rfl, fun _ _ => rfl⟩, fun _ => ⟨rfl, fun _ h => h⟩, .refl u, rfl, rfl⟩

theorem RenderedBuffer.trans {x y z : RowBuffer} (h : RenderedBuffer x y) (k : RenderedBuffer y z) :
    RenderedBuffer x z := by
  obtain ⟨h1, h2, h3, h4⟩ := h
  obtain ⟨k1, k2, k3, k4⟩ := k
  refine ⟨k1.trans h1, k2.trans h2, k3.trans h3, fun i hi => ?_⟩
  rw [k4 i (by simpa [inField, h3] using hi), h4 i hi]

/-- What a rendered screen keeps. -/
theorem RenderedScreen.kept {x y : Screen} (h : RenderedScreen x y) :
    y.silent = x.silent ∧ y.lockHeld = x.lockHeld ∧ y.map = x.map := by rw [← h.1]; exact ⟨rfl, rfl, rfl⟩

theorem RenderedScreen.trans {x y z : Screen} (h : RenderedScreen x y) (k : RenderedScreen y z) :
    RenderedScreen x z := by
  obtain ⟨h1, h2⟩ := h
  obtain ⟨k1, k2⟩ := k
  refine ⟨?_, fun r hr => k2 r (h2 r hr)⟩
  rw [← h1, ← k1]

theorem Rendered.trans {u v w : Scu} (h : Rendered u v) (k : Rendered v w) : Rendered u w where
  buffers b := (h.buffers b).trans (k.buffers b)
  screens p := (h.screens p).trans (k.screens p)
  marked p n b hs hl hm hc := by
    obtain ⟨es, el, em⟩ := (h.screens p).kept
    by_cases hv : (v.buffers.get b).cells = (u.buffers.get b).cells
    · exact k.marked p n b (es ▸ hs) (el ▸ hl) (em ▸ hm) (hv ▸ hc)
    · exact (k.screens p).2 n (h.marked p n b hs hl hm hv)
  idleTimeout := k.idleTimeout.trans h.idleTimeout
  lockText := k.lockText.trans h.lockText

/-- Marking keeps every buffer's record and sets dirty flags alone. -/
theorem markDirty_rendered (u : Scu) : Rendered u (markDirty u) where
  buffers b := by simp only [markDirty, Table.get_map]; exact ⟨rfl, rfl, rfl, fun _ _ => rfl⟩
  screens p := by simp only [markDirty, Table.get_map]; exact markRows_rendered _ _
  marked p n b _ _ _ hc := by simp [markDirty] at hc
  idleTimeout := rfl
  lockText := rfl

/-- Source reports render live fields and mark the rows that show them. -/
theorem takeReports_rendered (rs : List Report) (s : State) : Rendered s.scu (takeReports rs s).scu where
  buffers b := by rw [takeReports_buffers]; exact refreshBuffer_rendered s rs (s.scu.buffers.get b)
  screens p := by rw [takeReports_screens]; exact markRows_rendered _ _
  marked p n b hs hl hm hc := by
    rw [takeReports_buffers] at hc
    rw [takeReports_screens, markRows_dirty]
    refine .inr ⟨hs, hl, b, hm, ?_⟩
    rw [Table.get_map, refreshBuffer_changed]
    exact .inr hc
  idleTimeout := rfl
  lockText := rfl

/-- A report renders, or waits and leaves the screens as they stand. -/
theorem report_rendered (rs : List Report) (s : State) : Rendered s.scu (report rs s).scu := by
  rcases report_cases s rs with h | ⟨l, h⟩ <;> rw [h]
  · exact takeReports_rendered rs s
  · exact .refl _

end Sys2Proof.Machine
end

