-- ==== Sys2Proof/Laws/Frames.lean ====
section
/-! SUPPORT. What each shared operation can touch: one frame per operation.  The frame of a sequence of
operations follows by `trans`, `mono` and `comp`. -/

namespace Sys2Proof.Machine

/-! ### The calculus of frames -/

theorem TurnsStand.refl (s : State) : TurnsStand s s := ⟨rfl, rfl, fun _ => rfl⟩

/-- Where something stands depends on the requests in execution alone. -/
theorem standsAt_congr {s t : State} (h : t.port.inExecution = s.port.inExecution) (x : Asked) :
    standsAt t x = standsAt s x := by
  cases x <;> simp [standsAt, h]

theorem TurnsStand.trans {s t u : State} (h : TurnsStand s t) (k : TurnsStand t u) : TurnsStand s u := by
  refine ⟨k.1.trans h.1, k.2.1.trans h.2.1, fun free => ?_⟩
  have e := h.2.2 free
  exact (k.2.2 fun x hx => by rw [standsAt_congr h.1]; exact free x (e ▸ hx)).trans e

theorem Part.same_refl (p : Part) (s : State) : p.same s s := by
  cases p <;> simp [Part.same, TurnsStand.refl]

theorem Part.same_trans {p : Part} {s t u : State} (h : p.same s t) (k : p.same t u) : p.same s u := by
  cases p
  case turns => exact TurnsStand.trans h k
  all_goals simp_all [Part.same]

theorem UnchangedBut.refl (l : List Part) (s : State) : UnchangedBut l s s := fun p _ => p.same_refl s

theorem UnchangedBut.trans {l : List Part} {s t u : State} (h : UnchangedBut l s t)
    (k : UnchangedBut l t u) : UnchangedBut l s u := fun p hp => Part.same_trans (h p hp) (k p hp)

theorem UnchangedBut.mono {l m : List Part} {s t : State} (h : UnchangedBut l s t)
    (hl : ∀ p ∈ l, p ∈ m) : UnchangedBut m s t := fun p hp => h p fun hm => hp (hl p hm)

theorem UnchangedBut.get {l : List Part} {s t : State} (h : UnchangedBut l s t) (p : Part)
    (hp : p ∉ l) : p.same s t := h p hp

/-- Two operations in a row: the frame of both, in any list that holds what each may touch. -/
theorem UnchangedBut.comp {l m n : List Part} {s t u : State} (h : UnchangedBut l s t)
    (k : UnchangedBut m t u) (hl : ∀ p ∈ l, p ∈ n) (hm : ∀ p ∈ m, p ∈ n) : UnchangedBut n s u :=
  (h.mono hl).trans (k.mono hm)

theorem UnchangedBut.ite {l : List Part} {s t u : State} (c : Prop) [Decidable c]
    (h : UnchangedBut l s t) (k : UnchangedBut l s u) : UnchangedBut l s (if c then t else u) := by
  split <;> assumption

theorem UnchangedBut.foldl {α : Type} {l : List Part} {f : State → α → State}
    (hf : ∀ s a, UnchangedBut l s (f s a)) (xs : List α) (s : State) :
    UnchangedBut l s (xs.foldl f s) := by
  induction xs generalizing s with
  | nil => exact .refl l s
  | cons x xs ih => exact (hf s x).trans (ih _)

/-! ### Wholes whose finer parts stand -/

theorem UnchangedBut.ofWaiting {s : State} {w : Table Window 5} (h : NoticesOnly s.port.windows w) :
    UnchangedBut [.windows] s { s with port := { s.port with windows := w } } := by
  have key : ∀ m, ∃ x, w.get m = { s.port.windows.get m with waiting := x } := fun m =>
    ⟨(w.get m).waiting, by rw [← h m]⟩
  intro p hp
  cases p <;> first
    | exact absurd (by decide) hp
    | exact rfl | exact fun _ => rfl | exact ⟨rfl, rfl⟩ | exact ⟨rfl, rfl, fun _ => rfl⟩ | exact fun _ => ⟨rfl, rfl⟩
    | exact fun _ => ⟨rfl, rfl, rfl, rfl, rfl⟩
    | (intro m; obtain ⟨x, hx⟩ := key m; simp [hx])

theorem UnchangedBut.ofRendered {s : State} {u : Scu} (h : Rendered s.scu u) :
    UnchangedBut [.buffers, .screens] s { s with scu := u } := by
  have key : ∀ p, ∃ d, u.screens.get p = { s.scu.screens.get p with dirty := d } := fun p =>
    ⟨(u.screens.get p).dirty, by rw [← (h.screens p).1]⟩
  intro p hp
  cases p <;> first
    | exact absurd (by decide) hp
    | exact rfl | exact fun _ => rfl | exact ⟨rfl, rfl⟩ | exact ⟨rfl, rfl, fun _ => rfl⟩ | exact fun _ => ⟨rfl, rfl⟩
    | exact fun _ => ⟨rfl, rfl, rfl, rfl, rfl⟩
    | exact fun b => ⟨(h.buffers b).1, (h.buffers b).2.1⟩
    | exact fun b => (h.buffers b).2.2.1
    | exact h.idleTimeout
    | exact h.lockText
    | (intro q; obtain ⟨x, hx⟩ := key q; simp [hx])

theorem UnchangedBut.ofDrawers {s : State} {x : Table Drawer 13}
    (h : ∀ d, (x.get d).bound = (s.store.drawers.get d).bound) :
    UnchangedBut [.drawers] s { s with store := { s.store with drawers := x } } := by
  intro p hp
  cases p <;> first
    | exact absurd (by decide) hp
    | exact rfl | exact fun _ => rfl | exact ⟨rfl, rfl⟩ | exact ⟨rfl, rfl, fun _ => rfl⟩ | exact fun _ => ⟨rfl, rfl⟩
    | exact fun _ => ⟨rfl, rfl, rfl, rfl, rfl⟩
    | exact h

theorem UnchangedBut.ofScreens {s : State} (p : Position) (f : Screen → Screen) {l : List Part}
    (hs : Part.screens ∈ l)
    (hl : Part.lines ∈ l ∨ ∀ x, (f x).silent = x.silent ∧ (f x).sendNo = x.sendNo ∧
      (f x).inFlight = x.inFlight ∧ (f x).tries = x.tries ∧ (f x).probe = x.probe)
    (hk : Part.locks ∈ l ∨ ∀ x, (f x).lockHeld = x.lockHeld)
    (hi : Part.idles ∈ l ∨ ∀ x, (f x).idle = x.idle)
    (hm : Part.maps ∈ l ∨ ∀ x, (f x).map = x.map) : UnchangedBut l s (modifyScreen p f s) := by
  intro q hq
  cases q
  case screens => exact absurd hs hq
  case lines =>
    rcases hl with h | h
    · exact absurd h hq
    · intro r; simp only [modifyScreen_scu_screens, Table.get_modify]; split
      · subst_vars; exact h _
      · exact ⟨rfl, rfl, rfl, rfl, rfl⟩
  case locks =>
    rcases hk with h | h
    · exact absurd h hq
    · intro r; simp only [modifyScreen_scu_screens, Table.get_modify]; split <;> simp_all
  case idles =>
    rcases hi with h | h
    · exact absurd h hq
    · intro r; simp only [modifyScreen_scu_screens, Table.get_modify]; split <;> simp_all
  case maps =>
    rcases hm with h | h
    · exact absurd h hq
    · intro r; simp only [modifyScreen_scu_screens, Table.get_modify]; split <;> simp_all
  all_goals first
    | exact rfl | exact fun _ => rfl | exact ⟨rfl, rfl⟩ | exact ⟨rfl, rfl, fun _ => rfl⟩ | exact fun _ => ⟨rfl, rfl⟩

theorem modifyDrawer_frame (n : DrawerNo) (f : Drawer → Drawer) (h : ∀ x, (f x).bound = x.bound)
    (s : State) : UnchangedBut [.drawers] s (modifyDrawer n f s) := by
  refine .ofDrawers fun d => ?_
  rw [Table.get_modify]
  split <;> simp_all

theorem NoticesOnly.modify {w : Table Window 5} (m : Master) (f : Window → Window)
    (h : ∀ x, { f x with waiting := x.waiting } = x) : NoticesOnly w (w.modify m f) := by
  intro k
  rw [Table.get_modify]
  split
  · subst_vars; exact h _
  · rfl

theorem raiseTo_frame (m : Master) (d : Detail) (s : State) : UnchangedBut [.windows] s (raiseTo m d s) :=
  .ite _ (.ofWaiting (.modify m _ fun _ => rfl)) (.refl _ s)

theorem raiseOfficer_frame (d : Detail) (s : State) : UnchangedBut [.windows] s (raiseOfficer d s) :=
  raiseTo_frame _ d s

theorem raiseAt_frame (p : Position) (d : Detail) (s : State) : UnchangedBut [.windows] s (raiseAt p d s) :=
  raiseTo_frame _ d s

theorem takeReports_frame (rs : List Report) (s : State) : UnchangedBut [.buffers, .screens] s (takeReports rs s) :=
  .ofRendered (takeReports_rendered rs s)

/-- Every operation asked lets an operation at these units take its turn. -/
theorem waitsAt_eq_false {units : List UnitName} {s : State} :
    waitsAt units s.port.order s = false ↔ TakenAt s units := by
  unfold waitsAt TakenAt UnitFree NoneStandsAt
  simp only [Bool.and_eq_false_iff, Bool.or_eq_false_iff, List.any_eq_false, List.contains_eq_mem,
    decide_eq_false_iff_not, Option.isSome_eq_false_iff, Option.isNone_iff_eq_none, beq_eq_false_iff_ne]
  constructor
  · rintro h up u hu
    obtain ⟨h1, h2⟩ := h.resolve_left (fun k => k up)
    refine ⟨fun x hx e => h2 x hx (by simp [e, hu]), fun e => ?_⟩
    subst e
    exact h1.resolve_right (fun k => k hu)
  · intro h
    by_cases up : s.power = .up
    · refine .inr ⟨?_, fun x hx => ?_⟩
      · by_cases ht : UnitName.tru ∈ units
        · exact .inl ((h up _ ht).2 rfl)
        · exact .inr ht
      · cases e : standsAt s x with
        | none => simp
        | some u =>
          simp only [Option.any_some, List.contains_eq_mem, decide_eq_true_eq]
          exact fun hu => (h up u hu).1 x hx e
    · exact .inl up

/-- With nothing standing at the Screen Unit a report is taken at once. -/
theorem report_taken (rs : List Report) {s : State} (h : NoneStandsAt s .scu) : report rs s = takeReports rs s := by
  have : waitsAt [.scu] s.port.order s = false := waitsAt_eq_false.mpr fun _ u hu => by
    obtain rfl := List.mem_singleton.mp hu
    exact ⟨h, fun e => nomatch e⟩
  simp [report, this]

/-- Reports that wait join the operations asked as the one report at their end. -/
theorem askReports_asked (rs : List Report) (s : State) : askedBesideReports (askReports rs s) = askedBesideReports s := by
  unfold askReports askedBesideReports
  split
  · rfl
  · split
    · rename_i l e
      have : s.port.order = s.port.order.dropLast ++ [.report l] := by
        have ne : s.port.order ≠ [] := by rintro h; simp [h] at e
        rw [List.getLast?_eq_some_getLast ne] at e
        rw [← Option.some.inj e, List.dropLast_append_getLast]
      conv => rhs; rw [this]
      simp [setOrder]
    · simp [ask, setOrder]

theorem report_turns (rs : List Report) (s : State) : TurnsStand s (report rs s) := by
  refine ⟨report_port_inExecution s rs, ?_, fun h => by rw [report_taken rs h]; rfl⟩
  unfold report
  split
  · exact askReports_asked rs s
  · rfl

theorem report_frame (rs : List Report) (s : State) : UnchangedBut [.buffers, .screens, .inExecution] s (report rs s) := by
  intro p hp
  cases p
  case turns => exact report_turns rs s
  case inExecution => exact absurd (by decide) hp
  case buffers => exact absurd (by decide) hp
  case screens => exact absurd (by decide) hp
  all_goals
    rcases report_cases s rs with h | ⟨l, h⟩ <;> rw [h]
    · exact takeReports_frame rs s _ (by decide)
    · first
        | exact rfl | exact fun _ => rfl | exact ⟨rfl, rfl⟩ | exact fun _ => ⟨rfl, rfl⟩
        | exact fun _ => ⟨rfl, rfl, rfl, rfl, rfl⟩

/-! ### Plain updates -/

theorem addHolds_frame (n : Nat) (s : State) : UnchangedBut [.jsu] s (addHolds n s) := fun p hp => by
  cases p <;> first
    | exact absurd (by decide) hp
    | exact rfl | exact fun _ => rfl | exact ⟨rfl, rfl⟩ | exact ⟨rfl, rfl, fun _ => rfl⟩ | exact fun _ => ⟨rfl, rfl⟩
    | exact fun _ => ⟨rfl, rfl, rfl, rfl, rfl⟩

theorem dropHold_frame (s : State) : UnchangedBut [.jsu] s (dropHold s) := fun p hp => by
  cases p <;> first
    | exact absurd (by decide) hp
    | exact rfl | exact fun _ => rfl | exact ⟨rfl, rfl⟩ | exact ⟨rfl, rfl, fun _ => rfl⟩ | exact fun _ => ⟨rfl, rfl⟩
    | exact fun _ => ⟨rfl, rfl, rfl, rfl, rfl⟩

theorem setCause_frame (c : RestartCause) (s : State) : UnchangedBut [.jsu] s (setCause c s) := fun p hp => by
  cases p <;> first
    | exact absurd (by decide) hp
    | exact rfl | exact fun _ => rfl | exact ⟨rfl, rfl⟩ | exact ⟨rfl, rfl, fun _ => rfl⟩ | exact fun _ => ⟨rfl, rfl⟩
    | exact fun _ => ⟨rfl, rfl, rfl, rfl, rfl⟩

theorem modifyDay_frame (f : DayRecord → DayRecord) (s : State) : UnchangedBut [.day] s (modifyDay f s) := fun p hp => by
  cases p <;> first
    | exact absurd (by decide) hp
    | exact rfl | exact fun _ => rfl | exact ⟨rfl, rfl⟩ | exact ⟨rfl, rfl, fun _ => rfl⟩ | exact fun _ => ⟨rfl, rfl⟩
    | exact fun _ => ⟨rfl, rfl, rfl, rfl, rfl⟩

theorem setDayState_frame (x : DayState) (s : State) : UnchangedBut [.day] s (setDayState x s) := fun p hp => by
  cases p <;> first
    | exact absurd (by decide) hp
    | exact rfl | exact fun _ => rfl | exact ⟨rfl, rfl⟩ | exact ⟨rfl, rfl, fun _ => rfl⟩ | exact fun _ => ⟨rfl, rfl⟩
    | exact fun _ => ⟨rfl, rfl, rfl, rfl, rfl⟩

theorem setAckThrough_frame (k : Nat) (s : State) : UnchangedBut [.day] s (setAckThrough k s) := fun p hp => by
  cases p <;> first
    | exact absurd (by decide) hp
    | exact rfl | exact fun _ => rfl | exact ⟨rfl, rfl⟩ | exact ⟨rfl, rfl, fun _ => rfl⟩ | exact fun _ => ⟨rfl, rfl⟩
    | exact fun _ => ⟨rfl, rfl, rfl, rfl, rfl⟩

theorem modifyPosition_frame (p : Position) (f : PositionEntry → PositionEntry) (s : State) : UnchangedBut [.positions] s (modifyPosition p f s) := fun p hp => by
  cases p <;> first
    | exact absurd (by decide) hp
    | exact rfl | exact fun _ => rfl | exact ⟨rfl, rfl⟩ | exact ⟨rfl, rfl, fun _ => rfl⟩ | exact fun _ => ⟨rfl, rfl⟩
    | exact fun _ => ⟨rfl, rfl, rfl, rfl, rfl⟩

theorem modifyTransfer_frame (i : Fin 8) (x : Transfer) (s : State) : UnchangedBut [.transfers] s (modifyTransfer i x s) := fun p hp => by
  cases p <;> first
    | exact absurd (by decide) hp
    | exact rfl | exact fun _ => rfl | exact ⟨rfl, rfl⟩ | exact ⟨rfl, rfl, fun _ => rfl⟩ | exact fun _ => ⟨rfl, rfl⟩
    | exact fun _ => ⟨rfl, rfl, rfl, rfl, rfl⟩

theorem setNextTransfer_frame (n : Nat) (s : State) : UnchangedBut [.nextTransfer] s (setNextTransfer n s) := fun p hp => by
  cases p <;> first
    | exact absurd (by decide) hp
    | exact rfl | exact fun _ => rfl | exact ⟨rfl, rfl⟩ | exact ⟨rfl, rfl, fun _ => rfl⟩ | exact fun _ => ⟨rfl, rfl⟩
    | exact fun _ => ⟨rfl, rfl, rfl, rfl, rfl⟩

theorem modifyBoard_frame (f : Board → Board) (s : State) : UnchangedBut [.board] s (modifyBoard f s) := fun p hp => by
  cases p <;> first
    | exact absurd (by decide) hp
    | exact rfl | exact fun _ => rfl | exact ⟨rfl, rfl⟩ | exact ⟨rfl, rfl, fun _ => rfl⟩ | exact fun _ => ⟨rfl, rfl⟩
    | exact fun _ => ⟨rfl, rfl, rfl, rfl, rfl⟩

theorem setAccount_frame (i : Fin 64) (a : Account) (s : State) : UnchangedBut [.accounts] s (setAccount i a s) := fun p hp => by
  cases p <;> first
    | exact absurd (by decide) hp
    | exact rfl | exact fun _ => rfl | exact ⟨rfl, rfl⟩ | exact ⟨rfl, rfl, fun _ => rfl⟩ | exact fun _ => ⟨rfl, rfl⟩
    | exact fun _ => ⟨rfl, rfl, rfl, rfl, rfl⟩

theorem setLastTaken_frame (k : Key) (s : State) : UnchangedBut [.lastTaken] s (setLastTaken k s) := fun p hp => by
  cases p <;> first
    | exact absurd (by decide) hp
    | exact rfl | exact fun _ => rfl | exact ⟨rfl, rfl⟩ | exact ⟨rfl, rfl, fun _ => rfl⟩ | exact fun _ => ⟨rfl, rfl⟩
    | exact fun _ => ⟨rfl, rfl, rfl, rfl, rfl⟩

theorem setLastAnswer_frame (a : LineAnswer) (s : State) : UnchangedBut [.lastTaken] s (setLastAnswer a s) := fun p hp => by
  cases p <;> first
    | exact absurd (by decide) hp
    | exact rfl | exact fun _ => rfl | exact ⟨rfl, rfl⟩ | exact ⟨rfl, rfl, fun _ => rfl⟩ | exact fun _ => ⟨rfl, rfl⟩
    | exact fun _ => ⟨rfl, rfl, rfl, rfl, rfl⟩

theorem applyPace_frame (p : PrinterNo) (s : State) : UnchangedBut [.pacing] s (applyPace p s) := fun p hp => by
  cases p <;> first
    | exact absurd (by decide) hp
    | exact rfl | exact fun _ => rfl | exact ⟨rfl, rfl⟩ | exact ⟨rfl, rfl, fun _ => rfl⟩ | exact fun _ => ⟨rfl, rfl⟩
    | exact fun _ => ⟨rfl, rfl, rfl, rfl, rfl⟩

theorem writeAppend_frame (r : Record) (s : State) : UnchangedBut [.journal, .day] s (writeAppend r s) := fun p hp => by
  cases p <;> first
    | exact absurd (by decide) hp
    | exact rfl | exact fun _ => rfl | exact ⟨rfl, rfl⟩ | exact ⟨rfl, rfl, fun _ => rfl⟩ | exact fun _ => ⟨rfl, rfl⟩
    | exact fun _ => ⟨rfl, rfl, rfl, rfl, rfl⟩

theorem setApplied_frame (n : Nat) (d : Disposition) (s : State) : UnchangedBut [.journal, .day] s (setApplied n d s) := fun p hp => by
  cases p <;> first
    | exact absurd (by decide) hp
    | exact rfl | exact fun _ => rfl | exact ⟨rfl, rfl⟩ | exact ⟨rfl, rfl, fun _ => rfl⟩ | exact fun _ => ⟨rfl, rfl⟩
    | exact fun _ => ⟨rfl, rfl, rfl, rfl, rfl⟩

theorem setCounted_frame (d : DrawerNo) (c : Option Counts) (s : State) : UnchangedBut [.counted] s (setCounted d c s) := fun p hp => by
  cases p <;> first
    | exact absurd (by decide) hp
    | exact rfl | exact fun _ => rfl | exact ⟨rfl, rfl⟩ | exact ⟨rfl, rfl, fun _ => rfl⟩ | exact fun _ => ⟨rfl, rfl⟩
    | exact fun _ => ⟨rfl, rfl, rfl, rfl, rfl⟩

theorem setQuote_frame (i : Fin 16) (q : Quote) (s : State) : UnchangedBut [.exu] s (setQuote i q s) := fun p hp => by
  cases p <;> first
    | exact absurd (by decide) hp
    | exact rfl | exact fun _ => rfl | exact ⟨rfl, rfl⟩ | exact ⟨rfl, rfl, fun _ => rfl⟩ | exact fun _ => ⟨rfl, rfl⟩
    | exact fun _ => ⟨rfl, rfl, rfl, rfl, rfl⟩

theorem expireHeld_frame (p : Quote → Bool) (r : ExpiryReason) (s : State) : UnchangedBut [.exu] s (expireHeld p r s) := fun p hp => by
  cases p <;> first
    | exact absurd (by decide) hp
    | exact rfl | exact fun _ => rfl | exact ⟨rfl, rfl⟩ | exact ⟨rfl, rfl, fun _ => rfl⟩ | exact fun _ => ⟨rfl, rfl⟩
    | exact fun _ => ⟨rfl, rfl, rfl, rfl, rfl⟩

theorem modifyEngine_frame (p : PrinterNo) (f : Engine → Engine) (s : State) : UnchangedBut [.pru] s (modifyEngine p f s) := fun p hp => by
  cases p <;> first
    | exact absurd (by decide) hp
    | exact rfl | exact fun _ => rfl | exact ⟨rfl, rfl⟩ | exact ⟨rfl, rfl, fun _ => rfl⟩ | exact fun _ => ⟨rfl, rfl⟩
    | exact fun _ => ⟨rfl, rfl, rfl, rfl, rfl⟩

theorem setMotion_frame (p : PrinterNo) (m : Motion) (s : State) : UnchangedBut [.pru] s (setMotion p m s) := fun p hp => by
  cases p <;> first
    | exact absurd (by decide) hp
    | exact rfl | exact fun _ => rfl | exact ⟨rfl, rfl⟩ | exact ⟨rfl, rfl, fun _ => rfl⟩ | exact fun _ => ⟨rfl, rfl⟩
    | exact fun _ => ⟨rfl, rfl, rfl, rfl, rfl⟩

theorem setJob_frame (i : Fin 16) (j : Job) (s : State) : UnchangedBut [.pru] s (setJob i j s) := fun p hp => by
  cases p <;> first
    | exact absurd (by decide) hp
    | exact rfl | exact fun _ => rfl | exact ⟨rfl, rfl⟩ | exact ⟨rfl, rfl, fun _ => rfl⟩ | exact fun _ => ⟨rfl, rfl⟩
    | exact fun _ => ⟨rfl, rfl, rfl, rfl, rfl⟩

theorem stopPrinters_frame (s : State) : UnchangedBut [.pru] s (stopPrinters s) := fun p hp => by
  cases p <;> first
    | exact absurd (by decide) hp
    | exact rfl | exact fun _ => rfl | exact ⟨rfl, rfl⟩ | exact ⟨rfl, rfl, fun _ => rfl⟩ | exact fun _ => ⟨rfl, rfl⟩
    | exact fun _ => ⟨rfl, rfl, rfl, rfl, rfl⟩

theorem modifySender_frame (f : Sender → Sender) (s : State) : UnchangedBut [.sender] s (modifySender f s) := fun p hp => by
  cases p <;> first
    | exact absurd (by decide) hp
    | exact rfl | exact fun _ => rfl | exact ⟨rfl, rfl⟩ | exact ⟨rfl, rfl, fun _ => rfl⟩ | exact fun _ => ⟨rfl, rfl⟩
    | exact fun _ => ⟨rfl, rfl, rfl, rfl, rfl⟩

theorem emitLine_frame (f : Frame) (s : State) : UnchangedBut [.out] s (emitLine f s) := fun p hp => by
  cases p <;> first
    | exact absurd (by decide) hp
    | exact rfl | exact fun _ => rfl | exact ⟨rfl, rfl⟩ | exact ⟨rfl, rfl, fun _ => rfl⟩ | exact fun _ => ⟨rfl, rfl⟩
    | exact fun _ => ⟨rfl, rfl, rfl, rfl, rfl⟩

theorem setLineReady_frame (b : Bool) (s : State) : UnchangedBut [.out] s (setLineReady b s) := fun p hp => by
  cases p <;> first
    | exact absurd (by decide) hp
    | exact rfl | exact fun _ => rfl | exact ⟨rfl, rfl⟩ | exact ⟨rfl, rfl, fun _ => rfl⟩ | exact fun _ => ⟨rfl, rfl⟩
    | exact fun _ => ⟨rfl, rfl, rfl, rfl, rfl⟩

theorem emitDisplay_frame (p : Position) (f : Frame) (s : State) : UnchangedBut [.out] s (emitDisplay p f s) := fun p hp => by
  cases p <;> first
    | exact absurd (by decide) hp
    | exact rfl | exact fun _ => rfl | exact ⟨rfl, rfl⟩ | exact ⟨rfl, rfl, fun _ => rfl⟩ | exact fun _ => ⟨rfl, rfl⟩
    | exact fun _ => ⟨rfl, rfl, rfl, rfl, rfl⟩

theorem emitPrinted_frame (p : PrinterNo) (l : List PrintedLine) (s : State) : UnchangedBut [.out] s (emitPrinted p l s) := fun p hp => by
  cases p <;> first
    | exact absurd (by decide) hp
    | exact rfl | exact fun _ => rfl | exact ⟨rfl, rfl⟩ | exact ⟨rfl, rfl, fun _ => rfl⟩ | exact fun _ => ⟨rfl, rfl⟩
    | exact fun _ => ⟨rfl, rfl, rfl, rfl, rfl⟩

theorem answerRead_frame (w : Word) (s : State) : UnchangedBut [.out] s (answerRead w s) := fun p hp => by
  cases p <;> first
    | exact absurd (by decide) hp
    | exact rfl | exact fun _ => rfl | exact ⟨rfl, rfl⟩ | exact ⟨rfl, rfl, fun _ => rfl⟩ | exact fun _ => ⟨rfl, rfl⟩
    | exact fun _ => ⟨rfl, rfl, rfl, rfl, rfl⟩

theorem abandonRequests_frame (s : State) : UnchangedBut [.inExecution, .turns] s (abandonRequests s) := fun p hp => by
  cases p <;> first
    | exact absurd (by decide) hp
    | exact rfl | exact fun _ => rfl | exact ⟨rfl, rfl⟩ | exact ⟨rfl, rfl, fun _ => rfl⟩ | exact fun _ => ⟨rfl, rfl⟩
    | exact fun _ => ⟨rfl, rfl, rfl, rfl, rfl⟩

/-! ### The same frames for the simplifier: an operation on top of a state already framed -/

@[simp] theorem UnchangedBut.self (l : List Part) (s : State) : UnchangedBut l s s := .refl l s

theorem modifyDrawer_unchanged {L : List Part} {s t : State} (n : DrawerNo) (f : Drawer → Drawer)
    (hf : ∀ x, (f x).bound = x.bound) (hL : Part.drawers ∈ L) (h : UnchangedBut L s t) :
    UnchangedBut L s (modifyDrawer n f t) :=
  h.trans ((modifyDrawer_frame n f hf t).mono (by simpa using hL))

@[simp] theorem raiseTo_unchanged {L : List Part} {s t : State} (m : Master) (d : Detail)
    (hL : ∀ p ∈ ([.windows] : List Part), p ∈ L) (hu : UnchangedBut L s t) :
    UnchangedBut L s (raiseTo m d t) := hu.trans ((raiseTo_frame m d t).mono hL)

@[simp] theorem raiseOfficer_unchanged {L : List Part} {s t : State} (d : Detail)
    (hL : ∀ p ∈ ([.windows] : List Part), p ∈ L) (hu : UnchangedBut L s t) :
    UnchangedBut L s (raiseOfficer d t) := hu.trans ((raiseOfficer_frame d t).mono hL)

@[simp] theorem raiseAt_unchanged {L : List Part} {s t : State} (p : Position) (d : Detail)
    (hL : ∀ p ∈ ([.windows] : List Part), p ∈ L) (hu : UnchangedBut L s t) :
    UnchangedBut L s (raiseAt p d t) := hu.trans ((raiseAt_frame p d t).mono hL)

@[simp] theorem takeReports_unchanged {L : List Part} {s t : State} (rs : List Report)
    (hL : ∀ p ∈ ([.buffers, .screens] : List Part), p ∈ L) (hu : UnchangedBut L s t) :
    UnchangedBut L s (takeReports rs t) := hu.trans ((takeReports_frame rs t).mono hL)

@[simp] theorem report_unchanged {L : List Part} {s t : State} (rs : List Report)
    (hL : ∀ p ∈ ([.buffers, .screens, .inExecution] : List Part), p ∈ L) (hu : UnchangedBut L s t) :
    UnchangedBut L s (report rs t) := hu.trans ((report_frame rs t).mono hL)

@[simp] theorem addHolds_unchanged {L : List Part} {s t : State} (n : Nat)
    (hL : ∀ p ∈ ([.jsu] : List Part), p ∈ L) (hu : UnchangedBut L s t) :
    UnchangedBut L s (addHolds n t) := hu.trans ((addHolds_frame n t).mono hL)

@[simp] theorem dropHold_unchanged {L : List Part} {s t : State}
    (hL : ∀ p ∈ ([.jsu] : List Part), p ∈ L) (hu : UnchangedBut L s t) :
    UnchangedBut L s (dropHold t) := hu.trans ((dropHold_frame t).mono hL)

@[simp] theorem setCause_unchanged {L : List Part} {s t : State} (c : RestartCause)
    (hL : ∀ p ∈ ([.jsu] : List Part), p ∈ L) (hu : UnchangedBut L s t) :
    UnchangedBut L s (setCause c t) := hu.trans ((setCause_frame c t).mono hL)

@[simp] theorem modifyDay_unchanged {L : List Part} {s t : State} (f : DayRecord → DayRecord)
    (hL : ∀ p ∈ ([.day] : List Part), p ∈ L) (hu : UnchangedBut L s t) :
    UnchangedBut L s (modifyDay f t) := hu.trans ((modifyDay_frame f t).mono hL)

@[simp] theorem setDayState_unchanged {L : List Part} {s t : State} (x : DayState)
    (hL : ∀ p ∈ ([.day] : List Part), p ∈ L) (hu : UnchangedBut L s t) :
    UnchangedBut L s (setDayState x t) := hu.trans ((setDayState_frame x t).mono hL)

@[simp] theorem setAckThrough_unchanged {L : List Part} {s t : State} (k : Nat)
    (hL : ∀ p ∈ ([.day] : List Part), p ∈ L) (hu : UnchangedBut L s t) :
    UnchangedBut L s (setAckThrough k t) := hu.trans ((setAckThrough_frame k t).mono hL)

@[simp] theorem modifyPosition_unchanged {L : List Part} {s t : State} (p : Position) (f : PositionEntry → PositionEntry)
    (hL : ∀ p ∈ ([.positions] : List Part), p ∈ L) (hu : UnchangedBut L s t) :
    UnchangedBut L s (modifyPosition p f t) := hu.trans ((modifyPosition_frame p f t).mono hL)

@[simp] theorem modifyTransfer_unchanged {L : List Part} {s t : State} (i : Fin 8) (x : Transfer)
    (hL : ∀ p ∈ ([.transfers] : List Part), p ∈ L) (hu : UnchangedBut L s t) :
    UnchangedBut L s (modifyTransfer i x t) := hu.trans ((modifyTransfer_frame i x t).mono hL)

@[simp] theorem setNextTransfer_unchanged {L : List Part} {s t : State} (n : Nat)
    (hL : ∀ p ∈ ([.nextTransfer] : List Part), p ∈ L) (hu : UnchangedBut L s t) :
    UnchangedBut L s (setNextTransfer n t) := hu.trans ((setNextTransfer_frame n t).mono hL)

@[simp] theorem modifyBoard_unchanged {L : List Part} {s t : State} (f : Board → Board)
    (hL : ∀ p ∈ ([.board] : List Part), p ∈ L) (hu : UnchangedBut L s t) :
    UnchangedBut L s (modifyBoard f t) := hu.trans ((modifyBoard_frame f t).mono hL)

@[simp] theorem setAccount_unchanged {L : List Part} {s t : State} (i : Fin 64) (a : Account)
    (hL : ∀ p ∈ ([.accounts] : List Part), p ∈ L) (hu : UnchangedBut L s t) :
    UnchangedBut L s (setAccount i a t) := hu.trans ((setAccount_frame i a t).mono hL)

@[simp] theorem setLastAnswer_unchanged {L : List Part} {s t : State} (a : LineAnswer)
    (hL : ∀ p ∈ ([.lastTaken] : List Part), p ∈ L) (hu : UnchangedBut L s t) :
    UnchangedBut L s (setLastAnswer a t) := hu.trans ((setLastAnswer_frame a t).mono hL)

@[simp] theorem setLastTaken_unchanged {L : List Part} {s t : State} (k : Key)
    (hL : ∀ p ∈ ([.lastTaken] : List Part), p ∈ L) (hu : UnchangedBut L s t) :
    UnchangedBut L s (setLastTaken k t) := hu.trans ((setLastTaken_frame k t).mono hL)

@[simp] theorem applyPace_unchanged {L : List Part} {s t : State} (p : PrinterNo)
    (hL : ∀ p ∈ ([.pacing] : List Part), p ∈ L) (hu : UnchangedBut L s t) :
    UnchangedBut L s (applyPace p t) := hu.trans ((applyPace_frame p t).mono hL)

@[simp] theorem writeAppend_unchanged {L : List Part} {s t : State} (r : Record)
    (hL : ∀ p ∈ ([.journal, .day] : List Part), p ∈ L) (hu : UnchangedBut L s t) :
    UnchangedBut L s (writeAppend r t) := hu.trans ((writeAppend_frame r t).mono hL)

@[simp] theorem setApplied_unchanged {L : List Part} {s t : State} (n : Nat) (d : Disposition)
    (hL : ∀ p ∈ ([.journal, .day] : List Part), p ∈ L) (hu : UnchangedBut L s t) :
    UnchangedBut L s (setApplied n d t) := hu.trans ((setApplied_frame n d t).mono hL)

@[simp] theorem setCounted_unchanged {L : List Part} {s t : State} (d : DrawerNo) (c : Option Counts)
    (hL : ∀ p ∈ ([.counted] : List Part), p ∈ L) (hu : UnchangedBut L s t) :
    UnchangedBut L s (setCounted d c t) := hu.trans ((setCounted_frame d c t).mono hL)

@[simp] theorem setQuote_unchanged {L : List Part} {s t : State} (i : Fin 16) (q : Quote)
    (hL : ∀ p ∈ ([.exu] : List Part), p ∈ L) (hu : UnchangedBut L s t) :
    UnchangedBut L s (setQuote i q t) := hu.trans ((setQuote_frame i q t).mono hL)

@[simp] theorem expireHeld_unchanged {L : List Part} {s t : State} (p : Quote → Bool) (r : ExpiryReason)
    (hL : ∀ p ∈ ([.exu] : List Part), p ∈ L) (hu : UnchangedBut L s t) :
    UnchangedBut L s (expireHeld p r t) := hu.trans ((expireHeld_frame p r t).mono hL)

@[simp] theorem modifyEngine_unchanged {L : List Part} {s t : State} (p : PrinterNo) (f : Engine → Engine)
    (hL : ∀ p ∈ ([.pru] : List Part), p ∈ L) (hu : UnchangedBut L s t) :
    UnchangedBut L s (modifyEngine p f t) := hu.trans ((modifyEngine_frame p f t).mono hL)

@[simp] theorem setMotion_unchanged {L : List Part} {s t : State} (p : PrinterNo) (m : Motion)
    (hL : ∀ p ∈ ([.pru] : List Part), p ∈ L) (hu : UnchangedBut L s t) :
    UnchangedBut L s (setMotion p m t) := hu.trans ((setMotion_frame p m t).mono hL)

@[simp] theorem setJob_unchanged {L : List Part} {s t : State} (i : Fin 16) (j : Job)
    (hL : ∀ p ∈ ([.pru] : List Part), p ∈ L) (hu : UnchangedBut L s t) :
    UnchangedBut L s (setJob i j t) := hu.trans ((setJob_frame i j t).mono hL)

@[simp] theorem stopPrinters_unchanged {L : List Part} {s t : State}
    (hL : ∀ p ∈ ([.pru] : List Part), p ∈ L) (hu : UnchangedBut L s t) :
    UnchangedBut L s (stopPrinters t) := hu.trans ((stopPrinters_frame t).mono hL)

@[simp] theorem modifySender_unchanged {L : List Part} {s t : State} (f : Sender → Sender)
    (hL : ∀ p ∈ ([.sender] : List Part), p ∈ L) (hu : UnchangedBut L s t) :
    UnchangedBut L s (modifySender f t) := hu.trans ((modifySender_frame f t).mono hL)

@[simp] theorem emitLine_unchanged {L : List Part} {s t : State} (f : Frame)
    (hL : ∀ p ∈ ([.out] : List Part), p ∈ L) (hu : UnchangedBut L s t) :
    UnchangedBut L s (emitLine f t) := hu.trans ((emitLine_frame f t).mono hL)

@[simp] theorem setLineReady_unchanged {L : List Part} {s t : State} (b : Bool)
    (hL : ∀ p ∈ ([.out] : List Part), p ∈ L) (hu : UnchangedBut L s t) :
    UnchangedBut L s (setLineReady b t) := hu.trans ((setLineReady_frame b t).mono hL)

@[simp] theorem emitDisplay_unchanged {L : List Part} {s t : State} (p : Position) (f : Frame)
    (hL : ∀ p ∈ ([.out] : List Part), p ∈ L) (hu : UnchangedBut L s t) :
    UnchangedBut L s (emitDisplay p f t) := hu.trans ((emitDisplay_frame p f t).mono hL)

@[simp] theorem emitPrinted_unchanged {L : List Part} {s t : State} (p : PrinterNo) (l : List PrintedLine)
    (hL : ∀ p ∈ ([.out] : List Part), p ∈ L) (hu : UnchangedBut L s t) :
    UnchangedBut L s (emitPrinted p l t) := hu.trans ((emitPrinted_frame p l t).mono hL)

@[simp] theorem answerRead_unchanged {L : List Part} {s t : State} (w : Word)
    (hL : ∀ p ∈ ([.out] : List Part), p ∈ L) (hu : UnchangedBut L s t) :
    UnchangedBut L s (answerRead w t) := hu.trans ((answerRead_frame w t).mono hL)

@[simp] theorem abandonRequests_unchanged {L : List Part} {s t : State}
    (hL : ∀ p ∈ ([.inExecution, .turns] : List Part), p ∈ L) (hu : UnchangedBut L s t) :
    UnchangedBut L s (abandonRequests t) := hu.trans ((abandonRequests_frame t).mono hL)

/-! ### Shared operations -/

theorem raiseAlert_frame (d : DrawerNo) (e : AlertEvent) (s : State) :
    UnchangedBut [.windows] s (raiseAlert d e s) := by
  unfold raiseAlert; dsimp only; split <;> simp (maxDischargeDepth := 30)

@[simp] theorem raiseAlert_unchanged {L : List Part} {s t : State} (d : DrawerNo) (e : AlertEvent)
    (hL : ∀ p ∈ ([.windows] : List Part), p ∈ L) (hu : UnchangedBut L s t) :
    UnchangedBut L s (raiseAlert d e t) := hu.trans ((raiseAlert_frame d e t).mono hL)

theorem captureFault_frame (k : FaultKind) (u : UnitName) (l : List Item) (s : State) :
    UnchangedBut [.windows, .fault] s (captureFault k u l s) := by
  refine UnchangedBut.trans (t := { s with port := { s.port with fault := _ } }) (fun p hp => ?_)
    ((raiseOfficer_frame _ _).mono (by simp))
  cases p <;> first
    | exact absurd (by decide) hp
    | exact rfl | exact fun _ => rfl | exact ⟨rfl, rfl⟩ | exact ⟨rfl, rfl, fun _ => rfl⟩ | exact fun _ => ⟨rfl, rfl⟩
    | exact fun _ => ⟨rfl, rfl, rfl, rfl, rfl⟩

@[simp] theorem captureFault_unchanged {L : List Part} {s t : State} (k : FaultKind) (u : UnitName) (l : List Item)
    (hL : ∀ p ∈ ([.windows, .fault] : List Part), p ∈ L) (hu : UnchangedBut L s t) :
    UnchangedBut L s (captureFault k u l t) := hu.trans ((captureFault_frame k u l t).mono hL)

theorem storeCheckFault_frame (n : Nat) (s : State) :
    UnchangedBut [.windows, .fault] s (storeCheckFault n s) := by
  simp (maxDischargeDepth := 30) [storeCheckFault]

@[simp] theorem storeCheckFault_unchanged {L : List Part} {s t : State} (n : Nat)
    (hL : ∀ p ∈ ([.windows, .fault] : List Part), p ∈ L) (hu : UnchangedBut L s t) :
    UnchangedBut L s (storeCheckFault n t) := hu.trans ((storeCheckFault_frame n t).mono hL)

theorem appendRecord_frame (r : Record) (s : State) :
    UnchangedBut [.journal, .day, .windows] s (appendRecord r s) := by
  unfold appendRecord; dsimp only; split <;> simp (maxDischargeDepth := 30)

@[simp] theorem appendRecord_unchanged {L : List Part} {s t : State} (r : Record)
    (hL : ∀ p ∈ ([.journal, .day, .windows] : List Part), p ∈ L) (hu : UnchangedBut L s t) :
    UnchangedBut L s (appendRecord r t) := hu.trans ((appendRecord_frame r t).mono hL)

theorem respond_frame (h : ReqHead) (k : Nat) (c : Code) (b : Bool) (l : List (Option (List Item)))
    (s : State) : UnchangedBut [.windows, .responses, .inExecution, .turns] s (respond h k c b l s) := fun p hp => by
  have key : ∀ m, ∃ x, (respond h k c b l s).port.windows.get m =
      { s.port.windows.get m with responses := x } := fun m => by
    simp only [respond]
    split
    · exact ⟨_, rfl⟩
    · rw [Table.get_modify]
      split
      · subst_vars; exact ⟨_, rfl⟩
      · exact ⟨_, rfl⟩
  cases p <;> first
    | exact absurd (by decide) hp
    | exact rfl | exact ⟨rfl, rfl⟩ | exact ⟨rfl, rfl, fun _ => rfl⟩
    | exact fun _ => rfl | exact fun _ => ⟨rfl, rfl⟩ | exact fun _ => ⟨rfl, rfl, rfl, rfl, rfl⟩
    | (intro m; obtain ⟨x, hx⟩ := key m; simp [hx])

@[simp] theorem respond_unchanged {L : List Part} {s t : State} (h : ReqHead) (k : Nat) (c : Code) (b : Bool) (l : List (Option (List Item)))
    (hL : ∀ p ∈ ([.windows, .responses, .inExecution, .turns] : List Part), p ∈ L) (hu : UnchangedBut L s t) :
    UnchangedBut L s (respond h k c b l t) := hu.trans ((respond_frame h k c b l t).mono hL)

theorem restartIdle_frame (p : Position) (s : State) :
    UnchangedBut [.screens, .idles] s (restartIdle p s) :=
  .ite _ (.ofScreens p _ (by decide) (.inr fun _ => ⟨rfl, rfl, rfl, rfl, rfl⟩) (.inr fun _ => rfl)
    (.inl (by decide)) (.inr fun _ => rfl)) (.refl _ s)

@[simp] theorem restartIdle_unchanged {L : List Part} {s t : State} (p : Position)
    (hL : ∀ p ∈ ([.screens, .idles] : List Part), p ∈ L) (hu : UnchangedBut L s t) :
    UnchangedBut L s (restartIdle p t) := hu.trans ((restartIdle_frame p t).mono hL)

theorem restartNamed_frame (i : Instr) (s : State) :
    UnchangedBut [.screens, .idles] s (restartNamed i s) := by
  unfold restartNamed; split <;> simp (maxDischargeDepth := 30)

@[simp] theorem restartNamed_unchanged {L : List Part} {s t : State} (i : Instr)
    (hL : ∀ p ∈ ([.screens, .idles] : List Part), p ∈ L) (hu : UnchangedBut L s t) :
    UnchangedBut L s (restartNamed i t) := hu.trans ((restartNamed_frame i t).mono hL)

theorem evaluateExcess_frame (n : DrawerNo) (s : State) :
    UnchangedBut [.drawers, .windows, .buffers, .screens, .inExecution] s (evaluateExcess n s) := by
  unfold evaluateExcess; dsimp only; split
  · simp (maxDischargeDepth := 30)
  · simp (maxDischargeDepth := 30) [modifyDrawer_unchanged]

@[simp] theorem evaluateExcess_unchanged {L : List Part} {s t : State} (n : DrawerNo)
    (hL : ∀ p ∈ ([.drawers, .windows, .buffers, .screens, .inExecution] : List Part), p ∈ L) (hu : UnchangedBut L s t) :
    UnchangedBut L s (evaluateExcess n t) := hu.trans ((evaluateExcess_frame n t).mono hL)

theorem evaluateLimits_frame (n : DrawerNo) (k : Nat) (s : State) :
    UnchangedBut [.drawers, .windows, .buffers, .screens, .inExecution] s (evaluateLimits n k s) := by
  unfold evaluateLimits; dsimp only; split <;> simp (maxDischargeDepth := 30)

@[simp] theorem evaluateLimits_unchanged {L : List Part} {s t : State} (n : DrawerNo) (k : Nat)
    (hL : ∀ p ∈ ([.drawers, .windows, .buffers, .screens, .inExecution] : List Part), p ∈ L) (hu : UnchangedBut L s t) :
    UnchangedBut L s (evaluateLimits n k t) := hu.trans ((evaluateLimits_frame n k t).mono hL)

theorem countsChanged_frame (n : DrawerNo) (o : Drawer) (s : State) :
    UnchangedBut [.drawers, .windows, .buffers, .screens, .inExecution] s (countsChanged n o s) := by
  unfold countsChanged; dsimp only; split <;> simp (maxDischargeDepth := 30)

@[simp] theorem countsChanged_unchanged {L : List Part} {s t : State} (n : DrawerNo) (o : Drawer)
    (hL : ∀ p ∈ ([.drawers, .windows, .buffers, .screens, .inExecution] : List Part), p ∈ L) (hu : UnchangedBut L s t) :
    UnchangedBut L s (countsChanged n o t) := hu.trans ((countsChanged_frame n o t).mono hL)

theorem cashChange_frame (n : DrawerNo) (x : Deltas) (q : Nat) (r : Int) (s : State) :
    UnchangedBut [.drawers, .windows, .buffers, .screens, .inExecution] s (cashChange n x q r s) := by
  exact countsChanged_unchanged _ _ (by simp) (modifyDrawer_unchanged _ _ (fun _ => rfl) (by simp) (.refl _ s))

@[simp] theorem cashChange_unchanged {L : List Part} {s t : State} (n : DrawerNo) (x : Deltas) (q : Nat) (r : Int)
    (hL : ∀ p ∈ ([.drawers, .windows, .buffers, .screens, .inExecution] : List Part), p ∈ L) (hu : UnchangedBut L s t) :
    UnchangedBut L s (cashChange n x q r t) := hu.trans ((cashChange_frame n x q r t).mono hL)

theorem reserveCash_frame (n : DrawerNo) (k : Counts) (q : Nat) (s : State) :
    UnchangedBut [.drawers, .windows, .buffers, .screens, .inExecution] s (reserveCash n k q s) := by
  simp (maxDischargeDepth := 30) [reserveCash, modifyDrawer_unchanged]

@[simp] theorem reserveCash_unchanged {L : List Part} {s t : State} (n : DrawerNo) (k : Counts) (q : Nat)
    (hL : ∀ p ∈ ([.drawers, .windows, .buffers, .screens, .inExecution] : List Part), p ∈ L) (hu : UnchangedBut L s t) :
    UnchangedBut L s (reserveCash n k q t) := hu.trans ((reserveCash_frame n k q t).mono hL)

theorem returnCash_frame (n : DrawerNo) (k : Counts) (q : Nat) (s : State) :
    UnchangedBut [.drawers, .windows, .buffers, .screens, .inExecution] s (returnCash n k q s) := by
  simp (maxDischargeDepth := 30) [returnCash, modifyDrawer_unchanged]

@[simp] theorem returnCash_unchanged {L : List Part} {s t : State} (n : DrawerNo) (k : Counts) (q : Nat)
    (hL : ∀ p ∈ ([.drawers, .windows, .buffers, .screens, .inExecution] : List Part), p ∈ L) (hu : UnchangedBut L s t) :
    UnchangedBut L s (returnCash n k q t) := hu.trans ((returnCash_frame n k q t).mono hL)

theorem receiveCash_frame (n : DrawerNo) (k : Counts) (q : Nat) (s : State) :
    UnchangedBut [.drawers, .windows, .buffers, .screens, .inExecution] s (receiveCash n k q s) := by
  simp (maxDischargeDepth := 30) [receiveCash, modifyDrawer_unchanged]

@[simp] theorem receiveCash_unchanged {L : List Part} {s t : State} (n : DrawerNo) (k : Counts) (q : Nat)
    (hL : ∀ p ∈ ([.drawers, .windows, .buffers, .screens, .inExecution] : List Part), p ∈ L) (hu : UnchangedBut L s t) :
    UnchangedBut L s (receiveCash n k q t) := hu.trans ((receiveCash_frame n k q t).mono hL)

theorem deliverCash_frame (n : DrawerNo) (k : Counts) (q : Nat) (s : State) :
    UnchangedBut [.drawers] s (deliverCash n k q s) := by
  simp (maxDischargeDepth := 30) [deliverCash, modifyDrawer_unchanged]

@[simp] theorem deliverCash_unchanged {L : List Part} {s t : State} (n : DrawerNo) (k : Counts) (q : Nat)
    (hL : ∀ p ∈ ([.drawers] : List Part), p ∈ L) (hu : UnchangedBut L s t) :
    UnchangedBut L s (deliverCash n k q t) := hu.trans ((deliverCash_frame n k q t).mono hL)

theorem clearDelivery_frame (o : Option Delivery) (s : State) :
    UnchangedBut [.delivery] s { s with delivery := o } := fun p hp => by
  cases p <;> first
    | exact absurd (by decide) hp
    | exact rfl | exact fun _ => rfl | exact ⟨rfl, rfl⟩ | exact ⟨rfl, rfl, fun _ => rfl⟩ | exact fun _ => ⟨rfl, rfl⟩
    | exact fun _ => ⟨rfl, rfl, rfl, rfl, rfl⟩

theorem clearDelivery_unchanged {L : List Part} {s t : State} (o : Option Delivery)
    (hL : Part.delivery ∈ L) (h : UnchangedBut L s t) : UnchangedBut L s { t with delivery := o } :=
  h.trans ((clearDelivery_frame o t).mono (by simpa using hL))

theorem setOrder_frame (l : List Asked) (s : State) : UnchangedBut [.inExecution, .turns] s (setOrder l s) := fun p hp => by
  cases p <;> first
    | exact absurd (by decide) hp
    | exact rfl | exact fun _ => rfl | exact ⟨rfl, rfl⟩ | exact ⟨rfl, rfl, fun _ => rfl⟩ | exact fun _ => ⟨rfl, rfl⟩
    | exact fun _ => ⟨rfl, rfl, rfl, rfl, rfl⟩

@[simp] theorem setOrder_unchanged {L : List Part} {s t : State} (l : List Asked)
    (hL : ∀ p ∈ ([.inExecution, .turns] : List Part), p ∈ L) (hu : UnchangedBut L s t) :
    UnchangedBut L s (setOrder l t) := hu.trans ((setOrder_frame l t).mono hL)

@[simp] theorem ask_unchanged {L : List Part} {s t : State} (x : Asked)
    (hL : ∀ p ∈ ([.inExecution, .turns] : List Part), p ∈ L) (hu : UnchangedBut L s t) :
    UnchangedBut L s (ask x t) := setOrder_unchanged _ hL hu

theorem finishDelivery_frame (s : State) :
    UnchangedBut [.delivery, .drawers, .journal, .day, .windows, .responses, .inExecution, .turns] s (finishDelivery s) := by
  unfold finishDelivery; split
  · simp (maxDischargeDepth := 30)
  · dsimp only
    exact respond_unchanged _ _ _ _ _ (by simp) (setApplied_unchanged _ _ (by simp)
      (deliverCash_unchanged _ _ _ (by simp) (setOrder_unchanged _ (by simp)
        (clearDelivery_unchanged _ (by simp) (.refl _ s)))))

@[simp] theorem finishDelivery_unchanged {L : List Part} {s t : State}
    (hL : ∀ p ∈ ([.delivery, .drawers, .journal, .day, .windows, .responses, .inExecution, .turns] : List Part), p ∈ L) (hu : UnchangedBut L s t) :
    UnchangedBut L s (finishDelivery t) := hu.trans ((finishDelivery_frame t).mono hL)

theorem commitBoard_frame (f : Foreign) (e : BoardEntry) (k : Nat) (s : State) :
    UnchangedBut [.journal, .day, .windows, .board] s (commitBoard f e k s) := by
  simp (maxDischargeDepth := 30) [commitBoard]

@[simp] theorem commitBoard_unchanged {L : List Part} {s t : State} (f : Foreign) (e : BoardEntry) (k : Nat)
    (hL : ∀ p ∈ ([.journal, .day, .windows, .board] : List Part), p ∈ L) (hu : UnchangedBut L s t) :
    UnchangedBut L s (commitBoard f e k t) := hu.trans ((commitBoard_frame f e k t).mono hL)

theorem endQuote_frame (n : Nat) (x : QuoteState) (s : State) :
    UnchangedBut [.exu] s (endQuote n x s) := by
  unfold endQuote; split <;> simp (maxDischargeDepth := 30)

@[simp] theorem endQuote_unchanged {L : List Part} {s t : State} (n : Nat) (x : QuoteState)
    (hL : ∀ p ∈ ([.exu] : List Part), p ∈ L) (hu : UnchangedBut L s t) :
    UnchangedBut L s (endQuote n x t) := hu.trans ((endQuote_frame n x t).mono hL)

theorem useQuote_frame (n : Nat) (s : State) :
    UnchangedBut [.exu, .buffers, .screens, .inExecution] s (useQuote n s) := by
  unfold useQuote; split <;> simp (maxDischargeDepth := 30)

@[simp] theorem useQuote_unchanged {L : List Part} {s t : State} (n : Nat)
    (hL : ∀ p ∈ ([.exu, .buffers, .screens, .inExecution] : List Part), p ∈ L) (hu : UnchangedBut L s t) :
    UnchangedBut L s (useQuote n t) := hu.trans ((useQuote_frame n t).mono hL)

theorem expireSignoff_frame (p : Position) (s : State) :
    UnchangedBut [.exu, .buffers, .screens, .inExecution] s (expireSignoff p s) := by
  simp (maxDischargeDepth := 30) [expireSignoff]

@[simp] theorem expireSignoff_unchanged {L : List Part} {s t : State} (p : Position)
    (hL : ∀ p ∈ ([.exu, .buffers, .screens, .inExecution] : List Part), p ∈ L) (hu : UnchangedBut L s t) :
    UnchangedBut L s (expireSignoff p t) := hu.trans ((expireSignoff_frame p t).mono hL)

theorem expireDayClose_frame (s : State) :
    UnchangedBut [.exu, .buffers, .screens, .inExecution] s (expireDayClose s) := by
  simp (maxDischargeDepth := 30) [expireDayClose]

@[simp] theorem expireDayClose_unchanged {L : List Part} {s t : State}
    (hL : ∀ p ∈ ([.exu, .buffers, .screens, .inExecution] : List Part), p ∈ L) (hu : UnchangedBut L s t) :
    UnchangedBut L s (expireDayClose t) := hu.trans ((expireDayClose_frame t).mono hL)

theorem tickQuotes_frame (s : State) : UnchangedBut [.exu] s
    { s with exu := { s.exu with quotes := s.exu.quotes.map (Option.map tickQuote) } } := fun p hp => by
  cases p <;> first
    | exact absurd (by decide) hp
    | exact rfl | exact fun _ => rfl | exact ⟨rfl, rfl⟩ | exact ⟨rfl, rfl, fun _ => rfl⟩ | exact fun _ => ⟨rfl, rfl⟩
    | exact fun _ => ⟨rfl, rfl, rfl, rfl, rfl⟩

theorem tickExu_frame (s : State) :
    UnchangedBut [.exu, .windows, .buffers, .screens, .inExecution] s (tickExu s) := by
  unfold tickExu; dsimp only
  refine report_unchanged _ (by simp) (UnchangedBut.trans (tickQuotes_frame s |>.mono (by simp)) ?_)
  exact .foldl (fun s q => by simp (maxDischargeDepth := 30) [raiseExpired]) _ _

@[simp] theorem tickExu_unchanged {L : List Part} {s t : State}
    (hL : ∀ p ∈ ([.exu, .windows, .buffers, .screens, .inExecution] : List Part), p ∈ L) (hu : UnchangedBut L s t) :
    UnchangedBut L s (tickExu t) := hu.trans ((tickExu_frame t).mono hL)

theorem quoteTimesOut_frame (n : Nat) (s : State) :
    UnchangedBut [.exu, .windows, .buffers, .screens, .inExecution] s (quoteTimesOut n s) := by
  unfold quoteTimesOut; split
  · split <;> simp (maxDischargeDepth := 30) [raiseExpired]
  · simp (maxDischargeDepth := 30)

@[simp] theorem quoteTimesOut_unchanged {L : List Part} {s t : State} (n : Nat)
    (hL : ∀ p ∈ ([.exu, .windows, .buffers, .screens, .inExecution] : List Part), p ∈ L) (hu : UnchangedBut L s t) :
    UnchangedBut L s (quoteTimesOut n t) := hu.trans ((quoteTimesOut_frame n t).mono hL)

theorem raiseTransfer_frame (e : TransferEvent) (d : DrawerNo) (x : Transfer) (s : State) :
    UnchangedBut [.windows] s (raiseTransfer e d x s) := by
  simp (maxDischargeDepth := 30) [raiseTransfer]

@[simp] theorem raiseTransfer_unchanged {L : List Part} {s t : State} (e : TransferEvent) (d : DrawerNo) (x : Transfer)
    (hL : ∀ p ∈ ([.windows] : List Part), p ∈ L) (hu : UnchangedBut L s t) :
    UnchangedBut L s (raiseTransfer e d x t) := hu.trans ((raiseTransfer_frame e d x t).mono hL)

theorem commitOffer_frame (i : Fin 8) (x : Transfer) (p : Option Position) (s : State) :
    UnchangedBut [.journal, .day, .windows, .transfers, .nextTransfer, .drawers, .jsu, .buffers, .screens, .inExecution] s (commitOffer i x p s) := by
  simp (maxDischargeDepth := 30) [commitOffer]

@[simp] theorem commitOffer_unchanged {L : List Part} {s t : State} (i : Fin 8) (x : Transfer) (p : Option Position)
    (hL : ∀ p ∈ ([.journal, .day, .windows, .transfers, .nextTransfer, .drawers, .jsu, .buffers, .screens, .inExecution] : List Part), p ∈ L) (hu : UnchangedBut L s t) :
    UnchangedBut L s (commitOffer i x p t) := hu.trans ((commitOffer_frame i x p t).mono hL)

theorem commitAccept_frame (i : Fin 8) (x : Transfer) (s : State) :
    UnchangedBut [.journal, .day, .windows, .transfers, .drawers, .jsu, .buffers, .screens, .inExecution] s (commitAccept i x s) := by
  simp (maxDischargeDepth := 30) [commitAccept]

@[simp] theorem commitAccept_unchanged {L : List Part} {s t : State} (i : Fin 8) (x : Transfer)
    (hL : ∀ p ∈ ([.journal, .day, .windows, .transfers, .drawers, .jsu, .buffers, .screens, .inExecution] : List Part), p ∈ L) (hu : UnchangedBut L s t) :
    UnchangedBut L s (commitAccept i x t) := hu.trans ((commitAccept_frame i x t).mono hL)

theorem commitReturn_frame (i : Fin 8) (x : Transfer) (y : TransferState) (p : Option Position) (n : Nat) (s : State) :
    UnchangedBut [.journal, .day, .windows, .transfers, .drawers, .jsu, .buffers, .screens, .inExecution] s (commitReturn i x y p n s) := by
  simp (maxDischargeDepth := 30) [commitReturn]

@[simp] theorem commitReturn_unchanged {L : List Part} {s t : State} (i : Fin 8) (x : Transfer) (y : TransferState) (p : Option Position) (n : Nat)
    (hL : ∀ p ∈ ([.journal, .day, .windows, .transfers, .drawers, .jsu, .buffers, .screens, .inExecution] : List Part), p ∈ L) (hu : UnchangedBut L s t) :
    UnchangedBut L s (commitReturn i x y p n t) := hu.trans ((commitReturn_frame i x y p n t).mono hL)

theorem tickTransfers_frame (s : State) : UnchangedBut [.transfers] s { s with store :=
    { s.store with transfers := s.store.transfers.map (Option.map tickTransfer) } } := fun p hp => by
  cases p <;> first
    | exact absurd (by decide) hp
    | exact rfl | exact fun _ => rfl | exact ⟨rfl, rfl⟩ | exact ⟨rfl, rfl, fun _ => rfl⟩ | exact fun _ => ⟨rfl, rfl⟩
    | exact fun _ => ⟨rfl, rfl, rfl, rfl, rfl⟩

theorem timeoutTransfer_frame (n : Nat) (s : State) :
    UnchangedBut [.journal, .day, .windows, .transfers, .drawers, .jsu, .buffers, .screens, .inExecution] s (timeoutTransfer n s) := by
  unfold timeoutTransfer; split
  · split <;> simp (maxDischargeDepth := 30) [returnTimedOut]
  · simp (maxDischargeDepth := 30)

@[simp] theorem timeoutTransfer_unchanged {L : List Part} {s t : State} (n : Nat)
    (hL : ∀ p ∈ ([.journal, .day, .windows, .transfers, .drawers, .jsu, .buffers, .screens, .inExecution] : List Part), p ∈ L) (hu : UnchangedBut L s t) :
    UnchangedBut L s (timeoutTransfer n t) := hu.trans ((timeoutTransfer_frame n t).mono hL)

theorem countTransfers_frame (s : State) :
    UnchangedBut [.journal, .day, .windows, .transfers, .drawers, .jsu, .buffers, .screens, .inExecution] s (countTransfers s) := by
  unfold countTransfers
  refine UnchangedBut.trans ((tickTransfers_frame _).mono (by simp)) (.foldl (fun s e => ?_) _ _)
  simp (maxDischargeDepth := 30) [returnTimedOut]

@[simp] theorem countTransfers_unchanged {L : List Part} {s t : State}
    (hL : ∀ p ∈ ([.journal, .day, .windows, .transfers, .drawers, .jsu, .buffers, .screens, .inExecution] : List Part), p ∈ L)
    (hu : UnchangedBut L s t) : UnchangedBut L s (countTransfers t) := hu.trans ((countTransfers_frame t).mono hL)

theorem reraiseOffers_frame (d : DrawerNo) (s : State) :
    UnchangedBut [.windows] s (reraiseOffers d s) := by
  exact .foldl (fun s x => by simp (maxDischargeDepth := 30)) _ _

@[simp] theorem reraiseOffers_unchanged {L : List Part} {s t : State} (d : DrawerNo)
    (hL : ∀ p ∈ ([.windows] : List Part), p ∈ L) (hu : UnchangedBut L s t) :
    UnchangedBut L s (reraiseOffers d t) := hu.trans ((reraiseOffers_frame d t).mono hL)

theorem askReraise_frame (d : DrawerNo) (s : State) :
    UnchangedBut [.windows, .inExecution, .turns] s (askReraise d s) := by
  unfold askReraise; split <;> simp (maxDischargeDepth := 30)

@[simp] theorem askReraise_unchanged {L : List Part} {s t : State} (d : DrawerNo)
    (hL : ∀ p ∈ ([.windows, .inExecution, .turns] : List Part), p ∈ L) (hu : UnchangedBut L s t) :
    UnchangedBut L s (askReraise d t) := hu.trans ((askReraise_frame d t).mono hL)

theorem restartReceiver_frame (f : Fld Nat) (s : State) :
    UnchangedBut [.screens, .idles] s (restartReceiver f s) := by
  unfold restartReceiver; split <;> simp (maxDischargeDepth := 30)

@[simp] theorem restartReceiver_unchanged {L : List Part} {s t : State} (f : Fld Nat)
    (hL : ∀ p ∈ ([.screens, .idles] : List Part), p ∈ L) (hu : UnchangedBut L s t) :
    UnchangedBut L s (restartReceiver f t) := hu.trans ((restartReceiver_frame f t).mono hL)

theorem putBuffer_frame (b : BufferNo) (x : RowBuffer) (s : State) :
    UnchangedBut [.buffers, .owners, .fields, .screens] s (putBuffer b x s) := by
  have h := (UnchangedBut.ofRendered (s := { s with scu := { s.scu with buffers := s.scu.buffers.set b x } })
    (markDirty_rendered _)).mono (m := [.buffers, .owners, .fields, .screens]) (by simp)
  refine UnchangedBut.trans (fun p hp => ?_) h
  cases p <;> first
    | exact absurd (by decide) hp
    | exact rfl | exact fun _ => rfl | exact ⟨rfl, rfl⟩ | exact ⟨rfl, rfl, fun _ => rfl⟩ | exact fun _ => ⟨rfl, rfl⟩
    | exact fun _ => ⟨rfl, rfl, rfl, rfl, rfl⟩

@[simp] theorem putBuffer_unchanged {L : List Part} {s t : State} (b : BufferNo) (x : RowBuffer)
    (hL : ∀ p ∈ ([.buffers, .owners, .fields, .screens] : List Part), p ∈ L) (hu : UnchangedBut L s t) :
    UnchangedBut L s (putBuffer b x t) := hu.trans ((putBuffer_frame b x t).mono hL)

theorem setMap_frame (p : Position) (r : Row) (b : Option BufferNo) (s : State) :
    UnchangedBut [.buffers, .owners, .screens, .maps] s (setMap p r b s) := by
  have key : ∀ (f : Nat → Nat) (o : Option BufferNo) (x : Table RowBuffer 192) (k : BufferNo),
      ((changeRefs f o x).get k).fields = (x.get k).fields := by
    intro f o x k
    unfold changeRefs
    split
    · rw [Table.get_modify]; split <;> simp_all
    · rfl
  have hs : ∀ q, ∃ m d, (setMap p r b s).scu.screens.get q =
      { s.scu.screens.get q with map := m, dirty := d } := fun q => by
    simp only [setMap, Table.get_modify]
    split
    · subst_vars; exact ⟨_, _, rfl⟩
    · exact ⟨_, _, rfl⟩
  intro q hq
  cases q <;> first
    | exact absurd (by decide) hq
    | exact rfl
    | exact ⟨rfl, rfl⟩ | exact ⟨rfl, rfl, fun _ => rfl⟩
    | exact fun k => (key _ _ _ _).trans (key _ _ _ _)
    | (intro m; obtain ⟨x, y, hx⟩ := hs m; simp [hx])
    | exact fun _ => rfl | exact fun _ => ⟨rfl, rfl⟩

@[simp] theorem setMap_unchanged {L : List Part} {s t : State} (p : Position) (r : Row) (b : Option BufferNo)
    (hL : ∀ p ∈ ([.buffers, .owners, .screens, .maps] : List Part), p ∈ L) (hu : UnchangedBut L s t) :
    UnchangedBut L s (setMap p r b t) := hu.trans ((setMap_frame p r b t).mono hL)

theorem clearLock_eq (x : Screen) : ∃ d, clearLock x = { x with lockHeld := false, dirty := d } := by
  unfold clearLock; dsimp only; split <;> exact ⟨_, rfl⟩

theorem lockScreen_eq (x : Screen) :
    ∃ d, lockScreen x = { x with lockHeld := true, idle := none, dirty := d } := by
  unfold lockScreen; dsimp only; split <;> exact ⟨_, rfl⟩

theorem endScreenBinding_frame (p : Position) (s : State) :
    UnchangedBut [.screens, .locks, .idles] s (endScreenBinding p s) := by
  refine .ofScreens p _ (by decide) (.inr fun x => ?_) (.inl (by decide)) (.inl (by decide)) (.inr fun x => ?_)
  · obtain ⟨d, h⟩ := clearLock_eq x; simp [h]
  · obtain ⟨d, h⟩ := clearLock_eq x; simp [h]

@[simp] theorem endScreenBinding_unchanged {L : List Part} {s t : State} (p : Position)
    (hL : ∀ p ∈ ([.screens, .locks, .idles] : List Part), p ∈ L) (hu : UnchangedBut L s t) :
    UnchangedBut L s (endScreenBinding p t) := hu.trans ((endScreenBinding_frame p t).mono hL)

theorem bindScreen_frame (p : Position) (b : Bool) (s : State) :
    UnchangedBut [.screens, .locks, .idles, .inExecution, .turns] s (bindScreen p b s) := by
  unfold bindScreen takeBinding; split
  · simp
  · split <;> simp

@[simp] theorem bindScreen_unchanged {L : List Part} {s t : State} (p : Position) (b : Bool)
    (hL : ∀ p ∈ ([.screens, .locks, .idles, .inExecution, .turns] : List Part), p ∈ L) (hu : UnchangedBut L s t) :
    UnchangedBut L s (bindScreen p b t) := hu.trans ((bindScreen_frame p b t).mono hL)

theorem expireIdle_frame (p : Position) (s : State) :
    UnchangedBut [.screens, .locks, .idles, .windows] s (expireIdle p s) := by
  refine raiseAt_unchanged p _ (by simp) ?_
  refine .ofScreens p _ (by decide) (.inr fun x => ?_) (.inl (by decide)) (.inl (by decide)) (.inr fun x => ?_)
  · obtain ⟨d, h⟩ := lockScreen_eq x; simp [h]
  · obtain ⟨d, h⟩ := lockScreen_eq x; simp [h]

@[simp] theorem expireIdle_unchanged {L : List Part} {s t : State} (p : Position)
    (hL : ∀ p ∈ ([.screens, .locks, .idles, .windows] : List Part), p ∈ L) (hu : UnchangedBut L s t) :
    UnchangedBut L s (expireIdle p t) := hu.trans ((expireIdle_frame p t).mono hL)

theorem tickIdle_frame (p : Position) (s : State) :
    UnchangedBut [.screens, .locks, .idles, .windows] s (tickIdle s p) := by
  unfold tickIdle
  split
  · split
    · exact expireIdle_frame p s
    · exact .ofScreens p _ (by decide) (.inr fun _ => ⟨rfl, rfl, rfl, rfl, rfl⟩) (.inl (by decide))
        (.inl (by decide)) (.inr fun _ => rfl)
  · exact .refl _ s

theorem tickScu_frame (s : State) :
    UnchangedBut [.windows, .buffers, .screens, .locks, .idles] s (tickScu s) := by
  unfold tickScu
  exact UnchangedBut.trans (by simp) (.foldl (fun s p => tickIdle_frame p s |>.mono (by simp)) _ _)

@[simp] theorem tickScu_unchanged {L : List Part} {s t : State}
    (hL : ∀ p ∈ ([.windows, .buffers, .screens, .locks, .idles] : List Part), p ∈ L) (hu : UnchangedBut L s t) :
    UnchangedBut L s (tickScu t) := hu.trans ((tickScu_frame t).mono hL)

theorem sendRow_frame (p : Position) (n : Row) (k : Nat) (s : State) :
    UnchangedBut [.screens, .lines, .out] s (sendRow p n k s) :=
  emitDisplay_unchanged p _ (by simp) (.ofScreens p _ (by decide) (.inl (by decide)) (.inr fun _ => rfl)
    (.inr fun _ => rfl) (.inr fun _ => rfl))

@[simp] theorem sendRow_unchanged {L : List Part} {s t : State} (p : Position) (n : Row) (k : Nat)
    (hL : ∀ p ∈ ([.screens, .lines, .out] : List Part), p ∈ L) (hu : UnchangedBut L s t) :
    UnchangedBut L s (sendRow p n k t) := hu.trans ((sendRow_frame p n k t).mono hL)

theorem silenceLine_frame (p : Position) (n : Row) (s : State) :
    UnchangedBut [.screens, .lines, .windows] s (silenceLine p n s) :=
  raiseAt_unchanged p _ (by simp) (.ofScreens p _ (by decide) (.inl (by decide)) (.inr fun _ => rfl)
    (.inr fun _ => rfl) (.inr fun _ => rfl))

@[simp] theorem silenceLine_unchanged {L : List Part} {s t : State} (p : Position) (n : Row)
    (hL : ∀ p ∈ ([.screens, .lines, .windows] : List Part), p ∈ L) (hu : UnchangedBut L s t) :
    UnchangedBut L s (silenceLine p n t) := hu.trans ((silenceLine_frame p n t).mono hL)

theorem sendProbe_frame (p : Position) (s : State) :
    UnchangedBut [.screens, .lines, .out] s (sendProbe p s) :=
  emitDisplay_unchanged p _ (by simp) (.ofScreens p _ (by decide) (.inl (by decide)) (.inr fun _ => rfl)
    (.inr fun _ => rfl) (.inr fun _ => rfl))

@[simp] theorem sendProbe_unchanged {L : List Part} {s t : State} (p : Position)
    (hL : ∀ p ∈ ([.screens, .lines, .out] : List Part), p ∈ L) (hu : UnchangedBut L s t) :
    UnchangedBut L s (sendProbe p t) := hu.trans ((sendProbe_frame p t).mono hL)

theorem restoreLine_frame (p : Position) (s : State) :
    UnchangedBut [.screens, .lines, .windows] s (restoreLine p s) :=
  raiseAt_unchanged p _ (by simp) (.ofScreens p _ (by decide) (.inl (by decide)) (.inr fun _ => rfl)
    (.inr fun _ => rfl) (.inr fun _ => rfl))

@[simp] theorem restoreLine_unchanged {L : List Part} {s t : State} (p : Position)
    (hL : ∀ p ∈ ([.screens, .lines, .windows] : List Part), p ∈ L) (hu : UnchangedBut L s t) :
    UnchangedBut L s (restoreLine p t) := hu.trans ((restoreLine_frame p t).mono hL)

theorem boardAfterDefine_frame (c : Currency) (s : State) :
    UnchangedBut [.board, .buffers, .screens, .inExecution] s (boardAfterDefine c s) := by
  unfold boardAfterDefine; split <;> simp (maxDischargeDepth := 30)

@[simp] theorem boardAfterDefine_unchanged {L : List Part} {s t : State} (c : Currency)
    (hL : ∀ p ∈ ([.board, .buffers, .screens, .inExecution] : List Part), p ∈ L) (hu : UnchangedBut L s t) :
    UnchangedBut L s (boardAfterDefine c t) := hu.trans ((boardAfterDefine_frame c t).mono hL)

theorem closeDrawer_frame (n : DrawerNo) (s : State) :
    UnchangedBut [.journal, .day, .windows, .drawers, .counted, .buffers, .screens, .inExecution] s (closeDrawer n s) := by
  simp (maxDischargeDepth := 30) [closeDrawer, modifyDrawer_unchanged]

@[simp] theorem closeDrawer_unchanged {L : List Part} {s t : State} (n : DrawerNo)
    (hL : ∀ p ∈ ([.journal, .day, .windows, .drawers, .counted, .buffers, .screens, .inExecution] : List Part), p ∈ L) (hu : UnchangedBut L s t) :
    UnchangedBut L s (closeDrawer n t) := hu.trans ((closeDrawer_frame n t).mono hL)

theorem storeDifference_frame (n : DrawerNo) (c : Counts) (s : State) :
    UnchangedBut [.drawers, .counted, .buffers, .screens, .inExecution] s (storeDifference n c s) := by
  simp (maxDischargeDepth := 30) [storeDifference, modifyDrawer_unchanged]

@[simp] theorem storeDifference_unchanged {L : List Part} {s t : State} (n : DrawerNo) (c : Counts)
    (hL : ∀ p ∈ ([.drawers, .counted, .buffers, .screens, .inExecution] : List Part), p ∈ L) (hu : UnchangedBut L s t) :
    UnchangedBut L s (storeDifference n c t) := hu.trans ((storeDifference_frame n c t).mono hL)

theorem openDrawers_frame (f : Drawer → Bool) (s : State) :
    UnchangedBut [.drawers, .counted, .buffers, .screens, .inExecution] s (openDrawers f s) := by
  refine report_unchanged _ (by simp) (fun p hp => ?_)
  cases p <;> first
    | exact absurd (by decide) hp
    | exact rfl | exact ⟨rfl, rfl⟩ | exact ⟨rfl, rfl, fun _ => rfl⟩
    | (intro d; simp only [Table.get_map]; split <;> rfl)
    | exact fun _ => rfl | exact fun _ => ⟨rfl, rfl⟩ | exact fun _ => ⟨rfl, rfl, rfl, rfl, rfl⟩

@[simp] theorem openDrawers_unchanged {L : List Part} {s t : State} (f : Drawer → Bool)
    (hL : ∀ p ∈ ([.drawers, .counted, .buffers, .screens, .inExecution] : List Part), p ∈ L) (hu : UnchangedBut L s t) :
    UnchangedBut L s (openDrawers f t) := hu.trans ((openDrawers_frame f t).mono hL)

theorem captureFailed_frame (r : Record) (s : State) :
    UnchangedBut [.windows, .fault] s (captureFailed s r) := by
  unfold captureFailed; split <;> simp

theorem changeAccount_frame (n : Nat) (f : Account → Account) (s : State) :
    UnchangedBut [.accounts] s (changeAccount n f s) := by
  unfold changeAccount; split <;> simp (maxDischargeDepth := 30)

@[simp] theorem changeAccount_unchanged {L : List Part} {s t : State} (n : Nat) (f : Account → Account)
    (hL : ∀ p ∈ ([.accounts] : List Part), p ∈ L) (hu : UnchangedBut L s t) :
    UnchangedBut L s (changeAccount n f t) := hu.trans ((changeAccount_frame n f t).mono hL)

theorem registerJob_frame (n : Nat) (s : State) :
    UnchangedBut [.accounts] s (registerJob n s) := by
  simp (maxDischargeDepth := 30) [registerJob]

@[simp] theorem registerJob_unchanged {L : List Part} {s t : State} (n : Nat)
    (hL : ∀ p ∈ ([.accounts] : List Part), p ∈ L) (hu : UnchangedBut L s t) :
    UnchangedBut L s (registerJob n t) := hu.trans ((registerJob_frame n t).mono hL)

theorem endJobReference_frame (n : Nat) (s : State) :
    UnchangedBut [.accounts] s (endJobReference n s) := by
  simp (maxDischargeDepth := 30) [endJobReference]

@[simp] theorem endJobReference_unchanged {L : List Part} {s t : State} (n : Nat)
    (hL : ∀ p ∈ ([.accounts] : List Part), p ∈ L) (hu : UnchangedBut L s t) :
    UnchangedBut L s (endJobReference n t) := hu.trans ((endJobReference_frame n t).mono hL)

theorem releaseSnapshot_frame (n : Nat) (s : State) :
    UnchangedBut [.accounts] s (releaseSnapshot n s) := by
  simp (maxDischargeDepth := 30) [releaseSnapshot]

@[simp] theorem releaseSnapshot_unchanged {L : List Part} {s t : State} (n : Nat)
    (hL : ∀ p ∈ ([.accounts] : List Part), p ∈ L) (hu : UnchangedBut L s t) :
    UnchangedBut L s (releaseSnapshot n t) := hu.trans ((releaseSnapshot_frame n t).mono hL)

theorem reportPrinted_frame (n : Nat) (i : PrintItem) (p l : Nat) (s : State) :
    UnchangedBut [.accounts] s (reportPrinted n i p l s) := by
  simp (maxDischargeDepth := 30) [reportPrinted]

@[simp] theorem reportPrinted_unchanged {L : List Part} {s t : State} (n : Nat) (i : PrintItem) (p l : Nat)
    (hL : ∀ p ∈ ([.accounts] : List Part), p ∈ L) (hu : UnchangedBut L s t) :
    UnchangedBut L s (reportPrinted n i p l t) := hu.trans ((reportPrinted_frame n i p l t).mono hL)

theorem raiseFull_frame (n : Nat) (s : State) :
    UnchangedBut [.windows] s (raiseFull n s) := by
  simp (maxDischargeDepth := 30) [raiseFull]

@[simp] theorem raiseFull_unchanged {L : List Part} {s t : State} (n : Nat)
    (hL : ∀ p ∈ ([.windows] : List Part), p ∈ L) (hu : UnchangedBut L s t) :
    UnchangedBut L s (raiseFull n t) := hu.trans ((raiseFull_frame n t).mono hL)

theorem setNotes_frame (x : Table (Option JobNote) 12) (s : State) :
    UnchangedBut [.pru] s { s with pru := { s.pru with notes := x } } := fun p hp => by
  cases p <;> first
    | exact absurd (by decide) hp
    | exact rfl | exact fun _ => rfl | exact ⟨rfl, rfl⟩ | exact ⟨rfl, rfl, fun _ => rfl⟩ | exact fun _ => ⟨rfl, rfl⟩
    | exact fun _ => ⟨rfl, rfl, rfl, rfl, rfl⟩

theorem setNote_frame (j : Job) (x : NoteStatus) (s : State) :
    UnchangedBut [.pru, .buffers, .screens, .inExecution] s (setNote j x s) := by
  unfold setNote; split
  · split
    · exact report_unchanged _ (by simp) ((setNotes_frame _ s).mono (by simp))
    · simp (maxDischargeDepth := 30)
  · simp (maxDischargeDepth := 30)

@[simp] theorem setNote_unchanged {L : List Part} {s t : State} (j : Job) (x : NoteStatus)
    (hL : ∀ p ∈ ([.pru, .buffers, .screens, .inExecution] : List Part), p ∈ L) (hu : UnchangedBut L s t) :
    UnchangedBut L s (setNote j x t) := hu.trans ((setNote_frame j x t).mono hL)

theorem moveJob_frame (i : Fin 16) (j : Job) (x : JobState) (s : State) :
    UnchangedBut [.pru, .buffers, .screens, .inExecution] s (moveJob i j x s) := by
  simp (maxDischargeDepth := 30) [moveJob]

@[simp] theorem moveJob_unchanged {L : List Part} {s t : State} (i : Fin 16) (j : Job) (x : JobState)
    (hL : ∀ p ∈ ([.pru, .buffers, .screens, .inExecution] : List Part), p ∈ L) (hu : UnchangedBut L s t) :
    UnchangedBut L s (moveJob i j x t) := hu.trans ((moveJob_frame i j x t).mono hL)

theorem raiseAttention_frame (c : PrintCondition) (j : Job) (s : State) :
    UnchangedBut [.windows] s (raiseAttention c j s) := by
  simp (maxDischargeDepth := 30) [raiseAttention]

@[simp] theorem raiseAttention_unchanged {L : List Part} {s t : State} (c : PrintCondition) (j : Job)
    (hL : ∀ p ∈ ([.windows] : List Part), p ∈ L) (hu : UnchangedBut L s t) :
    UnchangedBut L s (raiseAttention c j t) := hu.trans ((raiseAttention_frame c j t).mono hL)

theorem startNext_frame (p : PrinterNo) (s : State) :
    UnchangedBut [.pru, .windows, .buffers, .screens, .inExecution] s (startNext p s) := by
  unfold startNext; split
  · split <;> simp (maxDischargeDepth := 30)
  · simp (maxDischargeDepth := 30)

@[simp] theorem startNext_unchanged {L : List Part} {s t : State} (p : PrinterNo)
    (hL : ∀ p ∈ ([.pru, .windows, .buffers, .screens, .inExecution] : List Part), p ∈ L) (hu : UnchangedBut L s t) :
    UnchangedBut L s (startNext p t) := hu.trans ((startNext_frame p t).mono hL)

theorem endAtPlu_frame (j : Job) (s : State) :
    UnchangedBut [.accounts] s (endAtPlu j s) := by
  unfold endAtPlu; split <;> simp (maxDischargeDepth := 30)

@[simp] theorem endAtPlu_unchanged {L : List Part} {s t : State} (j : Job)
    (hL : ∀ p ∈ ([.accounts] : List Part), p ∈ L) (hu : UnchangedBut L s t) :
    UnchangedBut L s (endAtPlu j t) := hu.trans ((endAtPlu_frame j t).mono hL)

theorem removeJob_frame (i : Fin 16) (j : Job) (s : State) : UnchangedBut [.pru] s (removeJob i j s) :=
  fun p hp => by
  cases p <;> first
    | exact absurd (by decide) hp
    | exact rfl | exact fun _ => rfl | exact ⟨rfl, rfl⟩ | exact ⟨rfl, rfl, fun _ => rfl⟩ | exact fun _ => ⟨rfl, rfl⟩
    | exact fun _ => ⟨rfl, rfl, rfl, rfl, rfl⟩

@[simp] theorem removeJob_unchanged {L : List Part} {s t : State} (i : Fin 16) (j : Job)
    (hL : ∀ p ∈ ([.pru] : List Part), p ∈ L) (hu : UnchangedBut L s t) :
    UnchangedBut L s (removeJob i j t) := hu.trans ((removeJob_frame i j t).mono hL)

theorem freePrinter_frame (j : Job) (s : State) :
    UnchangedBut [.pru, .windows, .buffers, .screens, .inExecution] s (freePrinter j s) := by
  unfold freePrinter; split <;> simp (maxDischargeDepth := 30)

@[simp] theorem freePrinter_unchanged {L : List Part} {s t : State} (j : Job)
    (hL : ∀ p ∈ ([.pru, .windows, .buffers, .screens, .inExecution] : List Part), p ∈ L) (hu : UnchangedBut L s t) :
    UnchangedBut L s (freePrinter j t) := hu.trans ((freePrinter_frame j t).mono hL)

theorem endJob_frame (i : Fin 16) (j : Job) (e : JobEnd) (s : State) :
    UnchangedBut [.accounts, .pru, .buffers, .screens, .windows, .inExecution] s (endJob i j e s) := by
  simp (maxDischargeDepth := 30) [endJob]

@[simp] theorem endJob_unchanged {L : List Part} {s t : State} (i : Fin 16) (j : Job) (e : JobEnd)
    (hL : ∀ p ∈ ([.accounts, .pru, .buffers, .screens, .windows, .inExecution] : List Part), p ∈ L) (hu : UnchangedBut L s t) :
    UnchangedBut L s (endJob i j e t) := hu.trans ((endJob_frame i j e t).mono hL)

theorem clearBook_frame (p : PrinterNo) (s : State) :
    UnchangedBut [.pru] s (clearBook p s) := by
  unfold clearBook; split <;> simp (maxDischargeDepth := 30)

@[simp] theorem clearBook_unchanged {L : List Part} {s t : State} (p : PrinterNo)
    (hL : ∀ p ∈ ([.pru] : List Part), p ∈ L) (hu : UnchangedBut L s t) :
    UnchangedBut L s (clearBook p t) := hu.trans ((clearBook_frame p t).mono hL)

theorem rePrompt_frame (p : PrinterNo) (i : Fin 16) (j : Job) (c : PrintCondition) (s : State) :
    UnchangedBut [.pru, .windows, .buffers, .screens, .inExecution] s (rePrompt p i j c s) := by
  unfold rePrompt; dsimp only; split <;> simp (maxDischargeDepth := 30)

@[simp] theorem rePrompt_unchanged {L : List Part} {s t : State} (p : PrinterNo) (i : Fin 16) (j : Job) (c : PrintCondition)
    (hL : ∀ p ∈ ([.pru, .windows, .buffers, .screens, .inExecution] : List Part), p ∈ L) (hu : UnchangedBut L s t) :
    UnchangedBut L s (rePrompt p i j c t) := hu.trans ((rePrompt_frame p i j c t).mono hL)

theorem takeBad_frame (p : PrinterNo) (i : Fin 16) (j : Job) (b : BadBook) (s : State) :
    UnchangedBut [.accounts, .pru, .buffers, .screens, .windows, .inExecution] s (takeBad p i j b s) := by
  unfold takeBad; dsimp only; split
  · simp (maxDischargeDepth := 30)
  · split <;> simp (maxDischargeDepth := 30)

@[simp] theorem takeBad_unchanged {L : List Part} {s t : State} (p : PrinterNo) (i : Fin 16) (j : Job) (b : BadBook)
    (hL : ∀ p ∈ ([.accounts, .pru, .buffers, .screens, .windows, .inExecution] : List Part), p ∈ L) (hu : UnchangedBut L s t) :
    UnchangedBut L s (takeBad p i j b t) := hu.trans ((takeBad_frame p i j b t).mono hL)

theorem beginLine_frame (p : PrinterNo) (i : Fin 16) (j : Job) (s : State) :
    UnchangedBut [.accounts, .pru, .buffers, .screens, .windows, .pacing, .inExecution] s (beginLine p i j s) := by
  unfold beginLine; dsimp only; split <;> simp (maxDischargeDepth := 30)

@[simp] theorem beginLine_unchanged {L : List Part} {s t : State} (p : PrinterNo) (i : Fin 16) (j : Job)
    (hL : ∀ p ∈ ([.accounts, .pru, .buffers, .screens, .windows, .pacing, .inExecution] : List Part), p ∈ L) (hu : UnchangedBut L s t) :
    UnchangedBut L s (beginLine p i j t) := hu.trans ((beginLine_frame p i j t).mono hL)

theorem beginStripe_frame (p : PrinterNo) (i : Fin 16) (j : Job) (e : JobEnd) (s : State) :
    UnchangedBut [.pru, .buffers, .screens, .inExecution] s (beginStripe p i j e s) := by
  simp (maxDischargeDepth := 30) [beginStripe]

@[simp] theorem beginStripe_unchanged {L : List Part} {s t : State} (p : PrinterNo) (i : Fin 16) (j : Job) (e : JobEnd)
    (hL : ∀ p ∈ ([.pru, .buffers, .screens, .inExecution] : List Part), p ∈ L) (hu : UnchangedBut L s t) :
    UnchangedBut L s (beginStripe p i j e t) := hu.trans ((beginStripe_frame p i j e t).mono hL)

theorem beginTurn_frame (p : PrinterNo) (i : Fin 16) (j : Job) (n : Nat) (s : State) :
    UnchangedBut [.pru, .buffers, .screens, .inExecution] s (beginTurn p i j n s) := by
  simp (maxDischargeDepth := 30) [beginTurn]

@[simp] theorem beginTurn_unchanged {L : List Part} {s t : State} (p : PrinterNo) (i : Fin 16) (j : Job) (n : Nat)
    (hL : ∀ p ∈ ([.pru, .buffers, .screens, .inExecution] : List Part), p ∈ L) (hu : UnchangedBut L s t) :
    UnchangedBut L s (beginTurn p i j n t) := hu.trans ((beginTurn_frame p i j n t).mono hL)

theorem proceed_frame (p : PrinterNo) (i : Fin 16) (j : Job) (s : State) :
    UnchangedBut [.accounts, .pru, .buffers, .screens, .windows, .pacing, .inExecution] s (proceed p i j s) := by
  unfold proceed; split
  · simp (maxDischargeDepth := 30)
  · dsimp only; split
    · split <;> simp (maxDischargeDepth := 30)
    · split <;> simp (maxDischargeDepth := 30)

@[simp] theorem proceed_unchanged {L : List Part} {s t : State} (p : PrinterNo) (i : Fin 16) (j : Job)
    (hL : ∀ p ∈ ([.accounts, .pru, .buffers, .screens, .windows, .pacing, .inExecution] : List Part), p ∈ L) (hu : UnchangedBut L s t) :
    UnchangedBut L s (proceed p i j t) := hu.trans ((proceed_frame p i j t).mono hL)

theorem insertBook_frame (p : PrinterNo) (s : State) :
    UnchangedBut [.pru] s (insertBook p s) := by
  unfold insertBook; split
  · split <;> simp (maxDischargeDepth := 30)
  · simp (maxDischargeDepth := 30)

@[simp] theorem insertBook_unchanged {L : List Part} {s t : State} (p : PrinterNo)
    (hL : ∀ p ∈ ([.pru] : List Part), p ∈ L) (hu : UnchangedBut L s t) :
    UnchangedBut L s (insertBook p t) := hu.trans ((insertBook_frame p t).mono hL)

theorem takeEdge_frame (p : PrinterNo) (n : Nat) (s : State) :
    UnchangedBut [.pru, .buffers, .screens, .inExecution] s (takeEdge p n s) := by
  unfold takeEdge; dsimp only; split
  · split <;> simp (maxDischargeDepth := 30)
  · simp (maxDischargeDepth := 30)

@[simp] theorem takeEdge_unchanged {L : List Part} {s t : State} (p : PrinterNo) (n : Nat)
    (hL : ∀ p ∈ ([.pru, .buffers, .screens, .inExecution] : List Part), p ∈ L) (hu : UnchangedBut L s t) :
    UnchangedBut L s (takeEdge p n t) := hu.trans ((takeEdge_frame p n t).mono hL)

theorem takeSnapshot_frame (j : Job) (s : State) : UnchangedBut [.accounts] s (takeSnapshot j s).2 := by
  unfold takeSnapshot; split <;> simp

theorem readFirst_frame (p : PrinterNo) (i : Fin 16) (j : Job) (x : Option StripeData) (s : State) :
    UnchangedBut [.accounts, .pru, .buffers, .screens, .windows, .pacing, .inExecution] s (readFirst p i j x s) := by
  unfold readFirst; split
  · exact proceed_unchanged _ _ _ (by simp) ((takeSnapshot_frame j s).mono (by simp))
  · simp (maxDischargeDepth := 30)

@[simp] theorem readFirst_unchanged {L : List Part} {s t : State} (p : PrinterNo) (i : Fin 16) (j : Job) (x : Option StripeData)
    (hL : ∀ p ∈ ([.accounts, .pru, .buffers, .screens, .windows, .pacing, .inExecution] : List Part), p ∈ L) (hu : UnchangedBut L s t) :
    UnchangedBut L s (readFirst p i j x t) := hu.trans ((readFirst_frame p i j x t).mono hL)

theorem readAgain_frame (p : PrinterNo) (i : Fin 16) (j : Job) (x : Option StripeData) (s : State) :
    UnchangedBut [.accounts, .pru, .buffers, .screens, .windows, .pacing, .inExecution] s (readAgain p i j x s) := by
  unfold readAgain; dsimp only; split
  · split <;> simp (maxDischargeDepth := 30)
  · simp (maxDischargeDepth := 30)

@[simp] theorem readAgain_unchanged {L : List Part} {s t : State} (p : PrinterNo) (i : Fin 16) (j : Job) (x : Option StripeData)
    (hL : ∀ p ∈ ([.accounts, .pru, .buffers, .screens, .windows, .pacing, .inExecution] : List Part), p ∈ L) (hu : UnchangedBut L s t) :
    UnchangedBut L s (readAgain p i j x t) := hu.trans ((readAgain_frame p i j x t).mono hL)

theorem stripeRead_frame (p : PrinterNo) (x : Option StripeData) (s : State) :
    UnchangedBut [.accounts, .pru, .buffers, .screens, .windows, .pacing, .inExecution] s (stripeRead p x s) := by
  unfold stripeRead; dsimp only; split
  · split <;> simp (maxDischargeDepth := 30)
  · simp (maxDischargeDepth := 30)

@[simp] theorem stripeRead_unchanged {L : List Part} {s t : State} (p : PrinterNo) (x : Option StripeData)
    (hL : ∀ p ∈ ([.accounts, .pru, .buffers, .screens, .windows, .pacing, .inExecution] : List Part), p ∈ L) (hu : UnchangedBut L s t) :
    UnchangedBut L s (stripeRead p x t) := hu.trans ((stripeRead_frame p x t).mono hL)

theorem reportItem_frame (j : Job) (s : State) :
    UnchangedBut [.accounts] s (reportItem j s) := by
  unfold reportItem; split <;> simp (maxDischargeDepth := 30)

@[simp] theorem reportItem_unchanged {L : List Part} {s t : State} (j : Job)
    (hL : ∀ p ∈ ([.accounts] : List Part), p ∈ L) (hu : UnchangedBut L s t) :
    UnchangedBut L s (reportItem j t) := hu.trans ((reportItem_frame j t).mono hL)

theorem linePrinted_frame (p : PrinterNo) (i : Fin 16) (j : Job) (s : State) :
    UnchangedBut [.accounts, .pru, .buffers, .screens, .windows, .pacing, .inExecution] s (linePrinted p i j s) := by
  unfold linePrinted; dsimp only; split <;> simp (maxDischargeDepth := 30)

@[simp] theorem linePrinted_unchanged {L : List Part} {s t : State} (p : PrinterNo) (i : Fin 16) (j : Job)
    (hL : ∀ p ∈ ([.accounts, .pru, .buffers, .screens, .windows, .pacing, .inExecution] : List Part), p ∈ L) (hu : UnchangedBut L s t) :
    UnchangedBut L s (linePrinted p i j t) := hu.trans ((linePrinted_frame p i j t).mono hL)

theorem stripeFailed_frame (p : PrinterNo) (i : Fin 16) (j : Job) (s : State) :
    UnchangedBut [.pru, .buffers, .screens, .inExecution] s (stripeFailed p i j s) := by
  simp (maxDischargeDepth := 30) [stripeFailed]

@[simp] theorem stripeFailed_unchanged {L : List Part} {s t : State} (p : PrinterNo) (i : Fin 16) (j : Job)
    (hL : ∀ p ∈ ([.pru, .buffers, .screens, .inExecution] : List Part), p ∈ L) (hu : UnchangedBut L s t) :
    UnchangedBut L s (stripeFailed p i j t) := hu.trans ((stripeFailed_frame p i j t).mono hL)

theorem stripeWritten_frame (p : PrinterNo) (i : Fin 16) (j : Job) (w : WritePurpose) (s : State) :
    UnchangedBut [.pru, .windows, .buffers, .screens, .inExecution] s (stripeWritten p i j w s) := by
  unfold stripeWritten; split
  · simp (maxDischargeDepth := 30)
  · simp (maxDischargeDepth := 30)
  · split <;> simp (maxDischargeDepth := 30)

@[simp] theorem stripeWritten_unchanged {L : List Part} {s t : State} (p : PrinterNo) (i : Fin 16) (j : Job) (w : WritePurpose)
    (hL : ∀ p ∈ ([.pru, .windows, .buffers, .screens, .inExecution] : List Part), p ∈ L) (hu : UnchangedBut L s t) :
    UnchangedBut L s (stripeWritten p i j w t) := hu.trans ((stripeWritten_frame p i j w t).mono hL)

theorem stripeVerified_frame (p : PrinterNo) (w : WritePurpose) (b : Bool) (x : Option (List Byte)) (s : State) :
    UnchangedBut [.pru, .windows, .buffers, .screens, .inExecution] s (stripeVerified p w b x s) := by
  unfold stripeVerified; split
  · split
    · simp (maxDischargeDepth := 30)
    · split <;> simp (maxDischargeDepth := 30)
  · simp (maxDischargeDepth := 30)

@[simp] theorem stripeVerified_unchanged {L : List Part} {s t : State} (p : PrinterNo) (w : WritePurpose) (b : Bool) (x : Option (List Byte))
    (hL : ∀ p ∈ ([.pru, .windows, .buffers, .screens, .inExecution] : List Part), p ∈ L) (hu : UnchangedBut L s t) :
    UnchangedBut L s (stripeVerified p w b x t) := hu.trans ((stripeVerified_frame p w b x t).mono hL)

theorem ejected_frame (p : PrinterNo) (w : EjectPurpose) (s : State) :
    UnchangedBut [.accounts, .pru, .buffers, .screens, .windows, .inExecution] s (ejected p w s) := by
  unfold ejected; split
  · simp (maxDischargeDepth := 30)
  · split <;> simp (maxDischargeDepth := 30)
  · simp (maxDischargeDepth := 30)

@[simp] theorem ejected_unchanged {L : List Part} {s t : State} (p : PrinterNo) (w : EjectPurpose)
    (hL : ∀ p ∈ ([.accounts, .pru, .buffers, .screens, .windows, .inExecution] : List Part), p ∈ L) (hu : UnchangedBut L s t) :
    UnchangedBut L s (ejected p w t) := hu.trans ((ejected_frame p w t).mono hL)

theorem bookPulled_frame (m : Motion) (i : Fin 16) (j : Job) (s : State) :
    UnchangedBut [.accounts, .pru, .buffers, .screens, .windows, .inExecution] s (bookPulled m i j s) := by
  unfold bookPulled; split <;> first
    | simp (maxDischargeDepth := 30)
    | (split <;> simp (maxDischargeDepth := 30))

@[simp] theorem bookPulled_unchanged {L : List Part} {s t : State} (m : Motion) (i : Fin 16) (j : Job)
    (hL : ∀ p ∈ ([.accounts, .pru, .buffers, .screens, .windows, .inExecution] : List Part), p ∈ L) (hu : UnchangedBut L s t) :
    UnchangedBut L s (bookPulled m i j t) := hu.trans ((bookPulled_frame m i j t).mono hL)

theorem jam_frame (p : PrinterNo) (i : Fin 16) (j : Job) (s : State) :
    UnchangedBut [.accounts, .pru, .buffers, .screens, .windows, .fault, .inExecution] s (jam p i j s) := by
  simp (maxDischargeDepth := 30) [jam]

@[simp] theorem jam_unchanged {L : List Part} {s t : State} (p : PrinterNo) (i : Fin 16) (j : Job)
    (hL : ∀ p ∈ ([.accounts, .pru, .buffers, .screens, .windows, .fault, .inExecution] : List Part), p ∈ L) (hu : UnchangedBut L s t) :
    UnchangedBut L s (jam p i j t) := hu.trans ((jam_frame p i j t).mono hL)

theorem queueJob_frame (i : Fin 16) (j : Job) (s : State) :
    UnchangedBut [.pru, .buffers, .screens, .inExecution] s (queueJob i j s) := by
  refine report_unchanged _ (by simp) (fun p hp => ?_)
  cases p <;> first
    | exact absurd (by decide) hp
    | exact rfl | exact fun _ => rfl | exact ⟨rfl, rfl⟩ | exact ⟨rfl, rfl, fun _ => rfl⟩ | exact fun _ => ⟨rfl, rfl⟩
    | exact fun _ => ⟨rfl, rfl, rfl, rfl, rfl⟩

@[simp] theorem queueJob_unchanged {L : List Part} {s t : State} (i : Fin 16) (j : Job)
    (hL : ∀ p ∈ ([.pru, .buffers, .screens, .inExecution] : List Part), p ∈ L) (hu : UnchangedBut L s t) :
    UnchangedBut L s (queueJob i j t) := hu.trans ((queueJob_frame i j t).mono hL)

theorem clearServed_frame (p : PrinterNo) (s : State) :
    UnchangedBut [.pru] s (clearServed p s) := by
  unfold clearServed; split <;> simp

@[simp] theorem clearServed_unchanged {L : List Part} {s t : State} (p : PrinterNo)
    (hL : ∀ p ∈ ([.pru] : List Part), p ∈ L) (hu : UnchangedBut L s t) :
    UnchangedBut L s (clearServed p t) := hu.trans ((clearServed_frame p t).mono hL)

theorem clearBooks_frame (s : State) :
    UnchangedBut [.pru] s (clearBooks s) := by
  simp (maxDischargeDepth := 30) [clearBooks]

@[simp] theorem clearBooks_unchanged {L : List Part} {s t : State}
    (hL : ∀ p ∈ ([.pru] : List Part), p ∈ L) (hu : UnchangedBut L s t) :
    UnchangedBut L s (clearBooks t) := hu.trans ((clearBooks_frame t).mono hL)

theorem sealAnswered_frame (b : Bool) (s : State) :
    UnchangedBut [.pru] s { s with pru := { s.pru with sealAnswered := b } } := fun p hp => by
  cases p <;> first
    | exact absurd (by decide) hp
    | exact rfl | exact fun _ => rfl | exact ⟨rfl, rfl⟩ | exact ⟨rfl, rfl, fun _ => rfl⟩ | exact fun _ => ⟨rfl, rfl⟩
    | exact fun _ => ⟨rfl, rfl, rfl, rfl, rfl⟩

theorem cancelForSeal_frame (i : Fin 16) (s : State) :
    UnchangedBut [.accounts, .pru, .buffers, .screens, .windows, .inExecution] s (cancelForSeal s i) := by
  unfold cancelForSeal; split <;> simp

theorem sealPrinters_frame (s : State) :
    UnchangedBut [.accounts, .pru, .buffers, .screens, .windows, .inExecution] s (sealPrinters s) := by
  refine UnchangedBut.trans ?_ ((sealAnswered_frame true _).mono (by simp))
  exact clearBooks_unchanged (by simp) (.foldl (fun s i => cancelForSeal_frame i s) _ _)

@[simp] theorem sealPrinters_unchanged {L : List Part} {s t : State}
    (hL : ∀ p ∈ ([.accounts, .pru, .buffers, .screens, .windows, .inExecution] : List Part), p ∈ L) (hu : UnchangedBut L s t) :
    UnchangedBut L s (sealPrinters t) := hu.trans ((sealPrinters_frame t).mono hL)

theorem raiseFormatted_frame (s : State) :
    UnchangedBut [.windows] s (raiseFormatted s) := by
  exact .foldl (fun s e => by simp (maxDischargeDepth := 30)) _ _

@[simp] theorem raiseFormatted_unchanged {L : List Part} {s t : State}
    (hL : ∀ p ∈ ([.windows] : List Part), p ∈ L) (hu : UnchangedBut L s t) :
    UnchangedBut L s (raiseFormatted t) := hu.trans ((raiseFormatted_frame t).mono hL)

theorem dayChanged_frame (x : DayState) (s : State) :
    UnchangedBut [.windows, .buffers, .screens, .inExecution] s (dayChanged x s) := by
  simp (maxDischargeDepth := 30) [dayChanged]

@[simp] theorem dayChanged_unchanged {L : List Part} {s t : State} (x : DayState)
    (hL : ∀ p ∈ ([.windows, .buffers, .screens, .inExecution] : List Part), p ∈ L) (hu : UnchangedBut L s t) :
    UnchangedBut L s (dayChanged x t) := hu.trans ((dayChanged_frame x t).mono hL)

theorem appendDay_frame (k : RecordKind) (d : Option Nat) (f : DayRecord → DayRecord) (s : State) :
    UnchangedBut [.journal, .day, .windows] s (appendDay k d f s) := by
  simp (maxDischargeDepth := 30) [appendDay]

@[simp] theorem appendDay_unchanged {L : List Part} {s t : State} (k : RecordKind) (d : Option Nat) (f : DayRecord → DayRecord)
    (hL : ∀ p ∈ ([.journal, .day, .windows] : List Part), p ∈ L) (hu : UnchangedBut L s t) :
    UnchangedBut L s (appendDay k d f t) := hu.trans ((appendDay_frame k d f t).mono hL)

theorem sendCall_frame (s : State) :
    UnchangedBut [.sender, .out] s (sendCall s) := by
  simp (maxDischargeDepth := 30) [sendCall]

@[simp] theorem sendCall_unchanged {L : List Part} {s t : State}
    (hL : ∀ p ∈ ([.sender, .out] : List Part), p ∈ L) (hu : UnchangedBut L s t) :
    UnchangedBut L s (sendCall t) := hu.trans ((sendCall_frame t).mono hL)

theorem failureFault_frame (r : SendFailure) (s : State) :
    UnchangedBut [.windows, .fault] s (failureFault r s) := by
  unfold failureFault; split <;> simp (maxDischargeDepth := 30)

@[simp] theorem failureFault_unchanged {L : List Part} {s t : State} (r : SendFailure)
    (hL : ∀ p ∈ ([.windows, .fault] : List Part), p ∈ L) (hu : UnchangedBut L s t) :
    UnchangedBut L s (failureFault r t) := hu.trans ((failureFault_frame r t).mono hL)

theorem failSender_frame (r : SendFailure) (s : State) :
    UnchangedBut [.sender, .out, .day, .fault, .buffers, .screens, .windows, .inExecution] s (failSender r s) := by
  simp (maxDischargeDepth := 30) [failSender]

@[simp] theorem failSender_unchanged {L : List Part} {s t : State} (r : SendFailure)
    (hL : ∀ p ∈ ([.sender, .out, .day, .fault, .buffers, .screens, .windows, .inExecution] : List Part), p ∈ L) (hu : UnchangedBut L s t) :
    UnchangedBut L s (failSender r t) := hu.trans ((failSender_frame r t).mono hL)

theorem sendBlock_frame (b : Nat) (s : State) :
    UnchangedBut [.sender, .out, .day, .fault, .buffers, .screens, .windows, .inExecution] s (sendBlock b s) := by
  unfold sendBlock; split <;> simp (maxDischargeDepth := 30)

@[simp] theorem sendBlock_unchanged {L : List Part} {s t : State} (b : Nat)
    (hL : ∀ p ∈ ([.sender, .out, .day, .fault, .buffers, .screens, .windows, .inExecution] : List Part), p ∈ L) (hu : UnchangedBut L s t) :
    UnchangedBut L s (sendBlock b t) := hu.trans ((sendBlock_frame b t).mono hL)

theorem sendEnd_frame (n : Nat) (s : State) :
    UnchangedBut [.sender, .out] s (sendEnd n s) := by
  simp (maxDischargeDepth := 30) [sendEnd]

@[simp] theorem sendEnd_unchanged {L : List Part} {s t : State} (n : Nat)
    (hL : ∀ p ∈ ([.sender, .out] : List Part), p ∈ L) (hu : UnchangedBut L s t) :
    UnchangedBut L s (sendEnd n t) := hu.trans ((sendEnd_frame n t).mono hL)

theorem sendNext_frame (s : State) :
    UnchangedBut [.sender, .out, .day, .fault, .buffers, .screens, .windows, .inExecution] s (sendNext s) := by
  unfold sendNext; split <;> simp (maxDischargeDepth := 30)

@[simp] theorem sendNext_unchanged {L : List Part} {s t : State}
    (hL : ∀ p ∈ ([.sender, .out, .day, .fault, .buffers, .screens, .windows, .inExecution] : List Part), p ∈ L) (hu : UnchangedBut L s t) :
    UnchangedBut L s (sendNext t) := hu.trans ((sendNext_frame t).mono hL)

theorem fillWindow_frame (s : State) :
    UnchangedBut [.sender, .out, .day, .fault, .buffers, .screens, .windows, .inExecution] s (fillWindow s) := by
  simp (maxDischargeDepth := 30) [fillWindow]

@[simp] theorem fillWindow_unchanged {L : List Part} {s t : State}
    (hL : ∀ p ∈ ([.sender, .out, .day, .fault, .buffers, .screens, .windows, .inExecution] : List Part), p ∈ L) (hu : UnchangedBut L s t) :
    UnchangedBut L s (fillWindow t) := hu.trans ((fillWindow_frame t).mono hL)

theorem goOn_frame (s : State) :
    UnchangedBut [.sender, .out, .day, .fault, .buffers, .screens, .windows, .inExecution] s (goOn s) := by
  unfold goOn; split <;> simp (maxDischargeDepth := 30)

@[simp] theorem goOn_unchanged {L : List Part} {s t : State}
    (hL : ∀ p ∈ ([.sender, .out, .day, .fault, .buffers, .screens, .windows, .inExecution] : List Part), p ∈ L) (hu : UnchangedBut L s t) :
    UnchangedBut L s (goOn t) := hu.trans ((goOn_frame t).mono hL)

theorem resendBlock_frame (b : Nat) (s : State) :
    UnchangedBut [.sender, .out, .day, .fault, .buffers, .screens, .windows, .inExecution] s (resendBlock s b) := by
  unfold resendBlock; split <;> simp (maxDischargeDepth := 30)

@[simp] theorem resendBlock_unchanged {L : List Part} {s t : State} (b : Nat)
    (hL : ∀ p ∈ ([.sender, .out, .day, .fault, .buffers, .screens, .windows, .inExecution] : List Part), p ∈ L)
    (hu : UnchangedBut L s t) : UnchangedBut L s (resendBlock t b) := hu.trans ((resendBlock_frame b t).mono hL)

theorem retryBlock_frame (b : Nat) (s : State) :
    UnchangedBut [.sender, .out, .day, .fault, .buffers, .screens, .windows, .inExecution] s (retryBlock b s) := by
  unfold retryBlock; dsimp only; split <;> simp (maxDischargeDepth := 30)

@[simp] theorem retryBlock_unchanged {L : List Part} {s t : State} (b : Nat)
    (hL : ∀ p ∈ ([.sender, .out, .day, .fault, .buffers, .screens, .windows, .inExecution] : List Part), p ∈ L) (hu : UnchangedBut L s t) :
    UnchangedBut L s (retryBlock b t) := hu.trans ((retryBlock_frame b t).mono hL)

theorem anomaly_frame (s : State) :
    UnchangedBut [.sender] s (anomaly s) := by
  simp (maxDischargeDepth := 30) [anomaly]

@[simp] theorem anomaly_unchanged {L : List Part} {s t : State}
    (hL : ∀ p ∈ ([.sender] : List Part), p ∈ L) (hu : UnchangedBut L s t) :
    UnchangedBut L s (anomaly t) := hu.trans ((anomaly_frame t).mono hL)

theorem takeReady_frame (e : Nat) (s : State) :
    UnchangedBut [.sender, .out, .day, .fault, .buffers, .screens, .windows, .inExecution] s (takeReady e s) := by
  unfold takeReady; split
  · simp (maxDischargeDepth := 30)
  · split <;> simp (maxDischargeDepth := 30)

@[simp] theorem takeReady_unchanged {L : List Part} {s t : State} (e : Nat)
    (hL : ∀ p ∈ ([.sender, .out, .day, .fault, .buffers, .screens, .windows, .inExecution] : List Part), p ∈ L) (hu : UnchangedBut L s t) :
    UnchangedBut L s (takeReady e t) := hu.trans ((takeReady_frame e t).mono hL)

theorem takeBusy_frame (s : State) :
    UnchangedBut [.sender, .out, .day, .fault, .buffers, .screens, .windows, .inExecution] s (takeBusy s) := by
  unfold takeBusy; split <;> simp (maxDischargeDepth := 30)

@[simp] theorem takeBusy_unchanged {L : List Part} {s t : State}
    (hL : ∀ p ∈ ([.sender, .out, .day, .fault, .buffers, .screens, .windows, .inExecution] : List Part), p ∈ L) (hu : UnchangedBut L s t) :
    UnchangedBut L s (takeBusy t) := hu.trans ((takeBusy_frame t).mono hL)

theorem takeAck_frame (b : Nat) (s : State) :
    UnchangedBut [.sender, .out, .day, .fault, .buffers, .screens, .windows, .inExecution] s (takeAck b s) := by
  simp (maxDischargeDepth := 30) [takeAck]

@[simp] theorem takeAck_unchanged {L : List Part} {s t : State} (b : Nat)
    (hL : ∀ p ∈ ([.sender, .out, .day, .fault, .buffers, .screens, .windows, .inExecution] : List Part), p ∈ L) (hu : UnchangedBut L s t) :
    UnchangedBut L s (takeAck b t) := hu.trans ((takeAck_frame b t).mono hL)

theorem takeClosed_frame (l : List Byte) (s : State) :
    UnchangedBut [.sender, .out, .day, .fault, .buffers, .screens, .windows, .inExecution] s (takeClosed l s) := by
  simp (maxDischargeDepth := 30) [takeClosed]

@[simp] theorem takeClosed_unchanged {L : List Part} {s t : State} (l : List Byte)
    (hL : ∀ p ∈ ([.sender, .out, .day, .fault, .buffers, .screens, .windows, .inExecution] : List Part), p ∈ L) (hu : UnchangedBut L s t) :
    UnchangedBut L s (takeClosed l t) := hu.trans ((takeClosed_frame l t).mono hL)

theorem waitEnds_frame (s : State) :
    UnchangedBut [.sender, .out] s (waitEnds s) := by
  unfold waitEnds; split <;> simp (maxDischargeDepth := 30)

@[simp] theorem waitEnds_unchanged {L : List Part} {s t : State}
    (hL : ∀ p ∈ ([.sender, .out] : List Part), p ∈ L) (hu : UnchangedBut L s t) :
    UnchangedBut L s (waitEnds t) := hu.trans ((waitEnds_frame t).mono hL)

theorem callTimesOut_frame (s : State) :
    UnchangedBut [.sender, .out, .day, .fault, .buffers, .screens, .windows, .inExecution] s (callTimesOut s) := by
  unfold callTimesOut; split <;> simp (maxDischargeDepth := 30)

@[simp] theorem callTimesOut_unchanged {L : List Part} {s t : State}
    (hL : ∀ p ∈ ([.sender, .out, .day, .fault, .buffers, .screens, .windows, .inExecution] : List Part), p ∈ L) (hu : UnchangedBut L s t) :
    UnchangedBut L s (callTimesOut t) := hu.trans ((callTimesOut_frame t).mono hL)

theorem endTimesOut_frame (s : State) :
    UnchangedBut [.sender, .out, .day, .fault, .buffers, .screens, .windows, .inExecution] s (endTimesOut s) := by
  unfold endTimesOut; split <;> simp (maxDischargeDepth := 30)

@[simp] theorem endTimesOut_unchanged {L : List Part} {s t : State}
    (hL : ∀ p ∈ ([.sender, .out, .day, .fault, .buffers, .screens, .windows, .inExecution] : List Part), p ∈ L) (hu : UnchangedBut L s t) :
    UnchangedBut L s (endTimesOut t) := hu.trans ((endTimesOut_frame t).mono hL)

theorem tickSending_frame (s : State) :
    UnchangedBut [.sender, .out, .day, .fault, .buffers, .screens, .windows, .inExecution] s (tickSending s) := by
  unfold tickSending; dsimp only; split
  · split <;> simp (maxDischargeDepth := 30)
  · simp (maxDischargeDepth := 30)

@[simp] theorem tickSending_unchanged {L : List Part} {s t : State}
    (hL : ∀ p ∈ ([.sender, .out, .day, .fault, .buffers, .screens, .windows, .inExecution] : List Part), p ∈ L) (hu : UnchangedBut L s t) :
    UnchangedBut L s (tickSending t) := hu.trans ((tickSending_frame t).mono hL)

theorem tickCalling_frame (s : State) :
    UnchangedBut [.sender, .out, .day, .fault, .buffers, .screens, .windows, .inExecution] s (tickCalling s) := by
  unfold tickCalling; repeat (first | split | dsimp only)
  all_goals simp (maxDischargeDepth := 30)

@[simp] theorem tickCalling_unchanged {L : List Part} {s t : State}
    (hL : ∀ p ∈ ([.sender, .out, .day, .fault, .buffers, .screens, .windows, .inExecution] : List Part), p ∈ L) (hu : UnchangedBut L s t) :
    UnchangedBut L s (tickCalling t) := hu.trans ((tickCalling_frame t).mono hL)

theorem tickDlu_frame (s : State) :
    UnchangedBut [.sender, .out, .day, .fault, .buffers, .screens, .windows, .inExecution] s (tickDlu s) := by
  unfold tickDlu tickTimer; split <;> first
    | simp (maxDischargeDepth := 30)
    | (split <;> first | simp (maxDischargeDepth := 30) | (split <;> simp (maxDischargeDepth := 30)))

@[simp] theorem tickDlu_unchanged {L : List Part} {s t : State}
    (hL : ∀ p ∈ ([.sender, .out, .day, .fault, .buffers, .screens, .windows, .inExecution] : List Part), p ∈ L) (hu : UnchangedBut L s t) :
    UnchangedBut L s (tickDlu t) := hu.trans ((tickDlu_frame t).mono hL)

end Sys2Proof.Machine
end

