-- ==== Sys2Proof/Laws/Waiting.lean ====
section
/-! SUPPORT. What an event, a tick, a re-raise and a report can touch where it is taken, and what serving it, and taking
what waited, can touch. -/

namespace Sys2Proof.Machine

/-! ### Expiries and row sends -/

theorem idleTimesOut_frame (p : Position) (s : State) :
    UnchangedBut [.screens, .locks, .idles, .windows] s (idleTimesOut p s) := by
  unfold idleTimesOut
  repeat' (first | split | dsimp only)
  all_goals simp (maxDischargeDepth := 30)

theorem sendNextRow_frame (p : Position) (s : State) :
    UnchangedBut [.screens, .lines, .out] s (sendNextRow p s) := by
  unfold sendNextRow
  repeat' (first | split | dsimp only)
  all_goals simp (maxDischargeDepth := 30)

theorem callWaitDue_frame (s : State) :
    UnchangedBut [.sender, .out] s (callWaitDue s) := by
  unfold callWaitDue
  repeat' (first | split | dsimp only)
  all_goals simp (maxDischargeDepth := 30)

theorem responseTimerDue_frame (s : State) :
    UnchangedBut [.sender, .out, .day, .fault, .buffers, .screens, .windows, .inExecution] s (responseTimerDue s) := by
  unfold responseTimerDue
  repeat' (first | split | dsimp only)
  all_goals simp (maxDischargeDepth := 30)

theorem endTimerDue_frame (s : State) :
    UnchangedBut [.sender, .out, .day, .fault, .buffers, .screens, .windows, .inExecution] s (endTimerDue s) := by
  unfold endTimerDue
  repeat' (first | split | dsimp only)
  all_goals simp (maxDischargeDepth := 30)

theorem blockAgeDue_frame (s : State) :
    UnchangedBut [.sender, .out, .day, .fault, .buffers, .screens, .windows, .inExecution] s (blockAgeDue s) := by
  unfold blockAgeDue
  repeat' (first | split | dsimp only)
  all_goals simp (maxDischargeDepth := 30)

/-! ### Display lines -/

theorem ackTimesOut_frame (p : Position) (s : State) :
    UnchangedBut [.screens, .lines, .out, .windows] s (ackTimesOut p s) := by
  unfold ackTimesOut
  repeat' (first | split | dsimp only)
  all_goals simp (maxDischargeDepth := 30)

theorem probeTimesOut_frame (p : Position) (s : State) :
    UnchangedBut [.screens, .lines, .out] s (probeTimesOut p s) := by
  unfold probeTimesOut
  repeat' (first | split | dsimp only)
  all_goals simp (maxDischargeDepth := 30)

theorem takeRowAck_frame (p : Position) (n : Byte) (c : Word) (s : State) :
    UnchangedBut [.screens, .lines] s (takeRowAck p n c s) := by
  exact .ite _ (.ofScreens p _ (by decide) (.inl (by decide)) (.inr fun _ => rfl) (.inr fun _ => rfl)
    (.inr fun _ => rfl)) (.refl _ s)

theorem takeProbeAnswer_frame (p : Position) (n : Byte) (c : Word) (s : State) :
    UnchangedBut [.screens, .lines, .windows] s (takeProbeAnswer p n c s) := by
  unfold takeProbeAnswer
  repeat' (first | split | dsimp only)
  all_goals simp (maxDischargeDepth := 30)

/-! ### Frames from head office -/

theorem takeFrame_frame {L : List Part} (f : Frame) (c : Word) {k : State → State} {s : State}
    (hk : UnchangedBut L s (k s)) : UnchangedBut L s (takeFrame f c k s) :=
  .ite _ hk (.refl L s)

theorem readyArrives_frame (b c : Word) (s : State) :
    UnchangedBut [.sender, .out, .day, .fault, .buffers, .screens, .windows, .inExecution] s (readyArrives b c s) := by
  exact takeFrame_frame _ _ (by split <;> simp (maxDischargeDepth := 30))

theorem busyArrives_frame (c : Word) (s : State) :
    UnchangedBut [.sender, .out, .day, .fault, .buffers, .screens, .windows, .inExecution] s (busyArrives c s) := by
  exact takeFrame_frame _ _ (by split <;> simp (maxDischargeDepth := 30))

theorem ackArrives_frame (b c : Word) (s : State) :
    UnchangedBut [.sender, .out, .day, .fault, .buffers, .screens, .windows, .inExecution] s (ackArrives b c s) := by
  exact takeFrame_frame _ _ (by split <;> simp (maxDischargeDepth := 30))

theorem nakArrives_frame (b c : Word) (s : State) :
    UnchangedBut [.sender, .out, .day, .fault, .buffers, .screens, .windows, .inExecution] s (nakArrives b c s) := by
  exact takeFrame_frame _ _ (by split <;> simp (maxDischargeDepth := 30))

theorem closedArrives_frame (l : List Byte) (c : Word) (s : State) :
    UnchangedBut [.sender, .out, .day, .fault, .buffers, .screens, .windows, .inExecution] s (closedArrives l c s) := by
  exact takeFrame_frame _ _ (by split <;> simp (maxDischargeDepth := 30))

theorem unknownArrives_frame (l : List Byte) (s : State) :
    UnchangedBut [.sender] s (unknownArrives l s) := by
  unfold unknownArrives
  repeat' (first | split | dsimp only)
  all_goals simp (maxDischargeDepth := 30)

/-! ### Mechanisms -/

theorem bookArrives_frame (p : PrinterNo) (s : State) :
    UnchangedBut [.pru] s (bookArrives p s) := by
  unfold bookArrives
  repeat' (first | split | dsimp only)
  all_goals simp (maxDischargeDepth := 30)

theorem bookLeaves_frame (p : PrinterNo) (s : State) :
    UnchangedBut [.accounts, .pru, .buffers, .screens, .windows, .inExecution] s (bookLeaves p s) := by
  unfold bookLeaves
  repeat' (first | split | dsimp only)
  all_goals simp (maxDischargeDepth := 30)

theorem edgeFound_frame (p : PrinterNo) (n : Nat) (s : State) :
    UnchangedBut [.pru, .buffers, .screens, .inExecution] s (edgeFound p n s) := by
  unfold edgeFound
  repeat' (first | split | dsimp only)
  all_goals simp (maxDischargeDepth := 30)

theorem limitReached_frame (p : PrinterNo) (s : State) :
    UnchangedBut [.accounts, .pru, .buffers, .screens, .windows, .inExecution] s (limitReached p s) := by
  unfold limitReached
  repeat' (first | split | dsimp only)
  all_goals simp (maxDischargeDepth := 30)

theorem stripeReadEnds_frame (p : PrinterNo) (l : Option (List Byte)) (s : State) :
    UnchangedBut [.accounts, .pru, .buffers, .screens, .windows, .pacing, .inExecution] s (stripeReadEnds p l s) := by
  unfold stripeReadEnds
  repeat' (first | split | dsimp only)
  all_goals simp (maxDischargeDepth := 30)

theorem stripeWriteEnds_frame (p : PrinterNo) (l : Option (List Byte)) (s : State) :
    UnchangedBut [.pru, .windows, .buffers, .screens, .inExecution] s (stripeWriteEnds p l s) := by
  unfold stripeWriteEnds
  repeat' (first | split | dsimp only)
  all_goals simp (maxDischargeDepth := 30)

theorem lineDone_frame (p : PrinterNo) (s : State) : UnchangedBut [.pru, .out] s (lineDone p s) := by
  unfold lineDone; dsimp only; split <;> simp (maxDischargeDepth := 30)

@[simp] theorem lineDone_unchanged {L : List Part} {s t : State} (p : PrinterNo)
    (hL : ∀ p ∈ ([.pru, .out] : List Part), p ∈ L) (hu : UnchangedBut L s t) :
    UnchangedBut L s (lineDone p t) := hu.trans ((lineDone_frame p t).mono hL)

theorem lineEnds_frame (p : PrinterNo) (s : State) :
    UnchangedBut [.pru, .out] s (lineEnds p s) := by
  unfold lineEnds
  repeat' (first | split | dsimp only)
  all_goals simp (maxDischargeDepth := 30)

theorem headArrives_frame (p : PrinterNo) (s : State) :
    UnchangedBut [.accounts, .pru, .buffers, .screens, .windows, .pacing, .inExecution] s (headArrives p s) := by
  unfold headArrives
  repeat' (first | split | dsimp only)
  all_goals simp (maxDischargeDepth := 30)

theorem ejectEnds_frame (p : PrinterNo) (s : State) :
    UnchangedBut [.accounts, .pru, .buffers, .screens, .windows, .inExecution] s (ejectEnds p s) := by
  unfold ejectEnds
  repeat' (first | split | dsimp only)
  all_goals simp (maxDischargeDepth := 30)

theorem jamTimesOut_frame (p : PrinterNo) (s : State) :
    UnchangedBut [.accounts, .pru, .buffers, .screens, .windows, .fault, .inExecution] s (jamTimesOut p s) := by
  unfold jamTimesOut
  repeat' (first | split | dsimp only)
  all_goals simp (maxDischargeDepth := 30)

/-! ### What is asked -/

/-- What an event, a tick, a re-raise, a report or a binding's change can touch where it is taken: no request comes, ends
or is marked. -/
def effectParts : List Part :=
  [.journal, .day, .windows, .transfers, .drawers, .jsu, .buffers, .screens, .exu, .locks, .idles, .lines, .sender, .out,
    .fault, .accounts, .pru, .pacing, .inExecution]

theorem eventEffect_frame (i : Instr) (s : State) : UnchangedBut effectParts s (eventEffect i s) := by
  unfold eventEffect
  split
  · exact (ackTimesOut_frame _ s).mono (by decide)
  · exact (probeTimesOut_frame _ s).mono (by decide)
  · exact (takeRowAck_frame _ _ _ s).mono (by decide)
  · exact (takeProbeAnswer_frame _ _ _ s).mono (by decide)
  · exact (readyArrives_frame _ _ s).mono (by decide)
  · exact (busyArrives_frame _ s).mono (by decide)
  · exact (ackArrives_frame _ _ s).mono (by decide)
  · exact (nakArrives_frame _ _ s).mono (by decide)
  · exact (closedArrives_frame _ _ s).mono (by decide)
  · exact (unknownArrives_frame _ s).mono (by decide)
  · exact (bookArrives_frame _ s).mono (by decide)
  · exact (bookLeaves_frame _ s).mono (by decide)
  · exact (edgeFound_frame _ _ s).mono (by decide)
  · exact (limitReached_frame _ s).mono (by decide)
  · exact (stripeReadEnds_frame _ _ s).mono (by decide)
  · exact (stripeWriteEnds_frame _ _ s).mono (by decide)
  · exact (lineEnds_frame _ s).mono (by decide)
  · exact (headArrives_frame _ s).mono (by decide)
  · exact (ejectEnds_frame _ s).mono (by decide)
  · exact (jamTimesOut_frame _ s).mono (by decide)
  · exact .refl _ s

/-- What a second tick can touch where it is taken. -/
theorem tickEffect_parts (u : UnitName) (s : State) :
    UnchangedBut [.exu, .windows, .buffers, .screens, .locks, .idles, .journal, .day, .transfers, .drawers, .jsu, .sender,
      .out, .fault, .inExecution] s (tickEffect u s) := by
  unfold tickEffect
  split
  · exact (tickExu_frame s).mono (by decide)
  · exact (tickScu_frame s).mono (by decide)
  · exact .ite _ ((countTransfers_frame s).mono (by decide)) (.refl _ s)
  · exact .ite _ ((tickDlu_frame s).mono (by decide)) (.refl _ s)
  · exact .refl _ s

theorem tickEffect_frame (u : UnitName) (s : State) : UnchangedBut effectParts s (tickEffect u s) :=
  (tickEffect_parts u s).mono (by decide)

theorem takeBinding_frame (p : Position) (b : Bool) (s : State) :
    UnchangedBut [.screens, .locks, .idles] s (takeBinding p b s) := by
  unfold takeBinding; split <;> simp

theorem askedEffect_frame (x : Asked) (s : State) : UnchangedBut effectParts s (askedEffect x s) := by
  cases x with
  | request _ | deliver => exact .refl _ s
  | tick u => exact tickEffect_frame u s
  | reraise d => exact (reraiseOffers_frame d s).mono (by decide)
  | report l => exact (takeReports_frame l s).mono (by decide)
  | binding p b => exact (takeBinding_frame p b s).mono (by decide)
  | event i => exact eventEffect_frame i s

/-- What serving can touch: the effect, or the operations asked. -/
@[simp] def waitingParts : List Part := .turns :: effectParts

/-- The parts listed, and what serving can touch. -/
@[simp] def withWaiting (l : List Part) : List Part := l ++ waitingParts

/-- Serving has the effect of what is asked, or puts it at the end of the operations asked. -/
theorem serve_cases (x : Asked) (s : State) : serve x s = askedEffect x s ∨ serve x s = ask x s := by
  unfold serve; split
  · exact .inr rfl
  · exact .inl rfl

theorem serve_frame (x : Asked) (s : State) : UnchangedBut waitingParts s (serve x s) := by
  rcases serve_cases x s with h | h <;> rw [h]
  · exact (askedEffect_frame x s).mono (by decide)
  · exact ask_unchanged x (by decide) (.refl _ s)

@[simp] theorem serve_unchanged {L : List Part} {s t : State} (x : Asked) (hL : ∀ p ∈ waitingParts, p ∈ L)
    (hu : UnchangedBut L s t) : UnchangedBut L s (serve x t) := hu.trans ((serve_frame x t).mono hL)

/-- An event taken or put to wait touches what its effect touches, and the operations asked. -/
theorem takeEvent_frame {L : List Part} (i : Instr) {s : State} (h : UnchangedBut L s (eventEffect i s)) :
    UnchangedBut (L ++ [.inExecution, .turns]) s (takeEvent i s) := by
  rcases serve_cases (.event i) s with e | e <;> rw [takeEvent, e]
  · exact h.mono fun p hp => List.mem_append_left _ hp
  · exact ask_unchanged _ (fun p hp => List.mem_append_right _ hp) (.refl _ s)

theorem unlessWaits_frame {L : List Part} (units : List UnitName) {f : State → State} {s : State}
    (h : UnchangedBut L s (f s)) : UnchangedBut L s (unlessWaits units f s) := .ite _ (.refl L s) h

theorem takeFrom_frame (fuel : Nat) : ∀ (k : Nat) (s : State), UnchangedBut waitingParts s (takeFrom fuel k s) := by
  induction fuel with
  | zero => intro k s; exact .refl _ s
  | succ fuel ih =>
    intro k s
    unfold takeFrom
    split
    · exact .refl _ s
    · split
      · refine UnchangedBut.trans ?_ (ih _ _)
        exact UnchangedBut.trans (setOrder_unchanged _ (by decide) (.refl _ s))
          ((askedEffect_frame _ _).mono (by decide))
      · exact ih _ _

@[simp] theorem takeWaiting_unchanged {L : List Part} {s t : State} (hL : ∀ p ∈ waitingParts, p ∈ L)
    (hu : UnchangedBut L s t) : UnchangedBut L s (takeWaiting t) :=
  hu.trans ((takeFrom_frame _ _ _).mono hL)

theorem deliver_frame (s : State) :
    UnchangedBut (withWaiting [.delivery, .responses]) s (deliver s) := by
  unfold deliver; split
  · exact takeWaiting_unchanged (by decide) (finishDelivery_unchanged (by decide) (.refl _ s))
  · exact .refl _ s

@[simp] theorem deliver_unchanged {L : List Part} {s t : State}
    (hL : ∀ p ∈ (withWaiting [.delivery, .responses]), p ∈ L) (hu : UnchangedBut L s t) :
    UnchangedBut L s (deliver t) := hu.trans ((deliver_frame t).mono hL)

end Sys2Proof.Machine
end

