-- ==== Sys2Proof/Laws/Requests.lean ====
section
/-! SUPPORT. What each command can touch, in any state and whatever becomes of it: for a request its unit's
part (`…_state_frame`) and the whole request (`exec…_frame`), for every other command the whole. -/

namespace Sys2Proof.Machine

/-! ### Requests in general -/

theorem handed_frame {h : ReqHead} {i : Instr} {s t : State} (e : handed h i s = some t) :
    UnchangedBut [.inExecution, .turns] s t := by
  unfold handed at e
  split at e
  · split at e
    · split at e
      · cases e; simp
      · cases e
    · split at e
      · cases e
        intro p hp
        cases p <;> first
          | exact absurd (by decide) hp
          | exact rfl | exact fun _ => rfl | exact ⟨rfl, rfl⟩ | exact ⟨rfl, rfl, fun _ => rfl⟩ | exact fun _ => ⟨rfl, rfl⟩
          | exact fun _ => ⟨rfl, rfl, rfl, rfl, rfl⟩
      · cases e
  · cases e

theorem settle_frame (h : ReqHead) (i : Instr) (v : Verdict) :
    UnchangedBut [.windows, .responses, .inExecution, .turns] v.state (settle h i v) := by
  unfold settle; split <;> simp (maxDischargeDepth := 30)

theorem judge_state (l : List Check) (s : State) (v : Verdict) :
    (judge l s v).state = s ∨ (judge l s v).state = v.state := by
  unfold judge; split <;> simp [refuse]

theorem judge_frame {L : List Part} {l : List Check} {s : State} {v : Verdict} (h : UnchangedBut L s v.state) :
    UnchangedBut L s (judge l s v).state := by
  rcases judge_state l s v with e | e <;> rw [e]
  · exact .refl L s
  · exact h

/-- A request touches what its unit touches, its port entry, the idle count it restarts and its window, and what waited
is taken after it. -/
theorem carry_frame {L : List Part} (h : ReqHead) (i : Instr) {body : State → Verdict} (s : State)
    (hL : ∀ p ∈ ([.inExecution, .turns, .screens, .idles, .windows, .responses] : List Part), p ∈ L)
    (hb : ∀ u, UnchangedBut L u (body u).state) : UnchangedBut (withWaiting L) s (carry h i body s) := by
  have widen : ∀ {u v}, UnchangedBut L u v → UnchangedBut (withWaiting L) u v :=
    fun hu => hu.mono fun p hp => List.mem_append_left _ hp
  unfold carry
  split
  · exact .refl _ s
  · rename_i t e
    dsimp only
    have h1 : UnchangedBut L s t := (handed_frame e).mono fun p hp => hL p (by simp at hp ⊢; tauto)
    have h2 : UnchangedBut L t (restartNamed i t) :=
      (restartNamed_frame i t).mono fun p hp => hL p (by simp at hp ⊢; tauto)
    have h3 : ∀ v : Verdict, UnchangedBut L (restartNamed i t) v.state → UnchangedBut L s (settle h i v) :=
      fun v hv => ((h1.trans h2).trans hv).trans
        ((settle_frame h i v).mono fun p hp => hL p (by simp at hp ⊢; tauto))
    split
    · exact widen (h3 _ (judge_frame (by simp [take])))
    · split
      · exact widen h1
      · split
        · exact takeWaiting_unchanged (fun p hp => List.mem_append_right _ hp) (widen (h3 _ (hb _)))
        · exact widen (h3 _ (hb _))

@[simp] theorem refuse_state (s : State) (c : Check) : (refuse s c).state = s := rfl
@[simp] theorem take_state (s : State) (l : List (List Item)) : (take s l).state = s := rfl
@[simp] theorem takeMasked_state (s : State) (l : List (Option (List Item))) : (takeMasked s l).state = s := rfl

theorem placeLine_frame (n : Nat) (l : Line) (s : State) :
    UnchangedBut [.accounts, .windows] s (placeLine n l s).1 := by
  unfold placeLine; split <;> simp (maxDischargeDepth := 30)

theorem intakeLine_frame (r : Record) (s : State) :
    UnchangedBut [.accounts, .windows, .lastTaken] s (intakeLine r s).1 := by
  unfold intakeLine; dsimp only; split
  · simp
  · refine setLastTaken_unchanged _ (by simp) ?_
    unfold takeLine; split
    · simp
    · exact (placeLine_frame _ _ _).mono (by simp)

theorem handReversal_frame (r : Record) (n : Nat) (d : Disposition) (s : State) :
    UnchangedBut [.accounts, .windows, .lastTaken] s (handReversal r n d s).1 := by
  unfold handReversal; dsimp only; split
  · simp
  · refine setLastAnswer_unchanged _ (by simp) (setLastTaken_unchanged _ (by simp) ?_)
    unfold actOnReversal; dsimp only; split
    · simp
    · split
      · simp (maxDischargeDepth := 30)
      · exact (placeLine_frame _ _ _).mono (by simp)

theorem handLine_frame (r : Record) (s : State) :
    UnchangedBut [.accounts, .windows, .lastTaken] s (handLine r s).1 := by
  unfold handLine; split
  · exact intakeLine_frame r s
  · simp

theorem handReversalLine_frame (r o : Record) (s : State) :
    UnchangedBut [.accounts, .windows, .lastTaken] s (handReversalLine r o s).1 := by
  unfold handReversalLine; split
  · exact handReversal_frame _ _ _ s
  · simp

theorem useCited_frame (r : PostReq) (s : State) :
    UnchangedBut [.exu, .buffers, .screens, .inExecution] s (useCited r s) := by
  unfold useCited; split <;> simp (maxDischargeDepth := 30)

/-! ### The requests -/

theorem currencyDefine_state_frame (r : CurrencyDefineReq) (s : State) :
    UnchangedBut [.currencies, .drawers, .board, .buffers, .screens, .inExecution] s (currencyDefineTaken r s).state := by
  have hb : ∀ u, UnchangedBut [.currencies, .drawers] u { u with store := { u.store with
      currencies := u.store.currencies.set (currencyNo r.currency) (definedEntry r)
      drawers := u.store.drawers.map (clearCurrency (currencyNo r.currency)) } } := fun u p hp => by
    cases p <;> first
      | exact absurd (by decide) hp
      | exact rfl | exact ⟨rfl, rfl⟩ | exact ⟨rfl, rfl, fun _ => rfl⟩
      | (intro d; simp only [Table.get_map]; rfl)
      | exact fun _ => rfl | exact fun _ => ⟨rfl, rfl⟩ | exact fun _ => ⟨rfl, rfl, rfl, rfl, rfl⟩
  exact report_unchanged _ (by simp) (boardAfterDefine_unchanged _ (by simp) ((hb s).mono (by simp)))

theorem execCurrencyDefine_frame (h : ReqHead) (r : CurrencyDefineReq) {s t : State} (e : execCurrencyDefine h r s = .next t) :
    UnchangedBut (withWaiting [.inExecution, .turns, .screens, .idles, .windows, .responses, .currencies, .drawers, .board, .buffers]) s t := by
  cases e
  exact carry_frame h _ _ (by simp) (fun u => judge_frame ((currencyDefine_state_frame _ u).mono (by simp)))

theorem drawerSignon_state_frame (h : ReqHead) (r : SignonReq) (s : State) :
    UnchangedBut [.drawers, .bounds, .positions, .idles, .locks, .windows, .buffers, .screens, .inExecution, .turns] s
      (drawerSignonTaken h r s).state := by
  simp only [drawerSignonTaken, takeMasked_state]
  refine askReraise_unchanged _ (by simp) (bindScreen_unchanged _ _ (by simp)
    (report_unchanged _ (by simp) (fun p hp => ?_)))
  cases p <;> first
    | exact absurd (by decide) hp
    | exact rfl | exact fun _ => rfl | exact ⟨rfl, rfl⟩ | exact ⟨rfl, rfl, fun _ => rfl⟩ | exact fun _ => ⟨rfl, rfl⟩
    | exact fun _ => ⟨rfl, rfl, rfl, rfl, rfl⟩

theorem execDrawerSignon_frame (h : ReqHead) (r : SignonReq) {s t : State} (e : execDrawerSignon h r s = .next t) :
    UnchangedBut (withWaiting [.inExecution, .turns, .screens, .idles, .windows, .responses, .drawers, .bounds, .positions, .locks, .buffers]) s t := by
  cases e
  exact carry_frame h _ _ (by simp) (fun u => judge_frame ((drawerSignon_state_frame _ _ u).mono (by simp)))

theorem drawerSignoff_state_frame (x : Fld Nat) (s : State) :
    UnchangedBut [.drawers, .bounds, .positions, .exu, .locks, .idles, .buffers, .screens, .inExecution, .turns] s (drawerSignoffTaken x s).state := by
  simp only [drawerSignoffTaken, take_state]
  refine bindScreen_unchanged _ _ (by simp) (report_unchanged _ (by simp)
    (expireSignoff_unchanged _ (by simp) (modifyPosition_unchanged _ _ (by simp) ?_)))
  split
  · intro p hp
    cases p <;> first
      | exact absurd (by decide) hp
      | exact rfl | exact fun _ => rfl | exact ⟨rfl, rfl⟩ | exact ⟨rfl, rfl, fun _ => rfl⟩ | exact fun _ => ⟨rfl, rfl⟩
      | exact fun _ => ⟨rfl, rfl, rfl, rfl, rfl⟩
  · exact .refl _ s

theorem execDrawerSignoff_frame (h : ReqHead) (x : Fld Nat) {s t : State} (e : execDrawerSignoff h x s = .next t) :
    UnchangedBut (withWaiting [.inExecution, .turns, .screens, .idles, .windows, .responses, .drawers, .bounds, .positions, .exu, .locks, .buffers]) s t := by
  cases e
  exact carry_frame h _ _ (by simp) (fun u => judge_frame ((drawerSignoff_state_frame _ u).mono (by simp)))

theorem drawerLimits_state_frame (r : LimitsReq) (s : State) :
    UnchangedBut [.drawers, .windows, .buffers, .screens, .inExecution] s (drawerLimitsTaken r s).state := by
  simp only [drawerLimitsTaken, take_state]
  exact evaluateExcess_unchanged _ (by simp) (modifyDrawer_unchanged _ _ (fun _ => rfl) (by simp) (.refl _ s))

theorem execDrawerLimits_frame (h : ReqHead) (r : LimitsReq) {s t : State} (e : execDrawerLimits h r s = .next t) :
    UnchangedBut (withWaiting [.inExecution, .turns, .screens, .idles, .windows, .responses, .drawers, .buffers]) s t := by
  cases e
  exact carry_frame h _ _ (by simp) (fun u => judge_frame ((drawerLimits_state_frame _ u).mono (by simp)))

theorem drawerCount_state_frame (r : CountReq) (s : State) :
    UnchangedBut [.journal, .day, .windows, .drawers, .counted, .buffers, .screens, .inExecution] s (drawerCountTaken r s).state := by
  unfold drawerCountTaken; dsimp only; split <;> simp (maxDischargeDepth := 30)

theorem execDrawerCount_frame (h : ReqHead) (r : CountReq) {s t : State} (e : execDrawerCount h r s = .next t) :
    UnchangedBut (withWaiting [.inExecution, .turns, .screens, .idles, .windows, .responses, .journal, .day, .drawers, .counted, .buffers]) s t := by
  cases e
  exact carry_frame h _ _ (by simp) (fun u => judge_frame ((drawerCount_state_frame _ u).mono (by simp)))

theorem drawerAccept_state_frame (x : Fld Nat) (s : State) :
    UnchangedBut [.journal, .day, .windows, .drawers, .counted, .buffers, .screens, .inExecution] s (drawerAcceptTaken x s).state := by
  unfold drawerAcceptTaken
  dsimp only [take_state]
  split
  · refine closeDrawer_unchanged _ (by simp) (.foldl (fun s c => ?_) _ _)
    simp (maxDischargeDepth := 30) [acceptCurrency]
  · exact .refl _ s

theorem execDrawerAccept_frame (h : ReqHead) (x : Fld Nat) {s t : State} (e : execDrawerAccept h x s = .next t) :
    UnchangedBut (withWaiting [.inExecution, .turns, .screens, .idles, .windows, .responses, .journal, .day, .drawers, .counted, .buffers]) s t := by
  cases e
  exact carry_frame h _ _ (by simp) (fun u => judge_frame ((drawerAccept_state_frame _ u).mono (by simp)))

theorem drawerEnquire_state_frame (h : ReqHead) (x : Fld Nat) (s : State) :
    UnchangedBut [] s (drawerEnquireTaken h x s).state := by
  simp [drawerEnquireTaken]

theorem execDrawerEnquire_frame (h : ReqHead) (x : Fld Nat) {s t : State} (e : execDrawerEnquire h x s = .next t) :
    UnchangedBut (withWaiting [.inExecution, .turns, .screens, .idles, .windows, .responses]) s t := by
  cases e
  exact carry_frame h _ _ (by simp) (fun u => judge_frame ((drawerEnquire_state_frame _ _ u).mono (by simp)))

theorem cashPost_state_frame (r : PostReq) (s : State) :
    UnchangedBut [.journal, .day, .windows, .exu, .drawers, .accounts, .lastTaken, .buffers, .screens, .inExecution] s (cashPostTaken r s).state := by
  simp only [cashPostTaken, takeMasked_state, commitPost]
  refine setApplied_unchanged _ _ (by simp) (UnchangedBut.trans ?_ ((handLine_frame _ _).mono (by simp)))
  exact cashChange_unchanged _ _ _ _ (by simp) (appendRecord_unchanged _ (by simp)
    ((useCited_frame r s).mono (by simp)))

theorem execCashPost_frame (h : ReqHead) (r : PostReq) {s t : State} (e : execCashPost h r s = .next t) :
    UnchangedBut (withWaiting [.inExecution, .turns, .screens, .idles, .windows, .responses, .journal, .day, .exu, .drawers, .accounts, .lastTaken, .buffers]) s t := by
  cases e
  exact carry_frame h _ _ (by simp) (fun u => judge_frame ((cashPost_state_frame _ u).mono (by simp)))

/-- The reversal lookup does nothing but capture the checks that fail. -/
theorem searchReversal_frame (n : Nat) (r : Record) (l : List Record) (s : State) :
    UnchangedBut [.windows, .fault] s (searchReversal n r l s).1 := by
  induction l generalizing s with
  | nil => rw [searchReversal]; exact .refl _ s
  | cons x rest ih =>
    have hx := captureFailed_frame x s
    have hr := hx.trans (ih (captureFailed s x))
    rw [searchReversal]
    generalize captureFailed s x = u at hx hr ⊢
    generalize (x.kind == RecordKind.reversal && !x.checkOk) = a
    generalize (x.kind == RecordKind.reversal && x.reverses == some n) = b
    cases a <;> cases b <;> assumption

theorem reversalLookup_frame (n : Nat) (s : State) : UnchangedBut [.windows, .fault] s (reversalLookup n s).1 := by
  unfold reversalLookup
  cases recordAt s n with
  | none => exact .refl _ s
  | some x => exact (captureFailed_frame x s).trans (searchReversal_frame n x (recordsAfter s n) (captureFailed s x))

theorem execCashReverse_frame (h : ReqHead) (r : ReverseReq) {s t : State} (e : execCashReverse h r s = .next t) :
    UnchangedBut (withWaiting [.inExecution, .turns, .screens, .idles, .windows, .responses, .journal, .day, .drawers, .accounts, .lastTaken, .fault, .buffers]) s t := by
  cases e
  exact carry_frame h _ _ (by simp) (fun u => judge_frame (by
      have hf := (reversalLookup_frame r.sequence.nat u).mono (m := [.inExecution, .turns, .screens, .idles, .windows, .responses, .journal, .day, .drawers, .accounts, .lastTaken, .fault, .buffers]) (by simp)
      unfold reverseFound
      split <;> rename_i heq <;> rw [heq] at hf
      · exact hf
      · exact hf
      · refine hf.trans (judge_frame ?_)
        simp only [cashReverseTaken, take_state, commitReverse]
        refine setApplied_unchanged _ _ (by simp)
          (UnchangedBut.trans ?_ ((handReversalLine_frame _ _ _).mono (by simp)))
        simp (maxDischargeDepth := 30)))

theorem rateSet_state_frame (r : RateReq) (s : State) :
    UnchangedBut [.journal, .day, .windows, .board, .buffers, .screens, .inExecution] s (rateSetTaken r s).state := by
  exact report_unchanged _ (by simp) ((commitBoard_frame _ _ _ s).mono (by simp))

theorem execRateSet_frame (h : ReqHead) (r : RateReq) {s t : State} (e : execRateSet h r s = .next t) :
    UnchangedBut (withWaiting [.inExecution, .turns, .screens, .idles, .windows, .responses, .journal, .day, .board, .buffers]) s t := by
  cases e
  exact carry_frame h _ _ (by simp) (fun u => judge_frame ((rateSet_state_frame _ u).mono (by simp)))

theorem feeSet_state_frame (r : FeeReq) (s : State) :
    UnchangedBut [.journal, .day, .windows, .board] s (feeSetTaken r s).state := by
  exact commitBoard_frame _ _ _ s

theorem execFeeSet_frame (h : ReqHead) (r : FeeReq) {s t : State} (e : execFeeSet h r s = .next t) :
    UnchangedBut (withWaiting [.inExecution, .turns, .screens, .idles, .windows, .responses, .journal, .day, .board]) s t := by
  cases e
  exact carry_frame h _ _ (by simp) (fun u => judge_frame ((feeSet_state_frame _ u).mono (by simp)))

theorem quoteRequest_state_frame (r : QuoteReq) (s : State) :
    UnchangedBut [.exu, .board, .buffers, .screens, .inExecution] s (quoteRequestTaken r s).state := by
  simp only [quoteRequestTaken, takeMasked_state]
  refine report_unchanged _ (by simp) (modifyBoard_unchanged _ (by simp) (fun p hp => ?_))
  cases p <;> first
    | exact absurd (by decide) hp
    | exact rfl | exact fun _ => rfl | exact ⟨rfl, rfl⟩ | exact ⟨rfl, rfl, fun _ => rfl⟩ | exact fun _ => ⟨rfl, rfl⟩
    | exact fun _ => ⟨rfl, rfl, rfl, rfl, rfl⟩

theorem execQuoteRequest_frame (h : ReqHead) (r : QuoteReq) {s t : State} (e : execQuoteRequest h r s = .next t) :
    UnchangedBut (withWaiting [.inExecution, .turns, .screens, .idles, .windows, .responses, .exu, .board, .buffers]) s t := by
  cases e
  exact carry_frame h _ _ (by simp) (fun u => judge_frame ((quoteRequest_state_frame _ u).mono (by simp)))

theorem quoteRelease_state_frame (r : ReleaseReq) (s : State) :
    UnchangedBut [.exu, .buffers, .screens, .inExecution] s (quoteReleaseTaken r s).state := by
  simp (maxDischargeDepth := 30) [quoteReleaseTaken]

theorem execQuoteRelease_frame (h : ReqHead) (r : ReleaseReq) {s t : State} (e : execQuoteRelease h r s = .next t) :
    UnchangedBut (withWaiting [.inExecution, .turns, .screens, .idles, .windows, .responses, .exu, .buffers]) s t := by
  cases e
  exact carry_frame h _ _ (by simp) (fun u => judge_frame ((quoteRelease_state_frame _ u).mono (by simp)))

theorem transferOffer_state_frame (h : ReqHead) (r : OfferReq) (s : State) :
    UnchangedBut [.journal, .day, .windows, .transfers, .nextTransfer, .drawers, .jsu, .buffers, .screens, .inExecution] s (transferOfferTaken h r s).state := by
  simp (maxDischargeDepth := 30) [transferOfferTaken]

theorem execTransferOffer_frame (h : ReqHead) (r : OfferReq) {s t : State} (e : execTransferOffer h r s = .next t) :
    UnchangedBut (withWaiting [.inExecution, .turns, .screens, .idles, .windows, .responses, .journal, .day, .transfers, .nextTransfer, .drawers, .jsu, .buffers]) s t := by
  cases e
  exact (carry_frame h _ _ (by simp) (fun u => judge_frame ((transferOffer_state_frame _ _ u).mono (by simp))))

theorem execTransferAccept_frame (h : ReqHead) (r : AcceptReq) {s t : State} (e : execTransferAccept h r s = .next t) :
    UnchangedBut (withWaiting [.inExecution, .turns, .screens, .idles, .windows, .responses, .journal, .day, .transfers, .drawers, .jsu, .delivery, .buffers]) s t := by
  cases e
  exact (carry_frame h _ _ (by simp) (fun u => by
      refine ((restartReceiver_frame r.number u).mono (by simp)).trans (judge_frame ?_)
      unfold transferAcceptTaken
      split
      · simp
      · exact ask_unchanged _ (by simp)
          (clearDelivery_unchanged _ (by simp) ((commitAccept_frame _ _ _).mono (by simp)))))

theorem transferDecline_state_frame (x : Fld Nat) (s : State) :
    UnchangedBut [.journal, .day, .windows, .transfers, .drawers, .jsu, .buffers, .screens, .inExecution] s (transferDeclineTaken x s).state := by
  unfold transferDeclineTaken; split <;> simp (maxDischargeDepth := 30)

theorem execTransferDecline_frame (h : ReqHead) (x : Fld Nat) {s t : State} (e : execTransferDecline h x s = .next t) :
    UnchangedBut (withWaiting [.inExecution, .turns, .screens, .idles, .windows, .responses, .journal, .day, .transfers, .drawers, .jsu, .buffers]) s t := by
  cases e
  exact (carry_frame h _ _ (by simp) (fun u => judge_frame ((transferDecline_state_frame _ u).mono (by simp))))

theorem vaultReceive_state_frame (r : VaultReq) (s : State) :
    UnchangedBut [.journal, .day, .windows, .drawers, .buffers, .screens, .inExecution] s (vaultTaken .vaultIn r (vaultDeltas r) s).state := by
  exact setApplied_unchanged _ _ (by simp) (cashChange_unchanged _ _ _ _ (by simp)
    ((appendRecord_frame _ s).mono (by simp)))

theorem execVaultReceive_frame (h : ReqHead) (r : VaultReq) {s t : State} (e : execVaultReceive h r s = .next t) :
    UnchangedBut (withWaiting [.inExecution, .turns, .screens, .idles, .windows, .responses, .journal, .day, .drawers, .buffers]) s t := by
  cases e
  exact carry_frame h _ _ (by simp) (fun u => judge_frame ((vaultReceive_state_frame _ u).mono (by simp)))

theorem vaultDispatch_state_frame (r : VaultReq) (s : State) :
    UnchangedBut [.journal, .day, .windows, .drawers, .buffers, .screens, .inExecution] s (vaultTaken .vaultOut r (negate (vaultDeltas r)) s).state := by
  exact setApplied_unchanged _ _ (by simp) (cashChange_unchanged _ _ _ _ (by simp)
    ((appendRecord_frame _ s).mono (by simp)))

theorem execVaultDispatch_frame (h : ReqHead) (r : VaultReq) {s t : State} (e : execVaultDispatch h r s = .next t) :
    UnchangedBut (withWaiting [.inExecution, .turns, .screens, .idles, .windows, .responses, .journal, .day, .drawers, .buffers]) s t := by
  cases e
  exact carry_frame h _ _ (by simp) (fun u => judge_frame ((vaultDispatch_state_frame _ u).mono (by simp)))

theorem journalRead_state_frame (h : ReqHead) (r : JournalReq) (s : State) :
    UnchangedBut [.windows, .fault] s (journalReadTaken h r s).state := by
  exact .foldl (fun s x => captureFailed_frame x s) _ _

theorem execJournalRead_frame (h : ReqHead) (r : JournalReq) {s t : State} (e : execJournalRead h r s = .next t) :
    UnchangedBut (withWaiting [.inExecution, .turns, .screens, .idles, .windows, .responses, .fault]) s t := by
  cases e
  exact carry_frame h _ _ (by simp) (fun u => judge_frame ((journalRead_state_frame _ _ u).mono (by simp)))

theorem classSet_state_frame (r : ClassReq) (s : State) :
    UnchangedBut [.classes] s (classSetTaken r s).state := by
  intro p hp
  cases p <;> first
    | exact absurd (by decide) hp
    | exact rfl | exact fun _ => rfl | exact ⟨rfl, rfl⟩ | exact ⟨rfl, rfl, fun _ => rfl⟩ | exact fun _ => ⟨rfl, rfl⟩
    | exact fun _ => ⟨rfl, rfl, rfl, rfl, rfl⟩

theorem execClassSet_frame (h : ReqHead) (r : ClassReq) {s t : State} (e : execClassSet h r s = .next t) :
    UnchangedBut (withWaiting [.inExecution, .turns, .screens, .idles, .windows, .responses, .classes]) s t := by
  cases e
  exact carry_frame h _ _ (by simp) (fun u => judge_frame ((classSet_state_frame _ u).mono (by simp)))

theorem passbookEnquire_state_frame (r : PassbookReq) (s : State) :
    UnchangedBut [] s (passbookEnquireTaken r s).state := by
  simp [passbookEnquireTaken]

theorem execPassbookEnquire_frame (h : ReqHead) (r : PassbookReq) {s t : State} (e : execPassbookEnquire h r s = .next t) :
    UnchangedBut (withWaiting [.inExecution, .turns, .screens, .idles, .windows, .responses]) s t := by
  cases e
  exact carry_frame h _ _ (by simp) (fun u => judge_frame ((passbookEnquire_state_frame _ u).mono (by simp)))

theorem passbookNewbook_state_frame (r : NewBookReq) (s : State) :
    UnchangedBut [.accounts] s (passbookNewbookTaken r s).state := by
  unfold passbookNewbookTaken; split <;> simp (maxDischargeDepth := 30)

theorem execPassbookNewbook_frame (h : ReqHead) (r : NewBookReq) {s t : State} (e : execPassbookNewbook h r s = .next t) :
    UnchangedBut (withWaiting [.inExecution, .turns, .screens, .idles, .windows, .responses, .accounts]) s t := by
  cases e
  exact carry_frame h _ _ (by simp) (fun u => judge_frame ((passbookNewbook_state_frame _ u).mono (by simp)))

theorem printStart_state_frame (r : PrintReq) (s : State) :
    UnchangedBut [.accounts, .pru, .buffers, .screens, .windows, .inExecution] s (printStartTaken r s).state := by
  simp (maxDischargeDepth := 30) [printStartTaken]

theorem execPrintStart_frame (h : ReqHead) (r : PrintReq) {s t : State} (e : execPrintStart h r s = .next t) :
    UnchangedBut (withWaiting [.inExecution, .turns, .screens, .idles, .windows, .responses, .accounts, .pru, .buffers]) s t := by
  cases e
  exact carry_frame h _ _ (by simp) (fun u => judge_frame ((printStart_state_frame _ u).mono (by simp)))

theorem printCancel_state_frame (r : CancelReq) (s : State) :
    UnchangedBut [.accounts, .pru, .buffers, .screens, .windows, .inExecution] s (printCancelTaken r s).state := by
  unfold printCancelTaken
  split
  · simp only [take_state]
    unfold cancelJob
    dsimp only
    split <;> first
      | simp (maxDischargeDepth := 30)
      | (split <;> simp (maxDischargeDepth := 30))
  · simp

theorem execPrintCancel_frame (h : ReqHead) (r : CancelReq) {s t : State} (e : execPrintCancel h r s = .next t) :
    UnchangedBut (withWaiting [.inExecution, .turns, .screens, .idles, .windows, .responses, .accounts, .pru, .buffers]) s t := by
  cases e
  exact carry_frame h _ _ (by simp) (fun u => judge_frame ((printCancel_state_frame _ u).mono (by simp)))

theorem printerPace_state_frame (r : PaceReq) (s : State) :
    UnchangedBut [.pacing] s (printerPaceTaken r s).state := by
  intro p hp
  cases p <;> first
    | exact absurd (by decide) hp
    | exact rfl | exact fun _ => rfl | exact ⟨rfl, rfl⟩ | exact ⟨rfl, rfl, fun _ => rfl⟩ | exact fun _ => ⟨rfl, rfl⟩
    | exact fun _ => ⟨rfl, rfl, rfl, rfl, rfl⟩

theorem execPrinterPace_frame (h : ReqHead) (r : PaceReq) {s t : State} (e : execPrinterPace h r s = .next t) :
    UnchangedBut (withWaiting [.inExecution, .turns, .screens, .idles, .windows, .responses, .pacing]) s t := by
  cases e
  exact carry_frame h _ _ (by simp) (fun u => judge_frame ((printerPace_state_frame _ u).mono (by simp)))

theorem printerReset_state_frame (x : Fld PrinterNo) (s : State) :
    UnchangedBut [.pru, .windows, .buffers, .screens, .inExecution] s (printerResetTaken x s).state := by
  simp (maxDischargeDepth := 30) [printerResetTaken]

theorem execPrinterReset_frame (h : ReqHead) (x : Fld PrinterNo) {s t : State} (e : execPrinterReset h x s = .next t) :
    UnchangedBut (withWaiting [.inExecution, .turns, .screens, .idles, .windows, .responses, .pru, .buffers]) s t := by
  cases e
  exact carry_frame h _ _ (by simp) (fun u => judge_frame ((printerReset_state_frame _ u).mono (by simp)))

theorem rowClaim_state_frame (h : ReqHead) (s : State) :
    UnchangedBut [.buffers, .owners, .fields] s (rowClaimTaken h s).state := by
  intro p hp
  cases p <;> first
    | exact absurd (by decide) hp
    | exact rfl | exact fun _ => rfl | exact ⟨rfl, rfl⟩ | exact ⟨rfl, rfl, fun _ => rfl⟩ | exact fun _ => ⟨rfl, rfl⟩
    | exact fun _ => ⟨rfl, rfl, rfl, rfl, rfl⟩

theorem execRowClaim_frame (h : ReqHead) {s t : State} (e : execRowClaim h s = .next t) :
    UnchangedBut (withWaiting [.inExecution, .turns, .screens, .idles, .windows, .responses, .buffers, .owners, .fields]) s t := by
  cases e
  exact carry_frame h _ _ (by simp) (fun u => judge_frame ((rowClaim_state_frame _ u).mono (by simp)))

theorem rowFree_state_frame (x : Fld Nat) (s : State) :
    UnchangedBut [.buffers, .owners, .fields] s (rowFreeTaken x s).state := by
  intro p hp
  cases p <;> first
    | exact absurd (by decide) hp
    | exact rfl | exact fun _ => rfl | exact ⟨rfl, rfl⟩ | exact ⟨rfl, rfl, fun _ => rfl⟩ | exact fun _ => ⟨rfl, rfl⟩
    | exact fun _ => ⟨rfl, rfl, rfl, rfl, rfl⟩

theorem execRowFree_frame (h : ReqHead) (x : Fld Nat) {s t : State} (e : execRowFree h x s = .next t) :
    UnchangedBut (withWaiting [.inExecution, .turns, .screens, .idles, .windows, .responses, .buffers, .owners, .fields]) s t := by
  cases e
  exact carry_frame h _ _ (by simp) (fun u => judge_frame ((rowFree_state_frame _ u).mono (by simp)))

theorem rowWrite_state_frame (r : RowWriteReq) (s : State) :
    UnchangedBut [.buffers, .owners, .fields, .screens] s (rowWriteTaken r s).state := by
  simp (maxDischargeDepth := 30) [rowWriteTaken]

theorem execRowWrite_frame (h : ReqHead) (r : RowWriteReq) {s t : State} (e : execRowWrite h r s = .next t) :
    UnchangedBut (withWaiting [.inExecution, .turns, .screens, .idles, .windows, .responses, .buffers, .owners, .fields]) s t := by
  cases e
  exact carry_frame h _ _ (by simp) (fun u => judge_frame ((rowWrite_state_frame _ u).mono (by simp)))

theorem mapSet_state_frame (r : MapReq) (s : State) :
    UnchangedBut [.buffers, .owners, .screens, .maps] s (mapSetTaken r s).state := by
  simp (maxDischargeDepth := 30) [mapSetTaken]

theorem execMapSet_frame (h : ReqHead) (r : MapReq) {s t : State} (e : execMapSet h r s = .next t) :
    UnchangedBut (withWaiting [.inExecution, .turns, .screens, .idles, .windows, .responses, .buffers, .owners, .maps]) s t := by
  cases e
  exact carry_frame h _ _ (by simp) (fun u => judge_frame ((mapSet_state_frame _ u).mono (by simp)))

theorem fieldBind_state_frame (r : BindReq) (s : State) :
    UnchangedBut [.buffers, .owners, .fields, .screens] s (fieldBindTaken r s).state := by
  simp (maxDischargeDepth := 30) [fieldBindTaken]

theorem execFieldBind_frame (h : ReqHead) (r : BindReq) {s t : State} (e : execFieldBind h r s = .next t) :
    UnchangedBut (withWaiting [.inExecution, .turns, .screens, .idles, .windows, .responses, .buffers, .owners, .fields]) s t := by
  cases e
  exact carry_frame h _ _ (by simp) (fun u => judge_frame ((fieldBind_state_frame _ u).mono (by simp)))

theorem screenActivity_state_frame (x : Fld Nat) (s : State) :
    UnchangedBut [] s (screenActivityTaken x s).state := by
  simp [screenActivityTaken]

theorem execScreenActivity_frame (h : ReqHead) (x : Fld Nat) {s t : State} (e : execScreenActivity h x s = .next t) :
    UnchangedBut (withWaiting [.inExecution, .turns, .screens, .idles, .windows, .responses]) s t := by
  cases e
  exact carry_frame h _ _ (by simp) (fun u => judge_frame ((screenActivity_state_frame _ u).mono (by simp)))

theorem screenUnlock_state_frame (r : UnlockReq) (s : State) :
    UnchangedBut [.screens, .locks, .idles] s (screenUnlockTaken r s).state := by
  simp only [screenUnlockTaken, take_state]
  refine restartIdle_unchanged _ (by simp) (.ofScreens _ _ (by decide) (.inr fun x => ?_) (.inl (by decide))
    (.inl (by decide)) (.inr fun x => ?_))
  · obtain ⟨d, e⟩ := clearLock_eq x; simp [e]
  · obtain ⟨d, e⟩ := clearLock_eq x; simp [e]

theorem execScreenUnlock_frame (h : ReqHead) (r : UnlockReq) {s t : State} (e : execScreenUnlock h r s = .next t) :
    UnchangedBut (withWaiting [.inExecution, .turns, .screens, .idles, .windows, .responses, .locks]) s t := by
  cases e
  exact carry_frame h _ _ (by simp) (fun u => judge_frame ((screenUnlock_state_frame _ u).mono (by simp)))

theorem screenSettings_state_frame (r : ScreenSettingsReq) (s : State) :
    UnchangedBut [.screens, .idles, .idleTimeout, .lockText] s (screenSettingsTaken r s).state := by
  have h1 : ∀ (n : Nat) (u : State),
      UnchangedBut [.screens, .idles, .idleTimeout] u (setIdleTimeout n u) := fun n u p hp => by
    have key : ∀ q, ∃ i, (setIdleTimeout n u).scu.screens.get q = { u.scu.screens.get q with idle := i } := by
      intro q
      simp only [setIdleTimeout, Table.get_ofFn, resetCount]
      repeat (first | exact ⟨_, rfl⟩ | split)
    cases p <;> first
      | exact absurd (by decide) hp
      | exact rfl | exact ⟨rfl, rfl⟩ | exact ⟨rfl, rfl, fun _ => rfl⟩
      | exact fun _ => rfl | exact fun _ => ⟨rfl, rfl⟩
      | (intro q; obtain ⟨i, e⟩ := key q; simp [e])
  have h2 : ∀ (l : List Nat) (u : State),
      UnchangedBut [.screens, .lockText] u (setLockText l u) := fun l u p hp => by
    have key : ∀ q, ∃ d, (setLockText l u).scu.screens.get q = { u.scu.screens.get q with dirty := d } := by
      intro q
      simp only [setLockText, Table.get_map, lockTextDirty]
      split <;> exact ⟨_, rfl⟩
    cases p <;> first
      | exact absurd (by decide) hp
      | exact rfl | exact ⟨rfl, rfl⟩ | exact ⟨rfl, rfl, fun _ => rfl⟩
      | exact fun _ => rfl | exact fun _ => ⟨rfl, rfl⟩
      | (intro q; obtain ⟨i, e⟩ := key q; simp [e])
  unfold screenSettingsTaken
  dsimp only [take_state]
  split <;> split <;> first
    | exact .refl _ s
    | exact (h1 _ _).mono (by simp)
    | exact (h2 _ _).mono (by simp)
    | exact ((h1 _ _).mono (by simp)).trans ((h2 _ _).mono (by simp))

theorem execScreenSettings_frame (h : ReqHead) (r : ScreenSettingsReq) {s t : State} (e : execScreenSettings h r s = .next t) :
    UnchangedBut (withWaiting [.inExecution, .turns, .screens, .idles, .windows, .responses, .idleTimeout, .lockText]) s t := by
  cases e
  exact carry_frame h _ _ (by simp) (fun u => judge_frame ((screenSettings_state_frame _ u).mono (by simp)))

theorem dayOpen_state_frame (x : Fld Nat) (s : State) :
    UnchangedBut [.journal, .day, .windows, .drawers, .counted, .buffers, .screens, .inExecution] s (dayOpenTaken x s).state := by
  simp (maxDischargeDepth := 30) [dayOpenTaken]

theorem execDayOpen_frame (h : ReqHead) (x : Fld Nat) {s t : State} (e : execDayOpen h x s = .next t) :
    UnchangedBut (withWaiting [.inExecution, .turns, .screens, .idles, .windows, .responses, .journal, .day, .drawers, .counted, .buffers]) s t := by
  cases e
  exact carry_frame h _ _ (by simp) (fun u => judge_frame ((dayOpen_state_frame _ u).mono (by simp)))

theorem dayClose_state_frame (s : State) :
    UnchangedBut [.journal, .day, .windows, .exu, .buffers, .screens, .inExecution] s (dayCloseTaken s).state := by
  simp (maxDischargeDepth := 30) [dayCloseTaken]

theorem execDayClose_frame (h : ReqHead) {s t : State} (e : execDayClose h s = .next t) :
    UnchangedBut (withWaiting [.inExecution, .turns, .screens, .idles, .windows, .responses, .journal, .day, .exu, .buffers]) s t := by
  cases e
  exact carry_frame h _ _ (by simp) (fun u => judge_frame ((dayClose_state_frame  u).mono (by simp)))

theorem dayReopen_state_frame (s : State) :
    UnchangedBut [.journal, .day, .windows, .buffers, .screens, .inExecution] s (dayReopenTaken s).state := by
  simp (maxDischargeDepth := 30) [dayReopenTaken]

theorem execDayReopen_frame (h : ReqHead) {s t : State} (e : execDayReopen h s = .next t) :
    UnchangedBut (withWaiting [.inExecution, .turns, .screens, .idles, .windows, .responses, .journal, .day, .buffers]) s t := by
  cases e
  exact carry_frame h _ _ (by simp) (fun u => judge_frame ((dayReopen_state_frame  u).mono (by simp)))

theorem daySeal_state_frame (s : State) :
    UnchangedBut [.journal, .day, .windows, .carryCount, .accounts, .pru, .buffers, .screens, .inExecution] s (daySealTaken s).state := by
  have hk : ∀ (m : Nat) (u : State), UnchangedBut [.carryCount] u
      { u with store := { u.store with carryCount := m } } := fun m u p hp => by
    cases p <;> first
      | exact absurd (by decide) hp
      | exact rfl | exact fun _ => rfl | exact ⟨rfl, rfl⟩ | exact ⟨rfl, rfl, fun _ => rfl⟩ | exact fun _ => ⟨rfl, rfl⟩
      | exact fun _ => ⟨rfl, rfl, rfl, rfl, rfl⟩
  unfold daySealTaken
  dsimp only
  split
  · simp
  · simp only [take_state, commitSeal]
    exact dayChanged_unchanged _ (by simp) (setApplied_unchanged _ _ (by simp)
      (UnchangedBut.trans (appendDay_unchanged _ _ _ (by simp) ((sealPrinters_frame s).mono (by simp)))
        ((hk _ _).mono (by simp))))

theorem execDaySeal_frame (h : ReqHead) {s t : State} (e : execDaySeal h s = .next t) :
    UnchangedBut (withWaiting [.inExecution, .turns, .screens, .idles, .windows, .responses, .journal, .day, .carryCount, .accounts, .pru, .buffers]) s t := by
  cases e
  exact (carry_frame h _ _ (by simp) (fun u => judge_frame ((daySeal_state_frame  u).mono (by simp))))

theorem daySend_state_frame (s : State) :
    UnchangedBut [.day, .windows, .sender, .out, .buffers, .screens, .inExecution] s (daySendTaken s).state := by
  simp only [daySendTaken, take_state]
  refine sendCall_unchanged (by simp) (setLineReady_unchanged _ (by simp) (UnchangedBut.trans
    (t := dayChanged .sending (setDayState .sending s)) (by simp (maxDischargeDepth := 30)) (fun p hp => ?_)))
  cases p <;> first
    | exact absurd (by decide) hp
    | exact rfl | exact fun _ => rfl | exact ⟨rfl, rfl⟩ | exact ⟨rfl, rfl, fun _ => rfl⟩ | exact fun _ => ⟨rfl, rfl⟩
    | exact fun _ => ⟨rfl, rfl, rfl, rfl, rfl⟩

theorem execDaySend_frame (h : ReqHead) {s t : State} (e : execDaySend h s = .next t) :
    UnchangedBut (withWaiting [.inExecution, .turns, .screens, .idles, .windows, .responses, .day, .sender, .out, .buffers]) s t := by
  cases e
  exact carry_frame h _ _ (by simp) (fun u => judge_frame ((daySend_state_frame  u).mono (by simp)))

theorem dayClear_state_frame (s : State) :
    UnchangedBut [.day, .drawers, .bounds, .positions, .board, .transfers, .sender, .pru, .locks, .idles, .windows, .buffers, .screens, .inExecution, .turns] s (dayClearTaken s).state := by
  have hc : UnchangedBut [.day, .drawers, .bounds, .positions, .board, .transfers] s (clearDay s) := fun p hp => by
    cases p <;> first
      | exact absurd (by decide) hp
      | exact rfl | exact fun _ => rfl | exact ⟨rfl, rfl⟩ | exact ⟨rfl, rfl, fun _ => rfl⟩ | exact fun _ => ⟨rfl, rfl⟩
      | exact fun _ => ⟨rfl, rfl, rfl, rfl, rfl⟩
  have hf : ∀ u : State, UnchangedBut [.screens, .locks, .idles, .inExecution, .turns] u
      ((boundPositions s).foldl (fun t p => bindScreen p false t) u) :=
    fun u => .foldl (fun t p => bindScreen_frame p false t) _ u
  simp only [dayClearTaken, take_state]
  refine dayChanged_unchanged _ (by simp) (UnchangedBut.trans (report_unchanged _ (by simp) (UnchangedBut.trans
    (hc.mono (by simp)) (fun p hp => ?_))) ((hf _).mono (by simp)))
  cases p <;> first
    | exact absurd (by decide) hp
    | exact rfl | exact fun _ => rfl | exact ⟨rfl, rfl⟩ | exact ⟨rfl, rfl, fun _ => rfl⟩ | exact fun _ => ⟨rfl, rfl⟩
    | exact fun _ => ⟨rfl, rfl, rfl, rfl, rfl⟩

theorem execDayClear_frame (h : ReqHead) {s t : State} (e : execDayClear h s = .next t) :
    UnchangedBut (withWaiting [.inExecution, .turns, .screens, .idles, .windows, .responses, .day, .drawers, .bounds, .positions, .board, .transfers, .sender, .pru, .locks, .buffers]) s t := by
  cases e
  exact carry_frame h _ _ (by simp) (fun u => judge_frame ((dayClear_state_frame  u).mono (by simp)))

theorem lineSettings_state_frame (r : LineReq) (s : State) :
    UnchangedBut [.lineSettings] s (lineSettingsTaken r s).state := by
  intro p hp
  cases p <;> first
    | exact absurd (by decide) hp
    | exact rfl | exact fun _ => rfl | exact ⟨rfl, rfl⟩ | exact ⟨rfl, rfl, fun _ => rfl⟩ | exact fun _ => ⟨rfl, rfl⟩
    | exact fun _ => ⟨rfl, rfl, rfl, rfl, rfl⟩

theorem execLineSettings_frame (h : ReqHead) (r : LineReq) {s t : State} (e : execLineSettings h r s = .next t) :
    UnchangedBut (withWaiting [.inExecution, .turns, .screens, .idles, .windows, .responses, .lineSettings]) s t := by
  cases e
  exact carry_frame h _ _ (by simp) (fun u => judge_frame ((lineSettings_state_frame _ u).mono (by simp)))

theorem positionBind_state_frame (r : PositionReq) (s : State) :
    UnchangedBut [.positions] s (positionBindTaken r s).state := by
  simp (maxDischargeDepth := 30) [positionBindTaken]

theorem execPositionBind_frame (h : ReqHead) (r : PositionReq) {s t : State} (e : execPositionBind h r s = .next t) :
    UnchangedBut (withWaiting [.inExecution, .turns, .screens, .idles, .windows, .responses, .positions]) s t := by
  cases e
  exact carry_frame h _ _ (by simp) (fun u => judge_frame ((positionBind_state_frame _ u).mono (by simp)))

theorem portSettings_state_frame (x : Fld Nat) (s : State) :
    UnchangedBut [.burst] s (portSettingsTaken x s).state := by
  intro p hp
  cases p <;> first
    | exact absurd (by decide) hp
    | exact rfl | exact fun _ => rfl | exact ⟨rfl, rfl⟩ | exact ⟨rfl, rfl, fun _ => rfl⟩ | exact fun _ => ⟨rfl, rfl⟩
    | exact fun _ => ⟨rfl, rfl, rfl, rfl, rfl⟩

theorem execPortSettings_frame (h : ReqHead) (x : Fld Nat) {s t : State} (e : execPortSettings h x s = .next t) :
    UnchangedBut (withWaiting [.inExecution, .turns, .screens, .idles, .windows, .responses, .burst]) s t := by
  cases e
  exact carry_frame h _ _ (by simp) (fun u => judge_frame ((portSettings_state_frame _ u).mono (by simp)))

theorem execFaultRead_frame (h : ReqHead) {s t : State} (e : execFaultRead h s = .next t) :
    UnchangedBut (withWaiting [.inExecution, .turns, .screens, .idles, .windows, .responses]) s t := by
  cases e
  exact carry_frame h _ _ (by simp) (fun u => judge_frame (by simp))

theorem faultClear_state_frame (s : State) :
    UnchangedBut [.fault] s (faultClearTaken s).state := by
  intro p hp
  cases p <;> first
    | exact absurd (by decide) hp
    | exact rfl | exact fun _ => rfl | exact ⟨rfl, rfl⟩ | exact ⟨rfl, rfl, fun _ => rfl⟩ | exact fun _ => ⟨rfl, rfl⟩
    | exact fun _ => ⟨rfl, rfl, rfl, rfl, rfl⟩

theorem execFaultClear_frame (h : ReqHead) {s t : State} (e : execFaultClear h s = .next t) :
    UnchangedBut (withWaiting [.inExecution, .turns, .screens, .idles, .windows, .responses, .fault]) s t := by
  cases e
  exact carry_frame h _ _ (by simp) (fun u => judge_frame ((faultClear_state_frame  u).mono (by simp)))

theorem clockSet_state_frame (r : ClockReq) (s : State) :
    UnchangedBut [.clock, .buffers, .screens, .inExecution] s (clockSetTaken r s).state := by
  simp only [clockSetTaken, take_state]
  refine report_unchanged _ (by simp) (fun p hp => ?_)
  cases p <;> first
    | exact absurd (by decide) hp
    | exact rfl | exact fun _ => rfl | exact ⟨rfl, rfl⟩ | exact ⟨rfl, rfl, fun _ => rfl⟩ | exact fun _ => ⟨rfl, rfl⟩
    | exact fun _ => ⟨rfl, rfl, rfl, rfl, rfl⟩

theorem execClockSet_frame (h : ReqHead) (r : ClockReq) {s t : State} (e : execClockSet h r s = .next t) :
    UnchangedBut (withWaiting [.inExecution, .turns, .screens, .idles, .windows, .responses, .clock, .buffers]) s t := by
  cases e
  exact carry_frame h _ _ (by simp) (fun u => judge_frame ((clockSet_state_frame _ u).mono (by simp)))

theorem partStatus_state_frame (s : State) :
    UnchangedBut [] s (partStatusTaken s).state := by
  simp [partStatusTaken]

theorem execPartStatus_frame (h : ReqHead) {s t : State} (e : execPartStatus h s = .next t) :
    UnchangedBut (withWaiting [.inExecution, .turns, .screens, .idles, .windows, .responses]) s t := by
  cases e
  exact carry_frame h _ _ (by simp) (fun u => judge_frame ((partStatus_state_frame  u).mono (by simp)))

end Sys2Proof.Machine
end

