-- ==== Sys2Proof/Laws/Events.lean ====
section
/-! SUPPORT. What each command that is not a request can touch, in any state. -/

namespace Sys2Proof.Machine

/-! ### Window accesses -/

theorem UnchangedBut.ofWindow {s : State} (m : Master) (f : Window → Window) {l : List Part}
    (hw : Part.windows ∈ l)
    (h1 : Part.postAreas ∈ l ∨ ∀ x, (f x).postArea = x.postArea)
    (h2 : Part.requests ∈ l ∨ ∀ x, (f x).requests = x.requests)
    (h3 : Part.responses ∈ l ∨ ∀ x, (f x).responses = x.responses)
    (h4 : Part.areas ∈ l ∨ ∀ x, (f x).responseArea = x.responseArea)
    (h5 : Part.service ∈ l ∨ ∀ x, (f x).service = x.service ∧ (f x).latched = x.latched)
    (h6 : Part.dropped ∈ l ∨ ∀ x, (f x).dropped = x.dropped) : UnchangedBut l s (modifyWindow m f s) := by
  intro q hq
  cases q
  case windows => exact absurd hw hq
  case postAreas =>
    rcases h1 with h | h
    · exact absurd h hq
    · intro r; simp only [modifyWindow_port_windows, Table.get_modify]; split <;> simp_all
  case requests =>
    rcases h2 with h | h
    · exact absurd h hq
    · intro r; simp only [modifyWindow_port_windows, Table.get_modify]; split <;> simp_all
  case responses =>
    rcases h3 with h | h
    · exact absurd h hq
    · intro r; simp only [modifyWindow_port_windows, Table.get_modify]; split <;> simp_all
  case areas =>
    rcases h4 with h | h
    · exact absurd h hq
    · intro r; simp only [modifyWindow_port_windows, Table.get_modify]; split <;> simp_all
  case service =>
    rcases h5 with h | h
    · exact absurd h hq
    · intro r; simp only [modifyWindow_port_windows, Table.get_modify]; split <;> simp_all
  case dropped =>
    rcases h6 with h | h
    · exact absurd h hq
    · intro r; simp only [modifyWindow_port_windows, Table.get_modify]; split <;> simp_all
  all_goals first
    | exact rfl | exact fun _ => rfl | exact ⟨rfl, rfl⟩ | exact ⟨rfl, rfl, fun _ => rfl⟩ | exact fun _ => ⟨rfl, rfl⟩
    | exact fun _ => ⟨rfl, rfl, rfl, rfl, rfl⟩

/-- An access touches what it does in its master's window, and does nothing from another number or without
supply. -/
theorem access_frame {L : List Part} (m : Fin 8) {f : Master → State → State} (s : State)
    (h : ∀ k, UnchangedBut L s (f k s)) : UnchangedBut L s (access m f s) := by
  unfold access
  split
  · split
    · exact .refl L s
    · exact h _
  · exact .refl L s

theorem execPostAreaWrite_frame (m : Fin 8) (o : Fin 2048) (w : Word) {s t : State}
    (e : execPostAreaWrite m o w s = .next t) :
    UnchangedBut [.windows, .postAreas, .requests, .dropped, .service] s t := by
  cases e
  refine access_frame m s fun k => .ofWindow k _ (by decide) (.inl (by decide)) (.inl (by decide))
    (.inr fun x => ?_) (.inr fun x => ?_) (.inl (by decide)) (.inl (by decide))
  all_goals
    unfold writeWindow writePostArea postRequest endNotice
    repeat (first | rfl | split)

theorem execPostWord_frame (m : Fin 8) (w : Word) {s t : State} (e : execPostWord m w s = .next t) :
    UnchangedBut [.windows, .requests, .dropped] s t := by
  cases e
  refine access_frame m s fun k => .ofWindow k _ (by decide) (.inr fun x => ?_) (.inl (by decide))
    (.inr fun x => ?_) (.inr fun x => ?_) (.inr fun x => ?_) (.inl (by decide))
  all_goals
    unfold postRequest
    repeat (first | rfl | exact ⟨rfl, rfl⟩ | exact ⟨rfl, rfl, fun _ => rfl⟩ | split)

theorem execNoticeEnd_frame (m : Fin 8) {s t : State} (e : execNoticeEnd m s = .next t) :
    UnchangedBut [.windows, .service] s t := by
  cases e
  refine access_frame m s fun k => .ofWindow k _ (by decide) (.inr fun x => ?_) (.inr fun x => ?_)
    (.inr fun x => ?_) (.inr fun x => ?_) (.inl (by decide)) (.inr fun x => ?_)
  all_goals
    unfold endNotice
    split <;> rfl

/-- What a read leaves, by its offset: the three read words act, and a read elsewhere changes nothing (R177). -/
theorem readWindow_left (o : Fin 2048) (x : Window) : (readWindow o x).2 =
    if o.val = 65 then takeResponse x else if o.val = 66 then clearDropped x else if o.val = 67 then takeNotice x
    else x := by
  unfold readWindow
  repeat (first | rfl | split)

theorem takeResponse_eq (x : Window) : ∃ l a, takeResponse x = { x with responses := l, responseArea := a } := by
  unfold takeResponse
  split <;> exact ⟨_, _, rfl⟩

theorem takeNotice_eq (x : Window) : ∃ a b l, takeNotice x = { x with waiting := a, service := b, latched := l } := by
  unfold takeNotice
  split
  · split <;> exact ⟨_, _, _, rfl⟩
  · exact ⟨_, _, _, rfl⟩

theorem readAt_frame (o : Fin 2048) (m : Master) (s : State) :
    UnchangedBut [.windows, .responses, .areas, .service, .dropped, .out] s (readAt o m s) := by
  refine answerRead_unchanged _ (by simp) (.ofWindow m _ (by decide) (.inr fun x => ?_) (.inr fun x => ?_)
    (.inl (by decide)) (.inl (by decide)) (.inl (by decide)) (.inl (by decide)))
  all_goals
    obtain ⟨_, _, h⟩ := takeResponse_eq x
    obtain ⟨_, _, _, k⟩ := takeNotice_eq x
    rw [readWindow_left, h, k]
    repeat (first | rfl | split)

theorem execResponseTake_frame (r : WindowRead) {s t : State} (e : execResponseTake r s = .next t) :
    UnchangedBut [.windows, .responses, .areas, .service, .dropped, .out] s t := by
  cases e
  exact access_frame _ s fun k => readAt_frame _ k s

theorem execPortStatusRead_frame (m : Fin 8) {s t : State} (e : execPortStatusRead m s = .next t) :
    UnchangedBut [.windows, .dropped, .out] s t := by
  cases e
  exact access_frame m s fun k => answerRead_unchanged _ (by simp) (.ofWindow k _ (by decide)
    (.inr fun x => by rw [readWindow_left]; rfl) (.inr fun x => by rw [readWindow_left]; rfl)
    (.inr fun x => by rw [readWindow_left]; rfl) (.inr fun x => by rw [readWindow_left]; rfl)
    (.inr fun x => by rw [readWindow_left]; exact ⟨rfl, rfl⟩) (.inl (by decide)))

theorem execNoticeTake_frame (m : Fin 8) {s t : State} (e : execNoticeTake m s = .next t) :
    UnchangedBut [.windows, .service, .out] s t := by
  cases e
  refine access_frame m s fun k => answerRead_unchanged _ (by simp) (.ofWindow k _ (by decide)
    (.inr fun x => ?_) (.inr fun x => ?_) (.inr fun x => ?_) (.inr fun x => ?_) (.inl (by decide))
    (.inr fun x => ?_))
  all_goals
    obtain ⟨_, _, _, h⟩ := takeNotice_eq x
    rw [readWindow_left]
    simp [h]

/-! ### The request server and the backplane reset -/

theorem handOver_frame (m : Master) (i : Instr) (s : State) :
    UnchangedBut [.windows, .responses, .inExecution, .turns] s (handOver m i s) := by
  have h : UnchangedBut [.windows, .responses, .inExecution, .turns] s
      { s with port := { s.port with
        inExecution := s.port.inExecution.set m (some ⟨i, false⟩)
        order := s.port.order ++ [.request m] } } := by
    intro p hp
    cases p <;> first
    | exact absurd (by decide) hp
    | exact rfl | exact fun _ => rfl | exact ⟨rfl, rfl⟩ | exact ⟨rfl, rfl, fun _ => rfl⟩ | exact fun _ => ⟨rfl, rfl⟩
    | exact fun _ => ⟨rfl, rfl, rfl, rfl, rfl⟩
  unfold handOver
  dsimp only
  split
  · split
    · refine h.trans (UnchangedBut.trans ?_ (settle_frame _ _ _))
      exact judge_frame (by simp)
    · exact h
  · exact h

theorem execRequestHandout_frame {s t : State} (e : execRequestHandout s = .next t) :
    UnchangedBut [.windows, .requests, .responses, .server, .inExecution, .turns] s t := by
  cases e
  refine .ite _ ?_ (.refl _ s)
  unfold serveNext
  split
  · rename_i m k _
    split
    · rename_i p l _
      have h : UnchangedBut [.windows, .requests, .responses, .server, .inExecution, .turns] s
          { s with port := { s.port with lastServed := m, burstUsed := k } } := by
        intro p hp
        cases p <;> first
          | exact absurd (by decide) hp
          | exact rfl | exact fun _ => rfl | exact ⟨rfl, rfl⟩ | exact ⟨rfl, rfl, fun _ => rfl⟩ | exact fun _ => ⟨rfl, rfl⟩
          | exact fun _ => ⟨rfl, rfl, rfl, rfl, rfl⟩
      refine h.trans ?_
      unfold handOut
      dsimp only
      generalize { s with port := { s.port with lastServed := m, burstUsed := k } } = u
      have hq : UnchangedBut [.windows, .requests, .responses, .server, .inExecution, .turns] u
          (modifyWindow m (fun w => { w with requests := w.requests.drop 1 }) u) :=
        .ofWindow m _ (by decide) (.inr fun _ => rfl) (.inl (by decide)) (.inr fun _ => rfl)
          (.inr fun _ => rfl) (.inr fun _ => ⟨rfl, rfl⟩) (.inr fun _ => rfl)
      split
      · exact hq.trans ((handOver_frame _ _ _).mono (by simp))
      · exact respond_unchanged _ _ _ _ _ (by simp) hq
    · exact .refl _ s
  · exact .refl _ s

theorem execBackplaneReset_frame {s t : State} (e : execBackplaneReset s = .next t) :
    UnchangedBut [.windows, .requests, .responses, .areas, .service, .dropped, .server, .inExecution, .turns] s t := by
  cases e
  refine .ite _ (.refl _ s) (fun p hp => ?_)
  cases p <;> first
    | exact absurd (by decide) hp
    | exact rfl | exact fun _ => rfl | exact ⟨rfl, rfl⟩ | exact ⟨rfl, rfl, fun _ => rfl⟩ | exact fun _ => ⟨rfl, rfl⟩
    | exact fun _ => ⟨rfl, rfl, rfl, rfl, rfl⟩
    | (intro m; simp only [resetPort, Table.get_map]; rfl)

/-! ### Power and time -/

theorem setPower_frame (x : Power) (s : State) : UnchangedBut [.power] s { s with power := x } := fun p hp => by
  cases p <;> first
    | exact absurd (by decide) hp
    | exact rfl | exact fun _ => rfl | exact ⟨rfl, rfl⟩ | exact ⟨rfl, rfl, fun _ => rfl⟩ | exact fun _ => ⟨rfl, rfl⟩
    | exact fun _ => ⟨rfl, rfl, rfl, rfl, rfl⟩

theorem execPowerWarning_frame {s t : State} (e : execPowerWarning s = .next t) :
    UnchangedBut (withWaiting [.power, .delivery, .responses]) s t := by
  cases e
  refine .ite _ (takeWaiting_unchanged (by decide) ?_) (.refl _ s)
  exact UnchangedBut.trans (setLineReady_unchanged _ (by decide) (stopPrinters_unchanged (by decide)
    (abandonRequests_unchanged (by decide) ((finishDelivery_frame s).mono (by decide)))))
    ((setPower_frame .shut _).mono (by decide))

theorem execMainSupplyFall_frame {s t : State} (e : execMainSupplyFall s = .next t) :
    UnchangedBut [.power, .jsu, .delivery, .counted, .exu, .pru, .buffers, .owners, .fields, .screens, .lines,
      .locks, .idles, .maps, .idleTimeout, .lockText, .sender, .windows, .postAreas, .requests, .responses,
      .areas, .service, .dropped, .server, .inExecution, .turns, .fault, .out] s t := by
  cases e
  intro p hp
  cases p <;> first
    | exact absurd (by decide) hp
    | exact rfl | exact fun _ => rfl | exact ⟨rfl, rfl⟩

theorem clock_frame (c : Clock) (s : State) : UnchangedBut [.clock] s { s with clock := c } := fun p hp => by
  cases p <;> first
    | exact absurd (by decide) hp
    | exact rfl | exact fun _ => rfl | exact ⟨rfl, rfl⟩ | exact ⟨rfl, rfl, fun _ => rfl⟩ | exact fun _ => ⟨rfl, rfl⟩
    | exact fun _ => ⟨rfl, rfl, rfl, rfl, rfl⟩

theorem execSecondTick_frame {s t : State} (e : execSecondTick s = .next t) :
    UnchangedBut [.clock, .exu, .inExecution, .turns, .journal, .day, .windows, .transfers,
      .drawers, .jsu, .buffers, .screens, .locks, .idles, .sender, .out, .fault] s t := by
  cases e
  refine UnchangedBut.trans ((clock_frame (advanceClock s.clock) s).mono (by simp)) ?_
  unfold tickUnits
  split
  · exact .foldl (fun t u => by
      rcases serve_cases (.tick u) t with h | h <;> rw [h]
      · exact (tickEffect_parts u t).mono (by decide)
      · simp) _ _
  · simp (maxDischargeDepth := 30)
  · exact .refl _ _

/-! ### Timers, display lines, head office and printers -/

theorem execQuoteTimeExpiry_frame (n : Nat) {s t : State} (e : execQuoteTimeExpiry n s = .next t) :
    UnchangedBut [.exu, .windows, .buffers, .screens, .inExecution] s t := by
  cases e
  exact .ite _ (.refl _ s) (unlessWaits_frame _ (quoteTimesOut_frame n s))

theorem execTransferTimeout_frame (n : Nat) {s t : State} (e : execTransferTimeout n s = .next t) :
    UnchangedBut [.journal, .day, .windows, .transfers, .drawers, .jsu, .buffers, .screens, .inExecution] s t := by
  cases e
  exact .ite _ (unlessWaits_frame _ (timeoutTransfer_frame n s)) (.refl _ s)

theorem execIdleCountExpiry_frame (p : Position) {s t : State} (e : execIdleCountExpiry p s = .next t) :
    UnchangedBut [.screens, .locks, .idles, .windows] s t := by
  cases e
  exact .ite _ (.refl _ s) (unlessWaits_frame _ (idleTimesOut_frame p s))

theorem execRowSend_frame (p : Position) {s t : State} (e : execRowSend p s = .next t) :
    UnchangedBut [.screens, .lines, .out] s t := by
  cases e
  exact .ite _ (.refl _ s) (sendNextRow_frame p s)

theorem execCallWaitExpiry_frame {s t : State} (e : execCallWaitExpiry s = .next t) :
    UnchangedBut [.sender, .out] s t := by
  cases e
  exact unlessWaits_frame _ (callWaitDue_frame s)

theorem execResponseTimerExpiry_frame {s t : State} (e : execResponseTimerExpiry s = .next t) :
    UnchangedBut [.sender, .out, .day, .fault, .buffers, .screens, .windows, .inExecution] s t := by
  cases e
  exact unlessWaits_frame _ (responseTimerDue_frame s)

theorem execEndTimerExpiry_frame {s t : State} (e : execEndTimerExpiry s = .next t) :
    UnchangedBut [.sender, .out, .day, .fault, .buffers, .screens, .windows, .inExecution] s t := by
  cases e
  exact unlessWaits_frame _ (endTimerDue_frame s)

theorem execBlockAgeTimeout_frame {s t : State} (e : execBlockAgeTimeout s = .next t) :
    UnchangedBut [.sender, .out, .day, .fault, .buffers, .screens, .windows, .inExecution] s t := by
  cases e
  exact unlessWaits_frame _ (blockAgeDue_frame s)

theorem execAckTimerExpiry_frame (p : Position) {s t : State} (e : execAckTimerExpiry p s = .next t) :
    UnchangedBut [.screens, .lines, .out, .windows, .inExecution, .turns] s t := by
  cases e
  exact (takeEvent_frame _ (ackTimesOut_frame p s)).mono (by decide)

theorem execProbeTimerExpiry_frame (p : Position) {s t : State} (e : execProbeTimerExpiry p s = .next t) :
    UnchangedBut [.screens, .lines, .out, .inExecution, .turns] s t := by
  cases e
  exact (takeEvent_frame _ (probeTimesOut_frame p s)).mono (by decide)

theorem execRowAck_frame (p : Position) (n : Byte) (c : Word) {s t : State} (e : execRowAck p n c s = .next t) :
    UnchangedBut [.screens, .lines, .inExecution, .turns] s t := by
  cases e
  exact (takeEvent_frame _ (takeRowAck_frame p n c s)).mono (by decide)

theorem execProbeAnswer_frame (p : Position) (n : Byte) (c : Word) {s t : State} (e : execProbeAnswer p n c s = .next t) :
    UnchangedBut [.screens, .lines, .windows, .inExecution, .turns] s t := by
  cases e
  exact (takeEvent_frame _ (takeProbeAnswer_frame p n c s)).mono (by decide)

theorem execReady_frame (b c : Word) {s t : State} (e : execReady b c s = .next t) :
    UnchangedBut [.sender, .out, .day, .fault, .buffers, .screens, .windows, .inExecution, .turns] s t := by
  cases e
  exact (takeEvent_frame _ (readyArrives_frame b c s)).mono (by decide)

theorem execBusy_frame (c : Word) {s t : State} (e : execBusy c s = .next t) :
    UnchangedBut [.sender, .out, .day, .fault, .buffers, .screens, .windows, .inExecution, .turns] s t := by
  cases e
  exact (takeEvent_frame _ (busyArrives_frame c s)).mono (by decide)

theorem execAck_frame (b c : Word) {s t : State} (e : execAck b c s = .next t) :
    UnchangedBut [.sender, .out, .day, .fault, .buffers, .screens, .windows, .inExecution, .turns] s t := by
  cases e
  exact (takeEvent_frame _ (ackArrives_frame b c s)).mono (by decide)

theorem execNak_frame (b c : Word) {s t : State} (e : execNak b c s = .next t) :
    UnchangedBut [.sender, .out, .day, .fault, .buffers, .screens, .windows, .inExecution, .turns] s t := by
  cases e
  exact (takeEvent_frame _ (nakArrives_frame b c s)).mono (by decide)

theorem execClosed_frame (l : List Byte) (c : Word) {s t : State} (e : execClosed l c s = .next t) :
    UnchangedBut [.sender, .out, .day, .fault, .buffers, .screens, .windows, .inExecution, .turns] s t := by
  cases e
  exact (takeEvent_frame _ (closedArrives_frame l c s)).mono (by decide)

theorem execUnknownFrame_frame (l : List Byte) {s t : State} (e : execUnknownFrame l s = .next t) :
    UnchangedBut [.sender, .inExecution, .turns] s t := by
  cases e
  exact (takeEvent_frame _ (unknownArrives_frame l s)).mono (by decide)

theorem execBookPresent_frame (p : PrinterNo) {s t : State} (e : execBookPresent p s = .next t) :
    UnchangedBut [.pru, .inExecution, .turns] s t := by
  cases e
  exact (takeEvent_frame _ (bookArrives_frame p s)).mono (by decide)

theorem execBookRemoved_frame (p : PrinterNo) {s t : State} (e : execBookRemoved p s = .next t) :
    UnchangedBut [.accounts, .pru, .buffers, .screens, .windows, .inExecution, .turns] s t := by
  cases e
  exact (takeEvent_frame _ (bookLeaves_frame p s)).mono (by decide)

theorem execTopEdge_frame (p : PrinterNo) (n : Fin 4096) {s t : State} (e : execTopEdge p n s = .next t) :
    UnchangedBut [.pru, .buffers, .screens, .inExecution, .turns] s t := by
  cases e
  exact (takeEvent_frame _ (edgeFound_frame p _ s)).mono (by decide)

theorem execStepLimit_frame (p : PrinterNo) {s t : State} (e : execStepLimit p s = .next t) :
    UnchangedBut [.accounts, .pru, .buffers, .screens, .windows, .inExecution, .turns] s t := by
  cases e
  exact (takeEvent_frame _ (limitReached_frame p s)).mono (by decide)

theorem execStripeReadComplete_frame (p : PrinterNo) (l : Option (List Byte)) {s t : State} (e : execStripeReadComplete p l s = .next t) :
    UnchangedBut [.accounts, .pru, .buffers, .screens, .windows, .pacing, .inExecution, .turns] s t := by
  cases e
  exact (takeEvent_frame _ (stripeReadEnds_frame p l s)).mono (by decide)

theorem execStripeWriteComplete_frame (p : PrinterNo) (l : Option (List Byte)) {s t : State} (e : execStripeWriteComplete p l s = .next t) :
    UnchangedBut [.pru, .windows, .buffers, .screens, .inExecution, .turns] s t := by
  cases e
  exact (takeEvent_frame _ (stripeWriteEnds_frame p l s)).mono (by decide)

theorem execLineDone_frame (p : PrinterNo) {s t : State} (e : execLineDone p s = .next t) :
    UnchangedBut [.pru, .out, .inExecution, .turns] s t := by
  cases e
  exact (takeEvent_frame _ (lineEnds_frame p s)).mono (by decide)

theorem execHeadHome_frame (p : PrinterNo) {s t : State} (e : execHeadHome p s = .next t) :
    UnchangedBut [.accounts, .pru, .buffers, .screens, .windows, .pacing, .inExecution, .turns] s t := by
  cases e
  exact (takeEvent_frame _ (headArrives_frame p s)).mono (by decide)

theorem execEjectDone_frame (p : PrinterNo) {s t : State} (e : execEjectDone p s = .next t) :
    UnchangedBut [.accounts, .pru, .buffers, .screens, .windows, .inExecution, .turns] s t := by
  cases e
  exact (takeEvent_frame _ (ejectEnds_frame p s)).mono (by decide)

theorem execJamTimerExpiry_frame (p : PrinterNo) {s t : State} (e : execJamTimerExpiry p s = .next t) :
    UnchangedBut [.accounts, .pru, .buffers, .screens, .windows, .fault, .inExecution, .turns] s t := by
  cases e
  exact (takeEvent_frame _ (jamTimesOut_frame p s)).mono (by decide)

theorem execDeliver_frame {s t : State} (e : execDeliver s = .next t) :
    UnchangedBut (withWaiting [.delivery, .responses]) s t := by
  cases e
  exact .ite _ (deliver_frame s) (.refl _ s)

end Sys2Proof.Machine
end

