-- ==== Sys2Proof/Laws/Lines.lean ====
section
/-! SUPPORT. The order of an account's lines: what adding a line keeps. -/

namespace Sys2Proof.Machine

/-- No line's key is below the key of a line that stands before it (R103). -/
abbrev InKeyOrder (ls : List Line) : Prop := ls.Pairwise fun b c => c.key.lt b.key = false

theorem insertLine_perm (l : Line) (ls : List Line) : (insertLine l ls).Perm (l :: ls) := by
  induction ls with
  | nil => exact .refl _
  | cons a rest ih =>
    unfold insertLine
    split
    · exact .refl _
    · exact (ih.cons a).trans (.swap l a rest)

/-- A line inserted into a list in key order leaves it in key order (R103). -/
theorem insertLine_keeps_order (l : Line) (ls : List Line) (h : InKeyOrder ls) : InKeyOrder (insertLine l ls) := by
  induction ls with
  | nil => simp [InKeyOrder, insertLine]
  | cons a rest ih =>
    rw [InKeyOrder, List.pairwise_cons] at h
    unfold insertLine
    split
    · rename_i hl
      refine List.pairwise_cons.2 ⟨fun b hb => ?_, List.pairwise_cons.2 h⟩
      rcases List.mem_cons.1 hb with rfl | hb
      · simp [Key.lt] at hl ⊢; omega
      · have := h.1 b hb; simp [Key.lt] at hl this ⊢; omega
    · rename_i hl
      refine List.pairwise_cons.2 ⟨fun b hb => ?_, ih h.2⟩
      rcases List.mem_cons.1 ((insertLine_perm l rest).mem_iff.1 hb) with rfl | hb
      · simpa using hl
      · exact h.1 b hb

/-- Adding a line keeps key order, whichever way room is made for it (R103). -/
theorem addLine_keeps_order (l : Line) (a : Account) (h : InKeyOrder a.lines) : InKeyOrder (addLine l a).lines := by
  have kept (p) : InKeyOrder (dropFirst p a.lines) := h.sublist List.eraseP_sublist
  unfold addLine
  split
  · exact insertLine_keeps_order l _ h
  · split
    · exact insertLine_keeps_order l _ (kept _)
    · split
      · exact insertLine_keeps_order l _ (kept _)
      · exact h

end Sys2Proof.Machine
end

