-- ==== Sys2Proof/Laws/PerInstr.lean ====
section
/-! SUPPORT. A law of the commands as syntax, command by command: exactly the requests carry a header, and each has a
kind that the header's byte holds (R179, R192). -/

namespace Sys2Proof.Laws.HeadAndKind

open Sys2Proof Sys2Proof.Machine

/-- A command carries a header exactly when it has a request kind, and the kind lies in the byte of the header
word that spells it. -/
def Statement (i : Instr) : Prop :=
  (headOf i).isSome = (requestKind i).isSome ∧ (requestKind i).all (fun k => 16 ≤ k && k < 256) = true

theorem currencyDefine (h : ReqHead) (r : CurrencyDefineReq) : Statement (.currencyDefine h r) := ⟨rfl, rfl⟩
theorem drawerSignon (h : ReqHead) (r : SignonReq) : Statement (.drawerSignon h r) := ⟨rfl, rfl⟩
theorem drawerSignoff (h : ReqHead) (position : Fld Nat) : Statement (.drawerSignoff h position) := ⟨rfl, rfl⟩
theorem drawerLimits (h : ReqHead) (r : LimitsReq) : Statement (.drawerLimits h r) := ⟨rfl, rfl⟩
theorem drawerCount (h : ReqHead) (r : CountReq) : Statement (.drawerCount h r) := ⟨rfl, rfl⟩
theorem drawerAccept (h : ReqHead) (drawer : Fld Nat) : Statement (.drawerAccept h drawer) := ⟨rfl, rfl⟩
theorem drawerEnquire (h : ReqHead) (drawer : Fld Nat) : Statement (.drawerEnquire h drawer) := ⟨rfl, rfl⟩
theorem cashPost (h : ReqHead) (r : PostReq) : Statement (.cashPost h r) := ⟨rfl, rfl⟩
theorem cashReverse (h : ReqHead) (r : ReverseReq) : Statement (.cashReverse h r) := ⟨rfl, rfl⟩
theorem rateSet (h : ReqHead) (r : RateReq) : Statement (.rateSet h r) := ⟨rfl, rfl⟩
theorem feeSet (h : ReqHead) (r : FeeReq) : Statement (.feeSet h r) := ⟨rfl, rfl⟩
theorem quoteRequest (h : ReqHead) (r : QuoteReq) : Statement (.quoteRequest h r) := ⟨rfl, rfl⟩
theorem quoteRelease (h : ReqHead) (r : ReleaseReq) : Statement (.quoteRelease h r) := ⟨rfl, rfl⟩
theorem transferOffer (h : ReqHead) (r : OfferReq) : Statement (.transferOffer h r) := ⟨rfl, rfl⟩
theorem transferAccept (h : ReqHead) (r : AcceptReq) : Statement (.transferAccept h r) := ⟨rfl, rfl⟩
theorem transferDecline (h : ReqHead) (number : Fld Nat) : Statement (.transferDecline h number) := ⟨rfl, rfl⟩
theorem vaultReceive (h : ReqHead) (r : VaultReq) : Statement (.vaultReceive h r) := ⟨rfl, rfl⟩
theorem vaultDispatch (h : ReqHead) (r : VaultReq) : Statement (.vaultDispatch h r) := ⟨rfl, rfl⟩
theorem journalRead (h : ReqHead) (r : JournalReq) : Statement (.journalRead h r) := ⟨rfl, rfl⟩
theorem storeFormat (h : ReqHead) : Statement (.storeFormat h) := ⟨rfl, rfl⟩
theorem classSet (h : ReqHead) (r : ClassReq) : Statement (.classSet h r) := ⟨rfl, rfl⟩
theorem passbookEnquire (h : ReqHead) (r : PassbookReq) : Statement (.passbookEnquire h r) := ⟨rfl, rfl⟩
theorem passbookNewbook (h : ReqHead) (r : NewBookReq) : Statement (.passbookNewbook h r) := ⟨rfl, rfl⟩
theorem printStart (h : ReqHead) (r : PrintReq) : Statement (.printStart h r) := ⟨rfl, rfl⟩
theorem printCancel (h : ReqHead) (r : CancelReq) : Statement (.printCancel h r) := ⟨rfl, rfl⟩
theorem printerPace (h : ReqHead) (r : PaceReq) : Statement (.printerPace h r) := ⟨rfl, rfl⟩
theorem printerReset (h : ReqHead) (printer : Fld PrinterNo) : Statement (.printerReset h printer) := ⟨rfl, rfl⟩
theorem rowClaim (h : ReqHead) : Statement (.rowClaim h) := ⟨rfl, rfl⟩
theorem rowFree (h : ReqHead) (buffer : Fld Nat) : Statement (.rowFree h buffer) := ⟨rfl, rfl⟩
theorem rowWrite (h : ReqHead) (r : RowWriteReq) : Statement (.rowWrite h r) := ⟨rfl, rfl⟩
theorem mapSet (h : ReqHead) (r : MapReq) : Statement (.mapSet h r) := ⟨rfl, rfl⟩
theorem fieldBind (h : ReqHead) (r : BindReq) : Statement (.fieldBind h r) := ⟨rfl, rfl⟩
theorem screenActivity (h : ReqHead) (position : Fld Nat) : Statement (.screenActivity h position) := ⟨rfl, rfl⟩
theorem screenUnlock (h : ReqHead) (r : UnlockReq) : Statement (.screenUnlock h r) := ⟨rfl, rfl⟩
theorem screenSettings (h : ReqHead) (r : ScreenSettingsReq) : Statement (.screenSettings h r) := ⟨rfl, rfl⟩
theorem dayOpen (h : ReqHead) (date : Fld Nat) : Statement (.dayOpen h date) := ⟨rfl, rfl⟩
theorem dayClose (h : ReqHead) : Statement (.dayClose h) := ⟨rfl, rfl⟩
theorem dayReopen (h : ReqHead) : Statement (.dayReopen h) := ⟨rfl, rfl⟩
theorem daySeal (h : ReqHead) : Statement (.daySeal h) := ⟨rfl, rfl⟩
theorem daySend (h : ReqHead) : Statement (.daySend h) := ⟨rfl, rfl⟩
theorem dayClear (h : ReqHead) : Statement (.dayClear h) := ⟨rfl, rfl⟩
theorem lineSettings (h : ReqHead) (r : LineReq) : Statement (.lineSettings h r) := ⟨rfl, rfl⟩
theorem positionBind (h : ReqHead) (r : PositionReq) : Statement (.positionBind h r) := ⟨rfl, rfl⟩
theorem portSettings (h : ReqHead) (burst : Fld Nat) : Statement (.portSettings h burst) := ⟨rfl, rfl⟩
theorem faultRead (h : ReqHead) : Statement (.faultRead h) := ⟨rfl, rfl⟩
theorem faultClear (h : ReqHead) : Statement (.faultClear h) := ⟨rfl, rfl⟩
theorem clockSet (h : ReqHead) (r : ClockReq) : Statement (.clockSet h r) := ⟨rfl, rfl⟩
theorem partStatus (h : ReqHead) : Statement (.partStatus h) := ⟨rfl, rfl⟩
theorem postAreaWrite (m : Fin 8) (offset : Fin 2048) (w : Word) : Statement (.postAreaWrite m offset w) := ⟨rfl, rfl⟩
theorem postWord (m : Fin 8) (w : Word) : Statement (.postWord m w) := ⟨rfl, rfl⟩
theorem responseTake (r : WindowRead) : Statement (.responseTake r) := ⟨rfl, rfl⟩
theorem portStatusRead (m : Fin 8) : Statement (.portStatusRead m) := ⟨rfl, rfl⟩
theorem noticeTake (m : Fin 8) : Statement (.noticeTake m) := ⟨rfl, rfl⟩
theorem noticeEnd (m : Fin 8) : Statement (.noticeEnd m) := ⟨rfl, rfl⟩
theorem requestHandout : Statement .requestHandout := ⟨rfl, rfl⟩
theorem powerWarning : Statement .powerWarning := ⟨rfl, rfl⟩
theorem powerWarningWithdrawn : Statement .powerWarningWithdrawn := ⟨rfl, rfl⟩
theorem powerUp (battery : Bool) : Statement (.powerUp battery) := ⟨rfl, rfl⟩
theorem backplaneReset : Statement .backplaneReset := ⟨rfl, rfl⟩
theorem secondTick : Statement .secondTick := ⟨rfl, rfl⟩
theorem quoteTimeExpiry (number : Nat) : Statement (.quoteTimeExpiry number) := ⟨rfl, rfl⟩
theorem transferTimeout (number : Nat) : Statement (.transferTimeout number) := ⟨rfl, rfl⟩
theorem idleCountExpiry (position : Position) : Statement (.idleCountExpiry position) := ⟨rfl, rfl⟩
theorem ackTimerExpiry (screen : Position) : Statement (.ackTimerExpiry screen) := ⟨rfl, rfl⟩
theorem probeTimerExpiry (screen : Position) : Statement (.probeTimerExpiry screen) := ⟨rfl, rfl⟩
theorem rowSend (screen : Position) : Statement (.rowSend screen) := ⟨rfl, rfl⟩
theorem rowAck (screen : Position) (number : Byte) (check : Word) : Statement (.rowAck screen number check) := ⟨rfl, rfl⟩
theorem probeAnswer (screen : Position) (number : Byte) (check : Word) : Statement (.probeAnswer screen number check) := ⟨rfl, rfl⟩
theorem callWaitExpiry : Statement .callWaitExpiry := ⟨rfl, rfl⟩
theorem responseTimerExpiry : Statement .responseTimerExpiry := ⟨rfl, rfl⟩
theorem endTimerExpiry : Statement .endTimerExpiry := ⟨rfl, rfl⟩
theorem blockAgeTimeout : Statement .blockAgeTimeout := ⟨rfl, rfl⟩
theorem ready (block : Word) (check : Word) : Statement (.ready block check) := ⟨rfl, rfl⟩
theorem busy (check : Word) : Statement (.busy check) := ⟨rfl, rfl⟩
theorem ack (block : Word) (check : Word) : Statement (.ack block check) := ⟨rfl, rfl⟩
theorem nak (block : Word) (check : Word) : Statement (.nak block check) := ⟨rfl, rfl⟩
theorem closed (reference : List Byte) (check : Word) : Statement (.closed reference check) := ⟨rfl, rfl⟩
theorem unknownFrame (bytes : List Byte) : Statement (.unknownFrame bytes) := ⟨rfl, rfl⟩
theorem bookPresent (p : PrinterNo) : Statement (.bookPresent p) := ⟨rfl, rfl⟩
theorem bookRemoved (p : PrinterNo) : Statement (.bookRemoved p) := ⟨rfl, rfl⟩
theorem topEdge (p : PrinterNo) (steps : Fin 4096) : Statement (.topEdge p steps) := ⟨rfl, rfl⟩
theorem stepLimit (p : PrinterNo) : Statement (.stepLimit p) := ⟨rfl, rfl⟩
theorem stripeReadComplete (p : PrinterNo) (stripe : Option (List Byte)) : Statement (.stripeReadComplete p stripe) := ⟨rfl, rfl⟩
theorem stripeWriteComplete (p : PrinterNo) (readBack : Option (List Byte)) : Statement (.stripeWriteComplete p readBack) := ⟨rfl, rfl⟩
theorem lineDone (p : PrinterNo) : Statement (.lineDone p) := ⟨rfl, rfl⟩
theorem headHome (p : PrinterNo) : Statement (.headHome p) := ⟨rfl, rfl⟩
theorem ejectDone (p : PrinterNo) : Statement (.ejectDone p) := ⟨rfl, rfl⟩
theorem jamTimerExpiry (p : PrinterNo) : Statement (.jamTimerExpiry p) := ⟨rfl, rfl⟩
theorem deliver : Statement .deliver := ⟨rfl, rfl⟩
theorem mainSupplyFall : Statement .mainSupplyFall := ⟨rfl, rfl⟩

end Sys2Proof.Laws.HeadAndKind
end

