-- ==== Sys2Proof/Laws/Service.lean ====
section
/-! SUPPORT. What carrying out a request does, once for all requests: it is taken as its checks say, and
answered; a request that is not in execution at its master does nothing (R179 to R182). -/

namespace Sys2Proof.Machine

/-! ### Windows under notices and responses -/

theorem raiseTo_windows (m : Master) (d : Detail) {s : State} (h : s.power = .up) :
    (raiseTo m d s).port.windows = s.port.windows.modify m (addNotice d) := by
  simp [raiseTo, h]

theorem notify_append (l k : List (Master × Detail)) (w : Table Window 5) :
    notify (l ++ k) w = notify k (notify l w) := by simp [notify]

@[simp] theorem notify_nil (w : Table Window 5) : notify [] w = w := rfl

@[simp] theorem notify_cons (e : Master × Detail) (l : List (Master × Detail)) (w : Table Window 5) :
    notify (e :: l) w = notify l (w.modify e.1 (addNotice e.2)) := rfl

theorem respond_windows (h : ReqHead) (k : Nat) (c : Code) (b : Bool) (l : List (Option (List Item)))
    {s : State} {i : Instr} (e : s.port.inExecution.get h.master = some ⟨i, false⟩) :
    (respond h k c b l s).port.windows = withResponse h k c b l s.port.windows := by
  simp [respond, e, withResponse]

/-- A response whose request came before a backplane reset is discarded (R190). -/
theorem respond_discarded (h : ReqHead) (k : Nat) (c : Code) (b : Bool) (l : List (Option (List Item)))
    {s : State} {i : Instr} (e : s.port.inExecution.get h.master = some ⟨i, true⟩) :
    (respond h k c b l s).port.windows = s.port.windows := by
  simp [respond, e]

/-! ### Idle counts (R152) -/

theorem restartIdle_eq (p : Position) (s : State) : restartIdle p s = { s with scu := restartedScu s p } := by
  unfold restartIdle idleRuns restartedScu isLocked
  by_cases h1 : (s.store.positions.get p).teller.isSome = true <;>
    by_cases h2 : (s.scu.screens.get p).lockHeld = true <;>
      by_cases h3 : s.scu.idleTimeout = 0 <;> simp [h1, h2, h3, modifyScreen]

/-- The state in which a request is judged: the idle count of a position it names has been restarted. -/
theorem restartNamed_named (i : Instr) (p : Position) (h : namedPosition i = .value p.val) (s : State) :
    restartNamed i s = { s with scu := restartedScu s p } := by
  have hp : inRange 0 11 (Fld.value p.val) = true := by
    simp [inRange, Fld.required, between]; omega
  have hq : positionOf (Fld.value p.val) = p := by
    simp [positionOf, Fld.nat, Fld.getD, Fin.ofNat, Fin.ext_iff]
  simp [restartNamed, h, hp, hq, restartIdle_eq]

theorem restartNamed_none (i : Instr) (h : namedPosition i = .absent) (s : State) : restartNamed i s = s := by
  simp [restartNamed, h, inRange, Fld.required]

@[simp] theorem restartNamed_inExecution (i : Instr) (s : State) :
    (restartNamed i s).port = s.port := by
  unfold restartNamed
  split
  · rw [restartIdle_eq]
  · rfl

@[simp] theorem restartNamed_store (i : Instr) (s : State) : (restartNamed i s).store = s.store := by
  unfold restartNamed
  split
  · rw [restartIdle_eq]
  · rfl

/-! ### The operations asked (R29, R67) -/

theorem somethingWaits_eq_false {s : State} : somethingWaits s = false ↔ NothingWaits s := by
  simp [somethingWaits, NothingWaits]

theorem takeFrom_quiet (fuel : Nat) {s : State} (h : NothingWaits s) : ∀ k, takeFrom fuel k s = s := by
  induction fuel with
  | zero => intro k; rfl
  | succ fuel ih =>
    intro k
    unfold takeFrom
    split
    · rfl
    · rename_i x e
      rw [h x (List.mem_of_getElem? e)]
      simpa using ih (k + 1)

/-- With nothing waiting that is taken by itself nothing is taken. -/
theorem takeWaiting_quiet {s : State} (h : NothingWaits s) : takeWaiting s = s := takeFrom_quiet _ h 0

/-- A unit that several operations may share is free where it is free for each. -/
theorem takenAt_cons {s : State} {u : UnitName} {l : List UnitName} :
    TakenAt s (u :: l) ↔ (s.power = .up → UnitFree s u) ∧ TakenAt s l := by
  simp only [TakenAt, List.forall_mem_cons]
  exact ⟨fun h => ⟨fun up => (h up).1, fun up => (h up).2⟩, fun h up => ⟨h.1 up, h.2 up⟩⟩

theorem takenAt_nil (s : State) : TakenAt s [] := fun _ _ h => absurd h List.not_mem_nil

/-- What is asked is taken at once where the units at which it is taken are free. -/
theorem serve_taken {x : Asked} {s : State} (h : TakenAt s (unitsAsked x s)) : serve x s = askedEffect x s := by
  simp [serve, waitsAt_eq_false.mpr h]

/-- It waits where one of them is not. -/
theorem serve_waits {x : Asked} {s : State} (h : ¬TakenAt s (unitsAsked x s)) : serve x s = ask x s := by
  simp [serve, Bool.eq_true_of_not_eq_false fun e => h (waitsAt_eq_false.mp e)]

/-- An effect that is had at once or not at all is had where the units are free. -/
theorem unlessWaits_taken {units : List UnitName} {s : State} (f : State → State) (h : TakenAt s units) :
    unlessWaits units f s = f s := by
  simp [unlessWaits, waitsAt_eq_false.mpr h]

/-- Where one of the units is not free it changes nothing. -/
theorem unlessWaits_waits {units : List UnitName} {s : State} (f : State → State) (h : ¬TakenAt s units) :
    unlessWaits units f s = s := by
  simp [unlessWaits, Bool.eq_true_of_not_eq_false fun e => h (waitsAt_eq_false.mp e)]

/-- With nothing standing at the Screen Unit a binding's start or end is taken there at once. -/
theorem bindScreen_taken (p : Position) (b : Bool) {s : State} (h : NoneStandsAt s .scu) :
    bindScreen p b s = takeBinding p b s := by
  have : waitsAt [.scu] s.port.order s = false :=
    waitsAt_eq_false.mpr (takenAt_cons.mpr ⟨fun _ => ⟨h, fun e => nomatch e⟩, takenAt_nil s⟩)
  simp [bindScreen, this]

/-- An event asks no unit but its own and the Passbook Line Unit. -/
theorem unitsAsked_event (i : Instr) (s : State) :
    unitsAsked (.event i) s = [eventUnit i, .plu] ∨ unitsAsked (.event i) s = [eventUnit i] := by
  simp only [unitsAsked]
  split
  · exact .inl rfl
  · exact .inr rfl

/-- An event is taken at once where its unit and the Passbook Line Unit are free. -/
theorem takeEvent_taken {i : Instr} {s : State} (h : TakenAt s [eventUnit i, .plu]) :
    takeEvent i s = eventEffect i s := by
  refine serve_taken ?_
  rcases unitsAsked_event i s with e | e <;> rw [e]
  · exact h
  · exact takenAt_cons.mpr ⟨(takenAt_cons.mp h).1, takenAt_nil s⟩

/-- An event that finds its unit taken waits. -/
theorem takeEvent_waits {i : Instr} {s : State} (up : s.power = .up) (h : ¬UnitFree s (eventUnit i)) :
    takeEvent i s = ask (.event i) s := by
  refine serve_waits fun k => h (k up _ ?_)
  rcases unitsAsked_event i s with e | e <;> rw [e] <;> simp

theorem tickEnds_iff {s : State} : tickEnds s = true ↔
    ∃ i a, s.store.transfers.get i = some a ∧ a.state = .offered ∧ a.remaining ≤ 1 := by
  simp only [tickEnds, offeredSlots, Table.entries, List.any_eq_true, List.mem_filterMap, List.mem_map,
    decide_eq_true_eq]
  constructor
  · rintro ⟨e, ⟨x, ⟨i, hi, rfl⟩, hx⟩, hr⟩
    simp only [Option.bind_eq_some_iff] at hx
    obtain ⟨a, ha, hx⟩ := hx
    split at hx
    · cases hx
      exact ⟨i, a, ha, by simpa [isOffered] using ‹isOffered a = true›, hr⟩
    · cases hx
  · rintro ⟨i, a, ha, ho, hr⟩
    exact ⟨(i, a), ⟨(i, some a), ⟨i, by simp, by rw [← ha]⟩, by simp [isOffered, ho]⟩, hr⟩

/-- A second tick is taken at once by a unit exactly where `TickTaken` says. -/
theorem takenAt_tick {u : UnitName} {s : State} (up : s.power = .up) :
    TakenAt s (unitsAsked (.tick u) s) ↔ TickTaken s u := by
  have one : ∀ v, TakenAt s [v] ↔ UnitFree s v := fun v => by
    rw [takenAt_cons]; exact ⟨fun h => h.1 up, fun h => ⟨fun _ => h, takenAt_nil s⟩⟩
  have two : ∀ v w, TakenAt s [v, w] ↔ UnitFree s v ∧ UnitFree s w := fun v w => by
    rw [takenAt_cons, one]; exact ⟨fun h => ⟨h.1 up, h.2⟩, fun h => ⟨fun _ => h.1, h.2⟩⟩
  unfold TickTaken
  cases u
  case tru =>
    rw [← tickEnds_iff]
    by_cases h : tickEnds s = true <;> simp [unitsAsked, h, one, two]
  case dlu => by_cases h : readsCarry s (tickDlu s) = true <;> simp [unitsAsked, h, one, two]
  all_goals simp [unitsAsked, standsAt, one]

theorem tick_taken {u : UnitName} {s : State} (h : TickTaken s u) : serve (.tick u) s = tickEffect u s := by
  by_cases up : s.power = .up
  · exact serve_taken ((takenAt_tick up).mpr h)
  · exact serve_taken fun e => absurd e up

theorem tick_waits {u : UnitName} {s : State} (up : s.power = .up) (h : ¬TickTaken s u) :
    serve (.tick u) s = ask (.tick u) s := serve_waits fun e => h ((takenAt_tick up).mp e)

/-- A deliver whose turn has come is made, and what waited for the acceptance is taken after it. -/
theorem deliver_taken {s : State} (due : s.delivery.isSome = true)
    (turn : waitsAt [.dru] (askedBefore .deliver s) s = false) : deliver s = takeWaiting (finishDelivery s) := by
  simp [deliver, due, turn]

theorem deliver_waits {s : State} (turn : waitsAt [.dru] (askedBefore .deliver s) s = true) : deliver s = s := by
  simp [deliver, turn]

/-! ### Requests in service -/

theorem handed_inService {h : ReqHead} {i : Instr} {s : State} (e : InService h i s) :
    handed h i s = some s := by
  simp [handed, e.up, e.here]

theorem shutOut_open {s : State} (i : Instr) (h : s.kept = none) : shutOut i s = false := by simp [shutOut, h]

/-- A request in service is its unit's body, on the state with the idle count restarted, and its response. -/
theorem carry_inService {h : ReqHead} {i : Instr} {s : State} (e : InService h i s) (body : State → Verdict) :
    carry h i body s = settle h i (body (restartNamed i s)) := by
  simp [carry, handed_inService e, shutOut_open i e.storeOpen, e.turn, somethingWaits_eq_false.mpr e.quiet]

/-- A request whose turn at its unit has not come waits, with nothing changed (R29, R180). -/
theorem carry_waits {h : ReqHead} {i : Instr} {s : State} {discard : Bool} (up : s.power = .up)
    (here : s.port.inExecution.get h.master = some ⟨i, discard⟩) (opened : s.kept = none)
    (turn : waitsTurn h i s = true) (body : State → Verdict) : carry h i body s = s := by
  simp [carry, handed, up, here, shutOut_open i opened, turn]

/-- In STORE_INVALID the port answers a request that is shut out, whatever waits before it (R179). -/
theorem carry_shutOut {h : ReqHead} {i : Instr} {s : State} (up : s.power = .up)
    (here : s.port.inExecution.get h.master = some ⟨i, false⟩) (shut : shutOut i s = true)
    (body : State → Verdict) : carry h i body s = settle h i (invalidVerdict h i (restartNamed i s)) := by
  simp [carry, handed, up, here, shut]

/-- A request whose checks all pass is taken. -/
theorem judge_taken {l : List Check} (s : State) (v : Verdict) (h : firstFailure l = none) : judge l s v = v := by
  simp [judge, h]

/-- A request whose first failing check is `c` is refused by it. -/
theorem judge_refused {l : List Check} {s : State} {v : Verdict} {c : Check} (h : firstFailure l = some c) :
    judge l s v = refuse s c := by
  simp [judge, h]

theorem firstFailure_nil : firstFailure [] = none := rfl

theorem firstFailure_cons (c : Check) (l : List Check) :
    firstFailure (c :: l) = if c.pass then firstFailure l else some c := by
  cases h : c.pass <;> simp [firstFailure, h]

theorem firstFailure_append (l k : List Check) :
    firstFailure (l ++ k) = (firstFailure l).or (firstFailure k) := by
  simp [firstFailure, List.find?_append]

/-- All checks pass. -/
theorem firstFailure_eq_none {l : List Check} : firstFailure l = none ↔ ∀ c ∈ l, c.pass = true := by
  simp [firstFailure]

end Sys2Proof.Machine
end

