-- ==== Sys2Proof/Tests/Slice0.lean ====
section
/-! SUPPORT. Tests: ill-formed commands are refused, worked figures of the manual come out, and every statement's
hypotheses are met by a concrete state. -/

open Sys2Proof Sys2Proof.Machine

namespace Sys2Proof.Tests

/-! ### A small branch -/

def station : ReqHead := ⟨0, 7, false, false⟩
def officer : ReqHead := ⟨4, 9, false, false⟩

def someCounts : Counts := Table.ofFn fun x => if x.val < 3 ∨ x.val = 12 ∨ x.val = 13 then 100 else 0

/-- Drawer 0 at the counter, holding some of every denomination. -/
def tellerDrawer : Drawer := { formatDrawer with state := .opened, bound := some 0, opening := someCounts, current := someCounts }

/-- An account with one pending line. -/
def someAccount : Account :=
  ⟨100000000001, [⟨⟨20260417, 2⟩, 3, 4500, none, none, false, false⟩], none, none, none, false, false, 1, 10⟩

/-- An open day: home currency and currency 1 defined, drawer 0 bound to position 0 with teller 3310, a rate for
currency 1, one passbook class, one account and the DAY_OPEN record. -/
def branchStore : Store :=
  { formatStore ⟨true, 1, headerCheck true 1⟩ with
    day := ⟨.opened, some 20260417, none, 0, none, 1, []⟩
    lineSettings := ⟨some 217, 10⟩
    currencies := ((Table.fill 4 ⟨false, 0, []⟩).set 0 ⟨true, 2, [5, 10, 100]⟩).set 1 ⟨true, 2, [500, 1000]⟩
    drawers := ((Table.fill 13 formatDrawer).set 0 tellerDrawer).set 12 { formatDrawer with current := someCounts }
    positions := Table.ofFn fun p =>
      if p = 0 then ⟨0, some 0, some 3310⟩ else ⟨defaultServing p, none, none⟩
    board := ⟨(Table.fill 3 emptyBoardEntry).set 0 ⟨some (1234567, 1300000), ⟨5, 200, 1500⟩, ⟨10, 250, 5000⟩⟩, 1, 120, 1, 0⟩
    classes := (Table.fill 8 ⟨0, 0, false⟩).set 0 ⟨1, 1, true⟩
    accounts := (Table.fill 64 none).set 0 (some someAccount)
    journal := [{ emptyRecord .dayOpen with sequence := 1, account := some 20260417, applied := true }] }

/-- The branch in service, its teller signed on and the idle count running. -/
def branch : State :=
  { State.reset with
    clock := ⟨100, 36000, true⟩
    store := branchStore
    kept := none
    jsu := ⟨0, .clean⟩
    port := powerUpPort
    scu := { State.reset.scu with
      screens := State.reset.scu.screens.set 0 { powerUpScreen false with idle := some 300 } } }

/-- The branch on a day in another state. -/
def onDay (d : DayState) (s : State) : State := modifyDay (fun x => { x with state := d }) s

/-- The request is the one in execution at its master. -/
def serving (h : ReqHead) (i : Instr) (s : State) : State :=
  { s with port := { s.port with 
    inExecution := s.port.inExecution.set h.master (some ⟨i, false⟩)
    order := [.request h.master] } }

/-- With no acceptance in progress the turn of the request has come, and nothing waits behind it. -/
theorem serving_turn {h : ReqHead} {i : Instr} {s : State} (hd : s.delivery = none) :
    waitsTurn h i (serving h i s) = false ∧ NothingWaits (serving h i s) :=
  ⟨by simp [waitsTurn, waitsAt, askedBefore, serving, hd], by simp [NothingWaits, serving, takesItself]⟩

/-- No other operation stands anywhere. -/
theorem serving_alone (h : ReqHead) (i : Instr) (s : State) : ∀ x ∈ (serving h i s).port.order,
    x ≠ .request h.master → standsAt (serving h i s) x ≠ some .scu := by simp [serving]

/-- With nothing asked every unit is free. -/
theorem all_free {s : State} (h : s.port.order = []) (d : s.delivery = none) (u : UnitName) : UnitFree s u :=
  ⟨fun _ hx => absurd (h ▸ hx) List.not_mem_nil, fun _ => d⟩

theorem all_taken {s : State} (h : s.port.order = []) (d : s.delivery = none) (l : List UnitName) : TakenAt s l :=
  fun _ u _ => all_free h d u

theorem serving_inService {h : ReqHead} {i : Instr} {s : State} (hp : s.power = .up) (hk : s.kept = none)
    (hd : s.delivery = none) : InService h i (serving h i s) :=
  ⟨hp, hk, by simp [serving], (serving_turn hd).1, (serving_turn hd).2, serving_alone h i s⟩

theorem officer_may : FromOfficer officer := ⟨rfl, rfl⟩

theorem station_any : FromAny station := ⟨rfl, fun h => nomatch h⟩

/-- What holds of every entry of a table holds of each. -/
theorem all_get {α : Type} {n : Nat} {t : Table (Option α) n} {p : α → Prop} [DecidablePred p]
    (h : ∀ j, (t.get j).all (fun a => decide (p a)) = true) : ∀ j a, t.get j = some a → p a := fun j a e => by
  have := h j
  simpa [e] using this

theorem first_zero {α : Type} {n : Nat} {t : Table (Option α) (n + 1)} {p : α → Prop} {a : α} (h : t.get 0 = some a)
    (hp : p a) : FirstWith t p 0 a := ⟨h, hp, fun j hj => absurd hj (Fin.not_lt_zero j)⟩

theorem branch_whole : JournalWhole branch := by unfold JournalWhole; decide

theorem station_may {i : Instr} : MayActFor station (serving station i branch) 0 :=
  And.intro rfl (And.intro nofun (Or.inr rfl))

/-! ### Witnesses: reset, steps, port -/

/-- The branch with a command waiting. -/
def waiting (i : Instr) : State := { branch with pending := [i] }

theorem notices_ok {t : Table (Option Notice) 8}
    (h : ∀ k, (t.get k).all (fun n => n.detail.kind == k && decide (n.repeats ≤ 255)) = true) : noticesOk t := by
  intro k n e
  have := h k
  simp [e] at this
  exact this

theorem witness_PortBoundsAreKept : PortInv (waiting .secondTick) ∧ ∃ t, step (waiting .secondTick) = .next t :=
  ⟨⟨by decide, by decide, by decide, fun m => notices_ok (by revert m; decide), fun m => notices_ok (by revert m; decide),
    by decide, nofun, by decide, by decide⟩, _, rfl⟩

theorem witness_ReferenceCountsAreKept : RefInv (waiting .secondTick) ∧ ∃ t, step (waiting .secondTick) = .next t :=
  ⟨by unfold RefInv; decide +kernel, _, rfl⟩

theorem witness_BindingsAreKept : BindInv (waiting .secondTick) ∧ ∃ t, step (waiting .secondTick) = .next t :=
  ⟨⟨by unfold bindingsAgree; decide, fun _ h => nomatch h⟩, _, rfl⟩

theorem witness_IdleCountsAndLocksAreKept : IdleInv (waiting .secondTick) ∧ ∃ t, step (waiting .secondTick) = .next t :=
  ⟨fun _ p => by
    have : (bindingsWaiting (waiting .secondTick) p).getLast? = none := rfl
    simp only [this]
    revert p; decide, _, rfl⟩

theorem witness_JournalOrderAndClockRangesAreKept :
    JournalInv (waiting .secondTick) ∧ ClockInv (waiting .secondTick) ∧ ∃ t, step (waiting .secondTick) = .next t :=
  ⟨⟨⟨by decide, fun n hn r e => by
      have : n = 0 := by change n < 1 at hn; omega
      subst this; cases e; rfl⟩, fun _ h => nomatch h⟩, by unfold ClockInv; decide, _, rfl⟩

/-- A part row's fields, its labels and its cells after the first power-up. -/
theorem reset_fields_show : ((List.finRange 192).all fun b =>
    let x := State.reset.scu.buffers.get b
    (List.finRange 5).all fun k => (x.fields.get k).all fun f =>
      decide (1 ≤ f.width) && decide (f.width ≤ 20) && decide (f.column + f.width ≤ 80) &&
      ((List.finRange 5).all fun j => (x.fields.get j).all fun g =>
        j == k || decide (g.column + g.width ≤ f.column) || decide (f.column + f.width ≤ g.column)) &&
      (List.finRange 80).all fun i => !(decide (f.column ≤ i.val) && decide (i.val < f.column + f.width)) ||
        x.cells.get i == plainCell (((fitted f.width (shown State.reset x.owner f.source))[i.val - f.column]?).getD 32)) =
    true := by decide +kernel

theorem reset_live_fields : LiveFieldInv State.reset := by
  have key (b : BufferNo) (k : Fin 5) (f : LiveField) (h : (State.reset.scu.buffers.get b).fields.get k = some f) := by
    have := List.all_eq_true.mp reset_fields_show b (List.mem_finRange b)
    have := List.all_eq_true.mp this k (List.mem_finRange k)
    rw [h, Option.all_some] at this
    simpa only [Bool.and_eq_true, decide_eq_true_eq, and_assoc] using this
  refine ⟨fun b k f h => ⟨(key b k f h).1, (key b k f h).2.1, (key b k f h).2.2.1⟩, fun b j k f g hf hg hn => ?_,
    fun _ b k f h _ i hi => ?_⟩
  · have := List.all_eq_true.mp (key b k g hg).2.2.2.1 j (List.mem_finRange j)
    rw [hf, Option.all_some] at this
    simpa [hn, LiveField.Apart] using this
  · have := List.all_eq_true.mp (key b k f h).2.2.2.2 i (List.mem_finRange i)
    simpa [hi.1, hi.2] using this

/-- The part after its first power-up, its day field showing STORE_INVALID, with a tick waiting. -/
theorem witness_LiveFieldsShowTheirSources : let s : State := { State.reset with pending := [.secondTick] }
    LiveFieldInv s ∧ BindInv s ∧ ∃ t, step s = .next t := by
  refine ⟨⟨reset_live_fields.placed, reset_live_fields.apart, reset_live_fields.showing⟩,
    ⟨?_, fun x h => ?_⟩, _, rfl⟩
  · unfold bindingsAgree; decide
  · cases h; unfold bindingsAgree; decide

/-- Each clause's offsets at both ends of their ranges; reads of the two other read words, of both ends of the latched words
and of the response area, and of a write-only part. -/
theorem witness_WindowsAreWrittenAndRead :
    (5 ≤ (5 : Fin 8).val ∧ 5 ≤ (7 : Fin 8).val ∧ branch.power ≠ .off ∧
    64 ≤ (64 : Fin 2048).val ∧ 64 ≤ (78 : Fin 2048).val ∧ 64 ≤ (2047 : Fin 2048).val) ∧
    ([68, 77, 1024, 2047, 0, 63, 64, 78] : List (Fin 2048)).all (fun o => !([65, 66, 67].contains o.val)) = true ∧
    PortInv branch :=
  ⟨by decide, by decide, ⟨by decide, by decide, by decide, fun m => notices_ok (by revert m; decide),
    fun m => notices_ok (by revert m; decide), by decide, nofun, by decide, by decide⟩⟩

/-- Both sides of the power test, a notice that qualifies, a master with none that does, and a highest notice in
service. -/
theorem witness_NoticesAreRaisedTakenAndEnded :
    branch.power = .up ∧ { branch with power := .shut }.power ≠ .up ∧
    Qualifies (State.reset.port.windows.get 4) 7 ⟨.fault .clockLost .bpp [.num 0], 0⟩ ∧
    (∀ k n, ¬Qualifies emptyWindow k n) ∧
    let x := { emptyWindow with service := emptyWindow.service.set 7 (some ⟨.fault .clockLost .bpp [.num 0], 0⟩) }
    (x.service.get 7).isSome ∧ ∀ j, (x.service.get j).isSome → j ≤ 7 :=
  ⟨rfl, by decide, by unfold Qualifies; decide, fun k n h => by
    have := h.1; simp [emptyWindow] at this, by decide⟩

/-- The branch with one request posted by master 0: PART.STATUS, or words that spell no request. -/
def posted (w : List Word) : State :=
  modifyWindow 0 (fun x => { x with requests := [⟨w, w.length⟩] }) branch

/-- DAY.CLOSE of master 4 behind a vault movement of master 0 that was handed before it. -/
def behind : State := { branch with port := { branch.port with
  inExecution := (branch.port.inExecution.set 0 (some ⟨.vaultReceive station ⟨.absent, .absent⟩, false⟩)).set 4
    (some ⟨.dayClose officer, false⟩)
  order := [.request 0, .request 4] } }

/-- The branch with one request in execution and the operations asked as listed. -/
def asked (h : ReqHead) (i : Instr) (l : List Asked) : State := { branch with port := { branch.port with
  inExecution := branch.port.inExecution.set h.master (some ⟨i, false⟩)
  order := l } }

/-- The request in execution at its master, handed before another. -/
def behindOne (h : ReqHead) (i : Instr) (m : Master) (other : Instr) (s : State) : State :=
  { s with port := { s.port with
    inExecution := (s.port.inExecution.set h.master (some ⟨i, false⟩)).set m (some ⟨other, false⟩)
    order := [.request h.master, .request m] } }

/-- A request waits behind one at its unit, and behind one at a unit of which it asks, a drawer operation behind a deliver, an
operation of the Transfer Unit behind a tick, behind a re-raise and behind an acceptance, one of the Screen Unit behind
reports, a binding's end and a frame, a tick behind a request, and a frame and reports at the Screen Unit behind one; both
kinds of words are handed out, in service and in STORE_INVALID. -/
theorem witness_TheServerTakesMastersInTurn :
    (headOf (.dayClose officer) = some officer ∧ behind.power = .up ∧ behind.kept = none ∧ behind.delivery = none ∧
      behind.port.inExecution.get 4 = some ⟨.dayClose officer, false⟩ ∧ behind.port.order = [.request 0] ++ .request 4 :: [] ∧
      .request 4 ∉ ([.request 0] : List Asked) ∧ .request 0 ∈ ([.request 0] : List Asked) ∧
      behind.port.inExecution.get 0 = some ⟨.vaultReceive station ⟨.absent, .absent⟩, false⟩ ∧
      unitOf (.vaultReceive station ⟨.absent, .absent⟩) = .dru ∧
      unitOf (.drawerLimits officer ⟨.absent, .absent, .absent⟩) = .dru ∧
      unitOf (.quoteRelease station ⟨.absent, .absent⟩) ∈ asksOf (.dayClose officer)) ∧
    (let i : Instr := .drawerLimits officer ⟨.absent, .absent, .absent⟩
      let s := asked officer i ([.deliver] ++ .request 4 :: [])
      headOf i = some officer ∧ s.power = .up ∧ s.kept = none ∧ s.port.inExecution.get 4 = some ⟨i, false⟩ ∧
      .deliver ∈ ([.deliver] : List Asked) ∧ unitOf i = .dru) ∧
    (let i : Instr := .daySeal officer
      let s := fun x => asked officer i ([x] ++ .request 4 :: [])
      headOf i = some officer ∧ (s .deliver).port.inExecution.get 4 = some ⟨i, false⟩ ∧
      .tick .tru ∈ ([.tick .tru] : List Asked) ∧ .tru ∈ asksOf i ∧
      .reraise 3 ∈ ([.reraise 3] : List Asked) ∧ asksTransfers i = true ∧
      { s .deliver with delivery := some ⟨station, 1, 1, 0, 1, zeroCounts, 0, false⟩ }.delivery.isSome = true) ∧
    (let i : Instr := .screenActivity station (.value 0)
      let s := fun x => asked station i ([x] ++ .request 0 :: [])
      headOf i = some station ∧ (s .deliver).port.inExecution.get 0 = some ⟨i, false⟩ ∧ unitOf i = .scu ∧
      (∃ l, .report l ∈ ([.report [.clock]] : List Asked)) ∧
      (∃ p starts, .binding p starts ∈ ([.binding 0 false] : List Asked)) ∧
      .event (.rowAck 0 0 0) ∈ ([.event (.rowAck 0 0 0)] : List Asked) ∧ eventUnit (.rowAck 0 0 0) = unitOf i ∧
      eventUnit (.rowAck 0 0 0) ≠ .bpp ∧ (serving station i branch).power = .up ∧ ¬UnitFree (serving station i branch) .scu ∧
      ([.clock] : List Report) ≠ []) ∧
    (let i : Instr := .drawerEnquire officer (.value 12)
      let s := asked officer i [.request 4, .tick .tru]
      headOf i = some officer ∧ s.power = .up ∧ s.kept = none ∧ s.port.inExecution.get 4 = some ⟨i, false⟩ ∧
      s.delivery = none ∧ ∃ t, exec i s = .next t ∧ t.port.order = []) ∧
    (posted [42247, 3, 0]).power = .up ∧ (posted [42247, 3, 0]).kept = none ∧ (∀ m, ¬Eligible branch m) ∧
    Eligible (posted [42247, 3, 0]) 0 ∧ ServedNext (posted [42247, 3, 0]) 0 1 ∧ ServedNext (posted [7, 3, 0]) 0 1 ∧
    .request 0 ∉ (posted [42247, 3, 0]).port.order ∧
    let s := fun w => { posted w with kept := some branchStore }
    readRequest 0 ⟨[42247, 3, 0], 3⟩ = some (.partStatus ⟨0, 7, false, false⟩) ∧
      readRequest 0 ⟨[32775, 3, 0], 3⟩ = some (.rowClaim ⟨0, 7, false, false⟩) ∧
      ServedNext (s [42247, 3, 0]) 0 1 ∧ ServedNext (s [32775, 3, 0]) 0 1 := by
  refine ⟨⟨rfl, rfl, rfl, rfl, rfl, rfl, by decide, by decide, rfl, rfl, rfl, by decide⟩,
    ⟨rfl, rfl, rfl, rfl, by decide, rfl⟩, ⟨rfl, rfl, by decide, by decide, by decide, rfl, rfl⟩,
    ⟨rfl, rfl, rfl, ⟨_, .head _⟩, ⟨_, _, .head _⟩, .head _, rfl, by decide, rfl, by decide, by decide⟩,
    ⟨rfl, rfl, rfl, rfl, rfl, _, rfl, rfl⟩,
    rfl, rfl, ?_, ?_, ?_, ?_, by decide, ?_, ?_, ?_,
    ?_⟩ <;> first | decide | (dsimp only [ServedNext, Eligible]; decide)

theorem witness_BackplaneResetClearsTheWindows : branch.power ≠ .off ∧ headOf (.partStatus officer) = some officer ∧
    let s := { branch with port := { branch.port with
      inExecution := branch.port.inExecution.set 4 (some ⟨.partStatus officer, true⟩), order := [.request 4] } }
    s.power = .up ∧ s.kept = none ∧ s.delivery = none ∧
      s.port.inExecution.get officer.master = some ⟨.partStatus officer, true⟩ ∧
      waitsTurn officer (.partStatus officer) s = false :=
  ⟨by decide, rfl, rfl, rfl, rfl, rfl, rfl⟩

/-- Buffer 0 is the part's, so master 0 is refused NOT_OWNER. -/
theorem witness_RefusalsChangeNothing : let i : Instr := .rowFree station (.value 0)
    let s := serving station i branch
    headOf i = some station ∧ InService station i s ∧ (∀ r, i ≠ .cashReverse station r) ∧ i ≠ .daySeal station ∧
    (∀ r, i ≠ .transferAccept station r) ∧ ∃ t r, exec i s = .next t ∧
      (t.port.windows.get 0).responses = (s.port.windows.get 0).responses ++ [r] ∧ r.code ≠ .done :=
  ⟨rfl, serving_inService rfl rfl rfl, nofun, nofun, nofun, _, ⟨129, 7, .notOwner, false, []⟩, rfl,
    by decide, by decide⟩

/-- A request without a position, and one whose rule requires the position it leaves out. -/
theorem witness_StoreInvalidRefusesRequests :
    let fits (i : Instr) : Prop := let s := serving officer i State.reset
      headOf i = some officer ∧ s.power = .up ∧ s.kept.isSome ∧ s.delivery = none ∧
      (∀ p, (s.store.positions.get p).teller = none) ∧ s.port.inExecution.get officer.master = some ⟨i, false⟩ ∧
      i ≠ .storeFormat officer ∧ i ≠ .partStatus officer ∧ (∀ r, i ≠ .clockSet officer r) ∧ i ≠ .faultRead officer
    let bound : Instr := .drawerSignon officer ⟨.absent, .value 3310, .value 0⟩
    officer.master = officerMaster ∧ fits (.dayClose officer) ∧ namedPosition (.dayClose officer) = .absent ∧
    needsPosition (.dayClose officer) = false ∧ (∀ r, Instr.dayClose officer ≠ .drawerCount officer r) ∧
    (∀ x, Instr.dayClose officer ≠ .drawerEnquire officer x) ∧
    fits bound ∧ needsPosition bound = true ∧ (∀ r, bound ≠ .positionBind officer r) ∧
    inRange 0 11 (namedPosition bound) = false :=
  ⟨rfl, ⟨rfl, rfl, rfl, rfl, by decide, rfl, nofun, nofun, nofun, nofun⟩, rfl, rfl, nofun, nofun,
    ⟨rfl, rfl, rfl, rfl, by decide, rfl, nofun, nofun, nofun, nofun⟩, rfl, nofun, rfl⟩

/-! ### Witnesses: supply, clock, exchange -/

theorem witness_SupplyGoesByAWarningAndAFall :
    branch.power = .up ∧ branch.delivery = none ∧ NothingWaits branch ∧ (∃ t, exec .deliver branch = .next t) ∧
    (let i : Instr := .transferAccept station ⟨.value 255, .absent⟩
      let s := { behindOne officer (.drawerEnquire officer (.value 0)) 0 i branch with
        delivery := some ⟨station, 255, 2, 12, 0, zeroCounts, 964520, false⟩ }
      s.power = .up ∧ NothingWaits s ∧ s.port.inExecution.get 0 = some ⟨i, false⟩) ∧
    { branch with power := .shut }.power ≠ .up ∧ { branch with power := .off }.power = .off :=
  ⟨rfl, rfl, by decide, ⟨_, rfl⟩, ⟨rfl, by decide, rfl⟩, by decide, rfl⟩

/-- The branch left with open commits: its DAY_OPEN record and these after it. -/
def leftOpen (l : List Record) : State :=
  let stamped := l.zipIdx.map fun e =>
    let r := { e.1 with sequence := e.2 + 2 }
    { r with check := r.computeCheck }
  { branch with
    store := { branchStore with
      day := { branchStore.day with used := 1 + l.length, openCommits := (List.range l.length).map (· + 2) }
      journal := branchStore.journal ++ stamped }
    clock := { branch.clock with valid := false } }

/-- A posting of a note taken in at drawer 0, a reversal of it, an acceptance of the vault's cash there, and a new rate. -/
def openRecords : List Record :=
  [{ emptyRecord .posting with
      drawer := some 0, account := some 100000000001, postKind := some .deposit, homeAmount := some 100,
      tender := [(2, 1)], narrative := some 3 },
   { emptyRecord .reversal with
      drawer := some 0, account := some 100000000001, postKind := some .deposit, homeAmount := some (-100),
      tender := [(2, -1)], narrative := some 3, reverses := some 2 },
   { emptyRecord .transferIn with
      drawer := some 0, second := some 12, homeAmount := some 100, tender := [(2, 1)], narrative := some 0,
      reverses := some 1 },
   { emptyRecord .rateChange with
      exchange := some (.board 0 (branchStore.board.rows.get 0) 120 2) }]

/-- One open commit of each of the four kinds, and all four in a list of several. -/
def everyOpen : List (List Record) := openRecords :: openRecords.map fun r => [r]

theorem sequences_stand {x : Store} (h : x.day.used ≤ x.journal.length)
    (k : ∀ n < x.day.used, (x.journal[n]?).all (fun r => r.sequence == n + 1) = true) : sequencesStand x :=
  ⟨h, fun n hn r e => by have := k n hn; rw [e] at this; simpa using this⟩

/-- The record at each sequence listed stands with its check, and so does a REVERSAL's original. -/
def sound (s : State) (l : List Nat) : Bool :=
  l.all fun c => (recordAt s c).elim false fun r => r.checkOk &&
    (r.kind != .reversal || (r.reverses.bind (recordAt s)).all Record.checkOk)

theorem sound_replayable {s : State} {l : List Nat} (h : sound s l = true) : ∀ c ∈ l, Replayable s c := by
  intro c hc
  have := List.all_eq_true.mp h c hc
  match e : recordAt s c with
  | none => simp [e] at this
  | some r =>
    simp only [e, Option.elim_some, Bool.and_eq_true, Bool.or_eq_true] at this
    refine ⟨r, e, this.1, fun k _ q o hq ho => ?_⟩
    have hs := this.2.resolve_left (by simp [k])
    rw [hq, Option.bind_some, ho] at hs
    exact hs

theorem everyOpen_stands : everyOpen.all (fun l => let x := (leftOpen l).store
    decide (x.day.used ≤ x.journal.length) && (List.range x.day.used).all (fun n => (x.journal[n]?).all fun r => r.sequence == n + 1) &&
      sound (restoreFrom (leftOpen l) x) x.day.openCommits) = true := by decide +kernel

/-- Nothing left to replay, with the clock kept and lost; and the open commits above, the clock lost. -/
theorem witness_PowerUpRestoresAValidStore : (branch.kept.getD branch.store).header.valid = true ∧
    (branch.kept.getD branch.store).day.openCommits = [] ∧ branch.clock.valid = true ∧
    (∀ l ∈ everyOpen, let s := leftOpen l
      s.store.header.valid = true ∧ s.kept = none ∧ (∃ q rest, s.store.day.openCommits = q :: rest) ∧ sequencesStand s.store ∧
      s.clock.valid = false ∧ ∀ c ∈ s.store.day.openCommits, Replayable (restoreFrom s s.store) c) ∧
    ∃ l ∈ everyOpen, ∃ q r, (leftOpen l).store.day.openCommits = [q] ∧
      recordAt (restoreFrom (leftOpen l) (leftOpen l).store) q = some r := by
  refine ⟨by decide +kernel, rfl, rfl, fun l hl => ?_, ?_⟩
  · have h := List.all_eq_true.mp everyOpen_stands l hl
    simp only [Bool.and_eq_true, decide_eq_true_eq, List.all_eq_true, List.mem_range] at h
    refine ⟨(by decide +kernel : branchStore.header.valid = true), rfl, ?_,
      sequences_stand h.1.1 (fun n hn => h.1.2 n hn), rfl, sound_replayable h.2⟩
    simp only [everyOpen, openRecords, List.map_cons, List.map_nil, List.mem_cons, List.not_mem_nil, or_false] at hl
    rcases hl with rfl | rfl | rfl | rfl | rfl <;> exact ⟨2, _, rfl⟩
  · exact ⟨_, .tail _ (.head _), 2, _, rfl, rfl⟩

/-- An open commit whose record fails its check, first in the list and after one that is replayed; a REVERSAL whose original
does; an invalid header, with the battery and without, and a valid one without it. -/
theorem witness_PowerUpFindsAnInvalidStore :
    (let u := restoreFrom (leftOpen openRecords) (leftOpen openRecords).store
      let spoil (q : Nat) : State := { u with store := { u.store with
        journal := u.store.journal.modify (q - 1) fun r => { r with check := r.check + 1 } } }
      FailsAt (spoil 2) 2 2 ∧ FailsAt (spoil 3) 3 3 ∧ Replayable (spoil 3) 2 ∧
      (spoil 3).store.day.openCommits = [2] ++ 3 :: [4, 5] ∧ (spoil 3).store.day.openCommits.Nodup ∧
      sequencesStand (spoil 3).store ∧
      FailsAt { spoil 2 with store := { (spoil 2).store with
        day := { (spoil 2).store.day with openCommits := [3] } } } 3 2) ∧
    (State.reset.kept.getD State.reset.store).header.valid = false ∧ branch.clock.valid = true := by
  refine ⟨⟨.inl ⟨rfl, fun r e => ?_⟩, .inl ⟨rfl, fun r e => ?_⟩, ?_, rfl, by decide,
    sequences_stand (by decide) (by decide), .inr ⟨_, _, rfl, ?_, rfl, .inl rfl, rfl, rfl, ?_⟩⟩, by decide⟩
  · cases e; decide +kernel
  · cases e; decide +kernel
  · exact sound_replayable (l := [2]) (by decide +kernel) 2 (by decide)
  · decide +kernel
  · decide +kernel

/-- A tick that every unit takes, one behind a transfer request and one behind a request of the Screen Unit, and one that
ends a transfer behind a drawer request. -/
theorem witness_SecondTickCountsEverything : branch.power ≠ .off ∧ (∀ u, UnitFree branch u ∧ TickTaken branch u) ∧
    ¬TickTaken (serving officer (.transferDecline officer (.value 1)) branch) .tru ∧
    ¬TickTaken (serving officer (.screenActivity officer (.value 0)) branch) .scu ∧
    (let ending : Transfer := ⟨1, .offered, 0, 1, zeroCounts, 60, 1, 1, none⟩;
      ¬TickTaken (serving officer (.drawerEnquire officer (.value 0)) (modifyTransfer 0 ending branch)) .tru) ∧
    { branch with power := .shut }.power ≠ .off :=
  ⟨by decide, fun u => ⟨all_free rfl rfl u, all_free rfl rfl u, fun _ _ => all_free rfl rfl _, fun _ _ => all_free rfl rfl _⟩,
    fun h => absurd h.1 (by decide), fun h => absurd h.1 (by decide),
    fun h => absurd (h.2.1 rfl ⟨0, _, rfl, rfl, Nat.le_refl 1⟩) (by decide), by decide⟩

theorem witness_ConversionBringsItsStagesToWholeUnits : (0 : Nat) ≤ 2 ∧ (2 : Nat) ≤ 2 ∧ 0 < (1 : Nat) := by decide

/-- A quote of position 0 on currency 1 with the life given. -/
def heldQuote (number made life : Nat) : Quote :=
  ⟨number, .held, 0, made, .buy, quoteValues branch 0 .buy 35000, 1, life⟩

/-- The branch with two HELD quotes of position 0. -/
def quoted : State :=
  { branch with exu := ⟨((Table.fill 16 none).set 0 (some (heldQuote 1 1 1))).set 1 (some (heldQuote 2 2 120)), 2⟩ }

theorem held_quoted (i : Fin 16) : HeldAt quoted 0 i → i = 0 ∨ i = 1 := by
  rintro ⟨q, h, -⟩
  by_contra c
  simp only [not_or] at c
  simp [quoted, Table.get_set, Ne.symm c.1, Ne.symm c.2] at h

/-- Buying at both ends of the range and selling; with no quote to supersede and with the older of two. -/
theorem witness_QuoteRequestMakesAHeldQuote :
    (∀ (dir : Direction) (amount : Nat), dir = .buy ∧ amount = 1000000000 ∨ dir = .buy ∧ amount = 35000 ∨ dir = .sell ∧ amount = 500 →
      let i : Instr := .quoteRequest station ⟨.value 0, .value 1, .value dir, .value amount⟩
      let s := serving station i branch
      let e := s.store.board.rows.get 0
      let unit := faceOf s (denomOf 0 0)
      let v := match dir with
        | .buy => convert 0 .buy amount 1234567 (s.store.currencies.get (currencyOf 0)).decimals unit e.buyFee
        | .sell => convert 0 .sell amount 1300000 (s.store.currencies.get (currencyOf 0)).decimals unit e.sellFee
      InService station i s ∧ MayActFor station s 0 ∧ s.store.day.state = .opened ∧
      (s.store.positions.get 0).drawer.isSome ∧ (s.scu.screens.get 0).lockHeld = false ∧
      isDefined s (currencyOf 0) = true ∧ 1 ≤ amount ∧ amount ≤ 1000000000 ∧
      amount % faceOf s (denomOf (currencyOf 0) 0) = 0 ∧ e.rates = some (1234567, 1300000) ∧
      v.gross ≤ 99999999999 ∧ (dir = .buy → v.fee < v.gross ∧ 0 < v.cash) ∧ (dir = .sell → v.net ≤ 99999999999) ∧
      Supersedes s 0 none ∧ ∃ j, ∀ q, afterSuperseding s none j = some q → q.state ≠ .held) ∧
    Supersedes quoted 0 (some (0, heldQuote 1 1 1)) := by
  refine ⟨?_, by decide, ⟨heldQuote 1 1 1, by decide, rfl, rfl⟩, 1, heldQuote 2 2 120, by decide,
    ⟨heldQuote 2 2 120, by decide, rfl, rfl⟩, by decide, held_quoted⟩
  intro dir amount h
  have none_held : ∀ i, ¬HeldAt branch 0 i := by
    rintro i ⟨q, h, -⟩
    simp [branch, State.reset] at h
  rcases h with ⟨rfl, rfl⟩ | ⟨rfl, rfl⟩ | ⟨rfl, rfl⟩ <;>
    exact ⟨serving_inService rfl rfl rfl, station_may, rfl, by decide, by decide, by decide,
      by decide, by decide, by decide, by decide, by decide, by decide,
      by decide, fun i j h => absurd h (none_held i), 0, fun q h => by
        have : branch.exu.quotes.get 0 = some q := h
        simp [branch, State.reset] at this⟩

/-- Quote 1 of position 0 is HELD with one second left; quote 2 has more; the Exchange Unit free and taken. -/
theorem witness_QuotesEndByReleaseAndByTime : let i : Instr := .quoteRelease station ⟨.value 0, .value 1⟩
    let s := serving station i quoted
    InService station i s ∧ MayActFor station s 0 ∧ (1 : Nat) ≤ 1 ∧ (1 : Nat) ≤ 65535 ∧
    FirstWith s.exu.quotes (fun x => x.number = 1) 0 (heldQuote 1 1 1) ∧ (heldQuote 1 1 1).state = .held ∧
    (heldQuote 1 1 1).position = 0 ∧ quoted.power = .up ∧ UnitFree quoted .exu ∧ ¬UnitFree s .exu ∧ (heldQuote 1 1 1).life ≤ 1 ∧
    ∀ i q, FirstWith quoted.exu.quotes (fun x => x.number = 2) i q → q.state ≠ .held ∨ 1 < q.life :=
  ⟨serving_inService rfl rfl rfl, ⟨rfl, nofun, .inr rfl⟩, by decide, by decide,
    first_zero (by decide) rfl, rfl, rfl, rfl, all_free rfl rfl _, by decide, by decide, fun i q h => .inr (by
      obtain ⟨h1, h2, -⟩ := h
      rcases held_quoted i ⟨q, h1, by
        by_cases e : i = 0 ∨ i = 1
        · rcases e with rfl | rfl <;> simp [quoted, Table.get_set] at h1 <;> subst h1 <;> exact ⟨rfl, rfl⟩
        · simp only [not_or] at e
          simp [quoted, Table.get_set, Ne.symm e.1, Ne.symm e.2] at h1⟩ with rfl | rfl
      · simp [quoted, Table.get_set] at h1; subst h1; exact absurd h2 (by decide)
      · simp [quoted] at h1; subst h1; decide)⟩

/-- The least spread of rates at the highest rate, and free fees beside the dearest. -/
theorem witness_RatesAndFeesAreCommittedWithARecord :
    let c : Instr := .rateSet officer ⟨.value 1, .value 99999999, .value 99999999⟩
    let e : Instr := .feeSet officer ⟨.value 1, .value ⟨0, 0, 0⟩, .value ⟨50, 99999999999, 99999999999⟩, .absent⟩
    FromOfficer officer ∧ JournalWhole branch ∧ branch.store.day.state = .opened ∧
    isDefined branch (currencyOf 0) = true ∧ branch.store.day.used + branch.jsu.holds + 1 ≤ 16352 ∧
    InService officer c (serving officer c branch) ∧ InService officer e (serving officer e branch) ∧
    (Fld.absent : Fld Nat) ≠ .malformed ∧
    ∀ x ∈ [(⟨0, 0, 0⟩ : FeeFields), ⟨50, 99999999999, 99999999999⟩],
      x.perMille ≤ 50 ∧ 0 ≤ x.minimum ∧ x.minimum ≤ x.maximum ∧ x.maximum ≤ 99999999999 :=
  ⟨officer_may, branch_whole, rfl, by decide, by decide, serving_inService rfl rfl rfl, serving_inService rfl rfl rfl,
    nofun, by decide⟩

/-! ### Witnesses: drawers -/

/-- NO_DAY with every drawer as a format leaves it. -/
def emptied : State := onDay .noDay { branch with store := { branchStore with drawers := Table.fill 13 formatDrawer } }

/-- Home currency at both ends of the face range, a foreign currency of decimals 0 with twelve faces, and one made
undefined. -/
theorem witness_CurrenciesAreDefinedWhileNoneIsHeld :
    let s := fun i => serving officer i emptied
    let faces : List Nat := [1, 2, 3, 4, 5, 6, 7, 8, 9, 10, 11, 12]
    FromOfficer officer ∧ emptied.store.day.state = .noDay ∧
    (∀ n x, (emptied.store.drawers.get n).current.get x = 0 ∧ (emptied.store.drawers.get n).reserved.get x = 0 ∧
      (emptied.store.drawers.get n).opening.get x = 0) ∧
    (∀ i, InService officer i (s i)) ∧
    ((2 : Nat) = 2 ∧ ([1, 1000000] : List Nat).Pairwise (· < ·) ∧ ∀ a ∈ ([1, 1000000] : List Nat), 1 ≤ a ∧ a ≤ 1000000) ∧
    ((3 : Currency) ≠ 0 ∧ faces.length ≤ 12 ∧ faces.Pairwise (· < ·) ∧ ∀ a ∈ faces, 1 ≤ a ∧ a ≤ 1000000) :=
  ⟨officer_may, rfl, by decide, fun _ => serving_inService rfl rfl rfl, by decide, by decide⟩

/-- The Transfer Unit free, and taken by a request of master 1. -/
theorem witness_SignonBindsDrawerAndPosition : let i : Instr := .drawerSignon station ⟨.value 1, .value 9999, .value 1⟩
    let s := serving station i branch
    let old := s.store.drawers.get 1
    InService station i s ∧ MayActFor station s 1 ∧ s.store.day.state = .opened ∧ 1 ≤ 9999 ∧ 9999 ≤ 9999 ∧
    (s.store.positions.get 1).drawer = none ∧ (s.store.positions.get 1).teller = none ∧ old.bound = none ∧
    old.state ≠ .closed ∧ UnitFree s .tru ∧
    let u := behindOne station i 1 (.transferDecline { station with master := 1 } (.value 1)) branch
    InService station i u ∧ ¬UnitFree u .tru ∧ MayActFor station u 1 ∧ u.store = s.store :=
  ⟨serving_inService rfl rfl rfl, ⟨rfl, nofun, .inr rfl⟩, rfl, by decide, by decide, rfl, rfl, rfl, by decide,
    by decide, ⟨rfl, rfl, rfl, rfl, by decide, by decide⟩, by decide, ⟨rfl, nofun, .inr rfl⟩, rfl⟩

theorem witness_SignoffEndsTheBinding : let i : Instr := .drawerSignoff station (.value 0)
    let s := serving station i branch
    InService station i s ∧ MayActFor station s 0 ∧ (s.store.positions.get 0).teller.isSome ∧
    (s.store.positions.get 0).drawer = some 0 :=
  ⟨serving_inService rfl rfl rfl, station_may, rfl, rfl⟩

theorem witness_LimitsAreStoredAndTheMarkEvaluated :
    let i : Instr := .drawerLimits officer ⟨.value 11, .value 99999999999, .value 99999999999⟩
    InService officer i (serving officer i branch) ∧ FromOfficer officer ∧ 99999999999 ≤ 99999999999 :=
  ⟨serving_inService rfl rfl rfl, officer_may, by decide⟩

/-- A closing day; drawer 0 is still to be counted. -/
def closing : State := onDay .closing branch

/-- Drawer 0 in DIFFERENCE after three counts, one home note short. -/
def differing : State :=
  { closing with
    store := { closing.store with
      drawers := closing.store.drawers.set 0 { tellerDrawer with state := .difference, attempts := 3 } }
    counted := closing.counted.set 0 (some (someCounts.set 0 99)) }

/-- Counts that agree and counts that differ, and the officer's flag at a third attempt. -/
theorem witness_CountsCloseADrawerOrLeaveADifference :
    (∀ l ∈ ([[100, 100, 100, 100, 100], [65535, 0, 100, 100, 100]] : List (List Nat)),
      let i : Instr := .drawerCount station ⟨.value 0, .value l⟩
      let s := serving station i closing
      InService station i s ∧ (s.store.drawers.get 0).bound = some 0 ∧ servingMaster s 0 = station.master ∧
      s.store.day.state = .closing ∧ l.length = (definedDenoms s).length ∧ (∀ a ∈ l, a ≤ 65535) ∧
      (s.store.drawers.get 0).state = .opened ∧ (∀ x, (s.store.drawers.get 0).reserved.get x = 0) ∧
      (∀ j a, s.store.transfers.get j = some a → a.state = .offered → a.toDrawer ≠ 0) ∧ JournalWhole s ∧
      s.store.day.used + s.jsu.holds + 1 ≤ 16383) ∧
    (∀ x ∈ definedDenoms closing, (countsOfList closing [100, 100, 100, 100, 100]).get x =
      (closing.store.drawers.get 0).current.get x) ∧
    (∃ x ∈ definedDenoms closing, (countsOfList closing [65535, 0, 100, 100, 100]).get x ≠
      (closing.store.drawers.get 0).current.get x) ∧
    (differing.store.drawers.get 0).state = .difference ∧
      (differing.store.drawers.get 0).attempts < if ({ officer with officer := true } : ReqHead).officer then 4 else 3 :=
  ⟨fun l hl => ⟨serving_inService rfl rfl rfl, rfl, rfl, rfl, by
      fin_cases hl <;> decide, by fin_cases hl <;> decide, rfl,
      (by decide : ∀ x, (closing.store.drawers.get 0).reserved.get x = 0),
      all_get (t := closing.store.transfers) (p := fun a => a.state = .offered → a.toDrawer ≠ 0) (by decide),
      branch_whole, (by decide : closing.store.day.used + closing.jsu.holds + 1 ≤ 16383)⟩, by decide, by decide, rfl, by decide⟩

theorem witness_AcceptedDifferencesBecomeTheCounts : let i : Instr := .drawerAccept officer (.value 0)
    let s := serving officer i differing
    let counted := someCounts.set 0 99
    let cs := (definedCurrencies s).filter fun c =>
      (slotsOf c).any fun x => counted.get x != (s.store.drawers.get 0).current.get x
    InService officer i s ∧ FromOfficer officer ∧ s.store.day.state = .closing ∧
    (s.store.drawers.get 0).state = .difference ∧ s.counted.get 0 = some counted ∧
    (∀ x, denomCurrency x ∉ definedCurrencies s → counted.get x = (s.store.drawers.get 0).current.get x) ∧
    JournalWhole s ∧ cs = [0] ∧ s.store.day.used + s.jsu.holds + cs.length + 1 ≤ 16383 :=
  ⟨serving_inService rfl rfl rfl, officer_may, rfl, rfl, by decide, by decide, branch_whole,
    by decide, by decide⟩

/-- A change that empties one slot. -/
theorem witness_CashChangesKeepTheReport : ∀ x, 0 ≤ ((branch.store.drawers.get 0).current.get x : Int) +
    (Table.ofFn fun x : Denom => if x = 0 then (-100 : Int) else 5).get x := by decide

/-! ### Witnesses: postings -/

/-- The hypotheses of a posting of kind `k`, number by number as the statement has them. -/
def PostHypotheses (h : ReqHead) (r : PostReq) (k : PostKind) (p : Position) (n : DrawerNo)
    (account amount number narrative : Nat) (l : List PostEntry) (j : Fin 16) (q : Quote) (s : State) : Prop :=
  let d := s.store.drawers.get n
  let deltas := netDeltas l
  InService h (.cashPost h r) s ∧ MayActFor h s p ∧ JournalWhole s ∧ s.store.day.state = .opened ∧
  (s.store.positions.get p).drawer = some n ∧ (s.scu.screens.get p).lockHeld = false ∧
  r.position = .value p.val ∧ r.kind = .value k ∧ r.narrative = .value narrative ∧ narrative ≤ 63 ∧
  r.tender = .value l ∧ PostFields k r account amount number ∧ 1 ≤ l.length ∧ l.length ≤ 12 ∧
  (∀ e ∈ l, namesDenom s e.currency e.index = true ∧ e.countIn ≤ 65535 ∧ e.countOut ≤ 65535 ∧
    (0 < e.countIn ∨ 0 < e.countOut)) ∧
  (k = .exchangeBuy ∨ k = .exchangeSell → FirstWith s.exu.quotes (fun x => x.number = number) j q ∧
    q.state = .held ∧ q.position = p ∧ q.direction = if k = .exchangeBuy then .buy else .sell) ∧
  (∀ c, match requiredNet k amount q.values c with
    | some x => deltaValue s c deltas = x
    | none => ∀ e ∈ l, e.currency ≠ c.val) ∧
  (k = .change → ∃ x, deltas.get x ≠ 0) ∧ (k = .deposit ∨ k = .exchangeSell → d.excess = false) ∧
  FitsDrawer d deltas ∧ s.store.day.used + s.jsu.holds + 1 ≤ 16352

theorem net_ok {k : PostKind} {a : Int} {v : Conversion} {s : State} {d : Deltas} {l : List PostEntry}
    (h : ∀ c, (match requiredNet k a v c with
      | some x => decide (deltaValue s c d = x)
      | none => l.all fun e => decide (e.currency ≠ c.val)) = true) :
    ∀ c, match requiredNet k a v c with
      | some x => deltaValue s c d = x
      | none => ∀ e ∈ l, e.currency ≠ c.val := fun c => by
  have := h c
  revert this
  split <;> simp

/-- A quote of 5.00 of currency 1 for position 0. -/
def smallQuote (dir : Direction) : Quote := ⟨65535, .held, 0, 1, dir, quoteValues branch 0 dir 500, 1, 120⟩

def withQuote (dir : Direction) : State :=
  { branch with exu := ⟨(Table.fill 16 none).set 0 (some (smallQuote dir)), 1⟩ }

/-- A posting request of position 0. -/
def post (k : PostKind) (account amount quote : Fld Nat) (l : List PostEntry) : PostReq where
  position := .value 0
  kind := .value k
  account := account
  amount := match amount with | .value n => .value n | _ => .absent
  quote := quote
  narrative := .value 63
  balance := .absent
  tender := .value l

theorem posting {k : PostKind} {r : PostReq} {account amount number : Nat} {l : List PostEntry} {dir : Direction}
    (hr : r.position = .value 0 ∧ r.kind = .value k ∧ r.narrative = .value 63 ∧ r.tender = .value l)
    (hf : PostFields k r account amount number) (hl : 1 ≤ l.length ∧ l.length ≤ 12)
    (he : ∀ e ∈ l, namesDenom branch e.currency e.index = true ∧ e.countIn ≤ 65535 ∧ e.countOut ≤ 65535 ∧
      (0 < e.countIn ∨ 0 < e.countOut))
    (hq : k = .exchangeBuy ∨ k = .exchangeSell → number = 65535 ∧ dir = if k = .exchangeBuy then .buy else .sell)
    (hn : ∀ c, (match requiredNet k amount (smallQuote dir).values c with
      | some x => decide (deltaValue branch c (netDeltas l) = x)
      | none => l.all fun e => decide (e.currency ≠ c.val)) = true)
    (hc : k = .change → ∃ x, (netDeltas l).get x ≠ 0)
    (hd : FitsDrawer tellerDrawer (netDeltas l)) :
    PostHypotheses station r k 0 0 account amount number 63 l 0 (smallQuote dir)
      (serving station (.cashPost station r) (withQuote dir)) :=
  ⟨serving_inService rfl rfl rfl, ⟨rfl, nofun, .inr rfl⟩, branch_whole, rfl, rfl, rfl, hr.1, hr.2.1, hr.2.2.1, by decide,
    hr.2.2.2, hf, hl.1, hl.2, he,
    fun h => ⟨first_zero (by simp [serving, withQuote]) (hq h).1.symm, rfl, rfl, (hq h).2⟩,
    net_ok hn, hc, fun _ => rfl, hd, (by decide : branch.store.day.used + branch.jsu.holds + 1 ≤ 16352)⟩

/-- A posting of each kind, taken in and paid out of drawer 0. -/
theorem witness_PostingsCommitRecordDrawerQuoteAndLine :
    (∃ r l s, PostHypotheses station r .deposit 0 0 100000000001 100 0 63 l 0 (smallQuote .buy) s) ∧
    (∃ r l s, PostHypotheses station r .withdrawal 0 0 999999999999 100 0 63 l 0 (smallQuote .buy) s) ∧
    (∃ r l s, PostHypotheses station r .exchangeBuy 0 0 0 0 65535 63 l 0 (smallQuote .buy) s) ∧
    (∃ r l s, PostHypotheses station r .exchangeSell 0 0 0 0 65535 63 l 0 (smallQuote .sell) s) ∧
    ∃ r l s, PostHypotheses station r .change 0 0 0 0 0 63 l 0 (smallQuote .buy) s := by
  refine ⟨⟨post .deposit (.value 100000000001) (.value 100) .absent [⟨0, 2, 1, 0⟩], _, _, posting ⟨rfl, rfl, rfl, rfl⟩
      ⟨rfl, by decide, rfl, by decide, by decide, rfl, .inl rfl⟩ (by decide) ?_ (by decide) ?_ (by decide) ?_⟩,
    ⟨post .withdrawal (.value 999999999999) (.value 100) .absent [⟨0, 2, 0, 1⟩], _, _, posting ⟨rfl, rfl, rfl, rfl⟩
      ⟨rfl, by decide, rfl, by decide, by decide, rfl, .inl rfl⟩ (by decide) ?_ (by decide) ?_ (by decide) ?_⟩,
    ⟨post .exchangeBuy .absent .absent (.value 65535) [⟨0, 2, 0, 4⟩, ⟨0, 1, 0, 1⟩, ⟨0, 0, 0, 1⟩, ⟨1, 0, 1, 0⟩], _, _,
      posting ⟨rfl, rfl, rfl, rfl⟩ ⟨.inl rfl, rfl, rfl, by decide, by decide, rfl⟩ (by decide) ?_ (by decide) ?_
        (by decide) ?_⟩,
    ⟨post .exchangeSell .absent .absent (.value 65535) [⟨0, 2, 9, 0⟩, ⟨1, 0, 0, 1⟩], _, _,
      posting ⟨rfl, rfl, rfl, rfl⟩ ⟨.inl rfl, rfl, rfl, by decide, by decide, rfl⟩ (by decide) ?_ (by decide) ?_
        (by decide) ?_⟩,
    ⟨post .change .absent .absent .absent [⟨0, 2, 1, 0⟩, ⟨0, 1, 0, 10⟩], _, _, posting ⟨rfl, rfl, rfl, rfl⟩
      ⟨rfl, rfl, rfl, rfl⟩ (by decide) ?_ (by decide) ?_ (fun _ => ⟨1, by decide⟩) ?_⟩⟩
  all_goals first | decide | (unfold FitsDrawer; decide)

/-- An entry with `n` lines, the first of them void or not. -/
def entryWith (n : Nat) (first : Bool) : Account :=
  { someAccount with lines := (List.range n).map fun k => ⟨⟨20260416, k + 1⟩, 0, 5, none, none, first && k == 0, false⟩ }

/-- A deposit record to the account, at the sequence given. -/
def depositOf (account sequence : Nat) : Record :=
  { emptyRecord .posting with
    sequence := sequence
    account := some account
    homeAmount := some 100
    narrative := some 3
    postKind := some .deposit
    drawer := some 0 }

/-- A key already taken; an account outside every class; an entry with room, one full with a void line and one full
without; a new entry; and no entry to be had. -/
theorem witness_LinesJoinTheirAccount :
    (depositOf 100000000001 2).account = some 100000000001 ∧ (depositOf 100000000001 2).homeAmount = some 100 ∧
    alreadyTaken { branch with store := { branchStore with lastTaken := some ⟨20260417, 2⟩ } } ⟨20260417, 2⟩ = true ∧
    alreadyTaken branch ⟨20260417, 2⟩ = false ∧ (∃ l ∈ someAccount.lines, l.key = ⟨20260417, 2⟩) ∧
    (∀ i e, branch.store.accounts.get i = some e → e.number ≠ 5) ∧ isPassbook branch 5 = false ∧
    FirstWith branch.store.accounts (fun e => e.number = 100000000001) 0 someAccount ∧
    someAccount.lines.length < 24 ∧ 24 ≤ (entryWith 24 true).lines.length ∧
    (∀ v, (entryWith 24 v).lines.Pairwise fun b c => c.key.lt b.key = false) ∧
    (∃ b ∈ (entryWith 24 true).lines, b.void = true) ∧ (∀ b ∈ (entryWith 24 false).lines, b.void = false) ∧
    (∀ i e, branch.store.accounts.get i = some e → e.number ≠ 100000000002) ∧
    isPassbook branch 100000000002 = true ∧
    (∃ i, TakenSlot branch.store.accounts.get (fun e => isReclaimable e = true) i) ∧
    ∀ i, ∃ e, (Table.fill 64 (some someAccount)).get i = some e ∧ isReclaimable e = false :=
  ⟨rfl, rfl, by decide, by decide, by decide, all_get (by decide), by decide, first_zero (by decide) rfl, by decide, by decide,
    by decide, by decide, by decide, all_get (by decide), by decide, ⟨1, .inl ⟨by decide, by decide⟩⟩,
    fun i => ⟨someAccount, by simp, by decide⟩⟩

/-- A withdrawn and a deposited note, as their record stands in the journal. -/
def original (k : PostKind) : Record :=
  markedRecord .held { depositOf 100000000001 2 with
    postKind := some k
    tender := [(2, if k = .deposit then 1 else -1)]
    homeAmount := some (if k = .deposit then 100 else -100) }

/-- The branch with a second record. -/
def recorded (r : Record) : State :=
  { branch with store := { branchStore with
    day := { branchStore.day with used := 2 }
    journal := branchStore.journal ++ [r] } }

theorem recorded_stands (r : Record) (h : r.sequence = 2) : JournalInv (recorded r) :=
  ⟨⟨Nat.le_refl 2, fun n hn x e => by
    have : n = 0 ∨ n = 1 := by change n < 2 at hn; omega
    rcases this with rfl | rfl <;> cases e
    · rfl
    · exact h⟩, nofun⟩

theorem recorded_whole (r : Record) : JournalWhole (recorded r) := ⟨Nat.le_refl 2, nofun⟩

theorem original_fits (k : PostKind) (h : k = .deposit ∨ k = .withdrawal) :
    FitsDrawer tellerDrawer (negate (entryDeltas (original k).tender)) := by
  rcases h with rfl | rfl
  · exact (by unfold FitsDrawer; decide :
      FitsDrawer tellerDrawer (negate (entryDeltas [(2, (1 : Int))])))
  · exact (by unfold FitsDrawer; decide :
      FitsDrawer tellerDrawer (negate (entryDeltas [(2, (-1 : Int))])))

/-- The request that reverses the record. -/
def reversing (r : Record) : State := serving station (.cashReverse station ⟨.value 0, .value 2⟩) (recorded r)

theorem reversing_serves (r : Record) : InService station (.cashReverse station ⟨.value 0, .value 2⟩) (reversing r) :=
  serving_inService rfl rfl rfl

theorem reversing_record (r : Record) : (reversing r).store.journal[2 - 1]? = some r := rfl

theorem none_later (r : Record) : ∀ x ∈ ((reversing r).store.journal.take (reversing r).store.day.used).drop 2,
    x.kind = .reversal → x.checkOk = true ∧ x.reverses ≠ some 2 := fun x hx => by
  have h : ((reversing r).store.journal.take (reversing r).store.day.used).length ≤ 2 := List.length_take_le _ _
  rw [List.drop_eq_nil_of_le h] at hx
  exact absurd hx List.not_mem_nil

def failingRecord : Record := { emptyRecord .vaultIn with sequence := 3, check := 1 }

/-- The branch with the reversed record of a deposit, a record whose check fails and the REVERSAL given after it. -/
def searched (r : Record) : State :=
  let s := recorded (original .deposit)
  serving station (.cashReverse station ⟨.value 0, .value 2⟩) { s with store := { s.store with
    day := { s.store.day with used := 4 }
    journal := s.store.journal ++ [failingRecord, r] } }

/-- The REVERSAL of sequence 2, and one of another sequence whose check fails. -/
def reversalFound : Record := markedRecord .none { emptyRecord .reversal with sequence := 4, reverses := some 2 }

def reversalFailed : Record := { emptyRecord .reversal with sequence := 4, reverses := some 1, check := 1 }

theorem searched_stands (r : Record) (h : r.sequence = 4) : JournalInv (searched r) :=
  ⟨⟨Nat.le_refl 4, fun n hn x e => by
    have : n = 0 ∨ n = 1 ∨ n = 2 ∨ n = 3 := by change n < 4 at hn; omega
    rcases this with rfl | rfl | rfl | rfl <;> cases e <;> first | rfl | exact h⟩, nofun⟩

/-- An original that stands, of each of two kinds, and one whose check fails; a search that passes a record whose check
fails and ends at the REVERSAL of the posting, or at one that fails its check. -/
theorem witness_ReversalsApplyTheInverse :
    (∀ r ∈ [reversalFound, reversalFailed], let s := searched r
      InService station (.cashReverse station ⟨.value 0, .value 2⟩) s ∧ JournalWhole s ∧ JournalInv s ∧
      s.store.journal[2 - 1]? = some (original .deposit) ∧
      (s.store.journal.take s.store.day.used).drop 2 = [failingRecord] ++ r :: [] ∧
      r.kind = .reversal) ∧
    failingRecord.kind ≠ .reversal ∧ reversalFound.reverses = some 2 ∧ reversalFailed.checkOk = false ∧
    (∀ r : Record, r.sequence = 2 → let s := reversing r
      InService station (.cashReverse station ⟨.value 0, .value 2⟩) s ∧ MayActFor station s 0 ∧ JournalWhole s ∧
      JournalInv s ∧ s.store.day.state = .opened ∧
      (s.store.positions.get 0).drawer = some 0 ∧ (s.scu.screens.get 0).lockHeld = false ∧ 1 ≤ 2 ∧
      2 ≤ s.store.day.used ∧ 2 ≤ 16384 ∧ s.store.journal[2 - 1]? = some r ∧
      (∀ x ∈ (s.store.journal.take s.store.day.used).drop 2, x.kind = .reversal →
        x.checkOk = true ∧ x.reverses ≠ some 2) ∧ s.store.day.used + s.jsu.holds + 1 ≤ 16352) ∧
    (∀ k, k = PostKind.deposit ∨ k = .withdrawal → (original k).sequence = 2 ∧ (original k).kind = .posting ∧
      (original k).drawer = some 0 ∧ tellerDrawer.excess = false ∧
      FitsDrawer tellerDrawer (negate (entryDeltas (original k).tender))) ∧
    (original .deposit).checkOk = true ∧ (original .withdrawal).checkOk = true ∧
    (depositOf 100000000001 2).checkOk = false ∧ (emptyRecord .vaultIn).kind ≠ .posting ∧
    (emptyRecord .posting).drawer ≠ some 0 :=
  ⟨fun r hr => ⟨serving_inService rfl rfl rfl, ⟨Nat.le_refl 4, nofun⟩, searched_stands r (by
        rcases List.mem_cons.mp hr with rfl | hr
        · rfl
        · cases List.mem_singleton.mp hr; rfl), rfl, rfl, by
        rcases List.mem_cons.mp hr with rfl | hr
        · rfl
        · cases List.mem_singleton.mp hr; rfl⟩,
    nofun, rfl, by decide +kernel,
    fun r h => ⟨reversing_serves r, ⟨rfl, nofun, .inr rfl⟩, recorded_whole r, recorded_stands r h, rfl, rfl, rfl,
      by decide, Nat.le_refl 2, by decide, reversing_record r, none_later r,
      (by decide : branch.store.day.used + 1 + branch.jsu.holds + 1 ≤ 16352)⟩,
    fun k hk => ⟨rfl, rfl, rfl, rfl, original_fits k hk⟩, by decide +kernel, by decide +kernel, by decide +kernel,
    nofun, nofun⟩

/-- A full table whose entries can all be reclaimed. -/
def reclaimable : Table (Option Account) 64 := Table.fill 64 (some { emptyAccount 7 with activeDay := 1 })

theorem reclaimable_taken : TakenSlot reclaimable.get (fun e => isReclaimable e = true ∧
    ∀ j f, reclaimable.get j = some f → isReclaimable f = true →
      e.activeDay < f.activeDay ∨ e.activeDay = f.activeDay ∧ e.activeSecond ≤ f.activeSecond) 0 :=
  .inr ⟨fun j => by simp [reclaimable], ⟨_, Table.get_fill .., by decide, fun j f hf _ => by
    simp only [reclaimable, Table.get_fill] at hf; cases hf; exact .inr ⟨rfl, Nat.le_refl _⟩⟩,
    fun j hj => absurd hj (Fin.not_lt_zero j)⟩

/-- A key that is the last taken; the original's line pending in its entry, and gone from it; nothing HELD; no entry of the
account with an empty one to take, with the first of several reclaimable ones, and with none to be had. -/
theorem witness_ReversedLinesAreVoidedOrCancelled :
    (depositOf 100000000001 3).account = some 100000000001 ∧ alreadyTaken branch ⟨20260417, 3⟩ = false ∧
    FirstWith branch.store.accounts (fun e => e.number = 100000000001) 0 someAccount ∧
    (∃ l ∈ someAccount.lines, l.key = ⟨20260417, 2⟩ ∧ isPending l = true) ∧
    (∀ l ∈ someAccount.lines, l.key = ⟨20260417, 1⟩ → isPending l = false) ∧
    { branchStore with lastTaken := some ⟨20260417, 3⟩ }.lastTaken = some ⟨20260417, 3⟩ ∧
    (∀ i e, branch.store.accounts.get i = some e → e.number ≠ 5) ∧
    TakenSlot branch.store.accounts.get (fun e => isReclaimable e = true ∧ ∀ j f,
      branch.store.accounts.get j = some f → isReclaimable f = true →
        e.activeDay < f.activeDay ∨ e.activeDay = f.activeDay ∧ e.activeSecond ≤ f.activeSecond) 1 ∧
    TakenSlot reclaimable.get (fun e => isReclaimable e = true ∧ ∀ j f, reclaimable.get j = some f →
      isReclaimable f = true → e.activeDay < f.activeDay ∨ e.activeDay = f.activeDay ∧ e.activeSecond ≤ f.activeSecond) 0 ∧
    (∀ i, ∃ e, (Table.fill 64 (some someAccount)).get i = some e ∧ isReclaimable e = false) ∧
    ∀ i e, (Table.fill 64 (some someAccount)).get i = some e → e.number ≠ 5 :=
  ⟨rfl, by decide, first_zero (by decide) rfl, by decide, by decide, rfl, all_get (by decide), .inl ⟨by decide, by decide⟩,
    reclaimable_taken,
    fun i => ⟨someAccount, by simp, by decide⟩, all_get (by decide)⟩

/-! ### Witnesses: transfers and the vault -/

/-- A tender of half the notes of one slot, the most that an offer may reserve. -/
def half : List CashEntry := [⟨0, 0, 50⟩]

theorem half_ok : TenderOk branch half := by unfold TenderOk; decide

/-- An offer from the counter to the vault, and one from the vault to the counter. -/
theorem witness_OffersReserveTheirCash :
    (∀ x, 0 < (summedCounts half).get x → ∀ n ∈ ([0, 12] : List DrawerNo),
      (branch.store.drawers.get n).reserved.get x + (summedCounts half).get x + (summedCounts half).get x ≤
        (branch.store.drawers.get n).current.get x) ∧
    (∀ n ∈ ([0, 12] : List DrawerNo), ¬Settled branch n ∧ (branch.store.drawers.get n).excess = false) ∧
    (let i : Instr := .transferOffer station ⟨.value 0, .value 12, .value half, .value 0⟩;
      let s := serving station i branch;
      InService station i s ∧ MayActFor station s 0 ∧ (s.store.positions.get 0).drawer = some 0 ∧
      (s.scu.screens.get 0).lockHeld = false) ∧
    (let i : Instr := .transferOffer officer ⟨.absent, .value 0, .value half, .absent⟩;
      InService officer i (serving officer i branch) ∧ FromOfficer officer) ∧
    JournalWhole branch ∧ TenderOk branch half ∧ branch.store.day.state = .opened ∧
    branch.store.day.used + branch.jsu.holds + 2 ≤ 16352 ∧
    ∃ j, ∀ a, branch.store.transfers.get j = some a → a.state ≠ .offered :=
  ⟨by decide, by unfold Settled; decide, ⟨serving_inService rfl rfl rfl, station_may, rfl, rfl⟩,
    ⟨serving_inService rfl rfl rfl, officer_may⟩, branch_whole, half_ok, rfl, by decide, 0,
    all_get (t := branch.store.transfers) (p := fun a => a.state ≠ .offered) (by decide) 0⟩

/-- The vault's offer to drawer 0, with the seconds given left. -/
def offerWith (remaining : Nat) : Transfer :=
  ⟨255, .offered, 12, 0, summedCounts half, 900, remaining, 1, none⟩

def offering (a : Transfer) : State :=
  { branch with
    store := { branchStore with
      transfers := (Table.fill 8 none).set 0 (some a)
      drawers := branchStore.drawers.modify 12 fun d =>
        { d with current := subCounts d.current a.tender, reserved := a.tender } }
    jsu := ⟨1, .clean⟩ }

theorem offering_whole (a : Transfer) : JournalWhole (offering a) := ⟨Nat.le_refl 1, nofun⟩

theorem offering_first (a : Transfer) : FirstWith (offering a).store.transfers (fun b => b.number = a.number) 0 a :=
  first_zero (by simp [offering]) rfl

/-- A counted tender that agrees with the offer, and one that does not, with the Drawer Unit free, and taken by a request
of the officer. -/
theorem witness_AcceptancesReceiveThenDeliver : let a := offerWith 900
    (∀ l ∈ [half, [⟨0, 0, 49⟩]], let i : Instr := .transferAccept station ⟨.value 255, .value l⟩
      let s := serving station i (offering a)
      InService station i s ∧ JournalWhole s ∧ FirstWith s.store.transfers (fun b => b.number = a.number) 0 a ∧
      .deliver ∉ s.port.order ∧ UnitFree s .dru ∧
      (∀ x ∈ s.port.order, x ≠ .request station.master → standsAt s x ≠ some .tru) ∧
      1 ≤ a.number ∧ a.number ≤ 255 ∧ a.state = .offered ∧ MayActForDrawer station s 0 ∧ TenderOk s l ∧
      ∀ p, (s.store.drawers.get 0).bound = some p → (s.scu.screens.get p).lockHeld = false) ∧
    summedCounts half = a.tender ∧ summedCounts [⟨0, 0, 49⟩] ≠ a.tender ∧ a.fromDrawer ≠ 0 ∧
    ¬Settled (offering a) 0 ∧ ((offering a).store.drawers.get 0).excess = false ∧
    (let i : Instr := .transferAccept station ⟨.value 255, .value half⟩
      let s := behindOne station i 4 (.drawerEnquire officer (.value 0)) (offering a)
      InService station i s ∧ .deliver ∉ s.port.order ∧ ¬UnitFree s .dru) ∧
    ∀ x, 0 < a.tender.get x → ((offering a).store.drawers.get 0).current.get x + a.tender.get x +
      ((offering a).store.drawers.get 0).reserved.get x ≤ 65535 :=
  ⟨fun l hl => ⟨serving_inService rfl rfl rfl, offering_whole _, offering_first _, by simp [serving],
      by fin_cases hl <;> decide, by simp [serving], by decide, by decide, rfl, ⟨rfl, nofun, .inr ⟨0, rfl, rfl⟩⟩, by fin_cases hl <;> (unfold TenderOk; decide), fun p h => by cases h; rfl⟩,
    rfl, by decide, by decide, by unfold Settled; decide, rfl, ⟨⟨rfl, rfl, rfl, rfl, by decide, by decide⟩, by decide, by decide⟩,
    by decide⟩

/-- A transfer in its last second, one with two left, and one that has ended; both units free, and each taken. -/
theorem witness_DeclinesAndTimeoutsReturnTheCash :
    (∀ a : Transfer, FirstWith (offering a).store.transfers (fun b => b.number = a.number) 0 a ∧
      (offering a).power = .up ∧ UnitFree (offering a) .tru ∧ UnitFree (offering a) .dru ∧ JournalWhole (offering a)) ∧
    (∀ i ∈ [Instr.transferDecline station (.value 255), .drawerEnquire station (.value 0)],
      let s := serving station i (offering (offerWith 1));
      ¬(UnitFree s .tru ∧ UnitFree s .dru)) ∧
    (let i : Instr := .transferDecline station (.value 255);
      let s := serving station i (offering (offerWith 1));
      InService station i s ∧ MayActForDrawer station s 0) ∧
    (offerWith 1).state = .offered ∧ (offerWith 1).remaining ≤ 1 ∧ 1 < (offerWith 2).remaining ∧
    ({ offerWith 2 with state := .accepted } : Transfer).state ≠ .offered :=
  ⟨fun a => ⟨offering_first a, rfl, all_free rfl rfl _, all_free rfl rfl _, offering_whole a⟩, fun i hi => by
      rcases List.mem_cons.mp hi with rfl | hi
      · exact fun h => absurd h.1 (by decide)
      · cases List.mem_singleton.mp hi
        exact fun h => absurd h.2 (by decide),
    ⟨serving_inService rfl rfl rfl, ⟨rfl, nofun, .inr ⟨0, rfl, rfl⟩⟩⟩, rfl, by decide, by decide, by decide⟩

/-- A receipt that fills a slot to 65,535 and a dispatch that empties it. -/
theorem witness_VaultMovementsChangeTheVault : FromOfficer officer ∧ JournalWhole branch ∧
    branch.store.day.state = .opened ∧ 999999999999 < 1000000000000 ∧ TenderOk branch [⟨0, 0, 65435⟩] ∧
    TenderOk branch [⟨0, 0, 100⟩] ∧ ¬Settled branch vault ∧ branch.store.day.used + branch.jsu.holds + 1 ≤ 16352 ∧
    (∀ i, InService officer i (serving officer i branch)) ∧
    FitsDrawer (branch.store.drawers.get vault) (Table.ofFn fun x => ((summedCounts [⟨0, 0, 65435⟩]).get x : Int)) ∧
    FitsDrawer (branch.store.drawers.get vault) (Table.ofFn fun x => -((summedCounts [⟨0, 0, 100⟩]).get x : Int)) :=
  ⟨officer_may, branch_whole, rfl, by decide, by unfold TenderOk; decide, by unfold TenderOk; decide,
    by unfold Settled; decide, by decide, fun _ => serving_inService rfl rfl rfl, by unfold FitsDrawer; decide,
    by unfold FitsDrawer; decide⟩

/-! ### Witnesses: enquiries, settings and formats -/

/-- The branch with this entry for its account. -/
def withAccount (a : Account) : State :=
  { branch with store := { branchStore with accounts := (Table.fill 64 none).set 0 (some a) } }

theorem account_first (a : Account) :
    FirstWith (withAccount a).store.accounts (fun e => e.number = a.number) 0 a := first_zero (by simp [withAccount]) rfl

/-- A record of drawer 0, OPEN in CLOSING, as its second drawer, is kept from a station and told to the officer. -/
theorem test_record_kept_back : let r : Record := { emptyRecord .transferIn with drawer := some 12, second := some 0 }
    KeptBack station closing r ∧ ¬KeptBack officer closing r ∧ ¬KeptBack station branch r :=
  ⟨⟨by decide, rfl, 0, .inr rfl, by decide⟩, fun h => h.1 rfl, fun h => nomatch h.2.1⟩

/-- The first and the last drawer, OPEN and kept from a station in CLOSING; an account with an entry and one with none,
from the last place; eight records asked of one, its check good or bad, with the fault record free or held; the fault
and the status in service and in STORE_INVALID. -/
theorem witness_EnquiriesTellWhatTheRecordsHold :
    (∀ i, InService station i (serving station i branch) ∧ InService officer i (serving officer i branch)) ∧
    MayActForDrawer station branch 0 ∧ MayActForDrawer officer branch 12 ∧
    (station.master ≠ officerMaster ∧ closing.store.day.state = .closing ∧
      (closing.store.drawers.get 0).state ≠ .closed) ∧
    FromAny station ∧ 999999999999 < 1000000000000 ∧ 23 ≤ 23 ∧
    (∀ j e, branch.store.accounts.get j = some e → e.number ≠ 999999999999) ∧
    FirstWith branch.store.accounts (fun e => e.number = 100000000001) 0 someAccount ∧
    (1 ≤ 8 ∧ 8 ≤ 8 ∧ 1 ≤ 1 ∧ 1 ≤ 16384 ∧ 1 ≤ branch.store.day.used) ∧
    (branchStore.journal.filter fun r => !r.checkOk) ≠ [] ∧
    (([markedRecord .none (emptyRecord .dayOpen)].filter fun r => !r.checkOk) = []) ∧
    branch.port.fault.held = false ∧ State.reset.port.fault.held = true ∧
    (∀ i, (serving officer i State.reset).power = .up ∧
      (serving officer i State.reset).port.inExecution.get officer.master = some ⟨i, false⟩ ∧
      waitsTurn officer i (serving officer i State.reset) = false ∧ NothingWaits (serving officer i State.reset)) ∧
    State.reset.kept.isSome = true ∧ MayActFor station branch 0 :=
  ⟨fun _ => ⟨serving_inService rfl rfl rfl, serving_inService rfl rfl rfl⟩, ⟨rfl, nofun, .inr ⟨0, rfl, rfl⟩⟩,
    ⟨rfl, fun _ => rfl, .inl rfl⟩, by decide, station_any, by decide, by decide, all_get (by decide),
    first_zero (by decide) rfl, by decide, by decide +kernel, by decide +kernel, rfl, rfl, fun _ => ⟨rfl, rfl, serving_turn rfl⟩, rfl,
    ⟨rfl, nofun, .inr rfl⟩⟩

/-- A print job at printer 0 for the account at position 0. -/
def job (x : JobState) : Job := ⟨255, 100000000001, 0, 0, x, none, 0, none, none, none, false⟩

/-- The job stands current at printer 0, whose other values are those of `e`; the account's entry is `a`. -/
def printing (a : Account) (j : Job) (e : Engine) : State :=
  { withAccount a with
    pru := { powerUpPru (Table.fill 2 (powerUpEngine false false)) with
      engines := (Table.fill 2 (powerUpEngine false false)).set 0 { e with state := .busy, current := some j.id }
      jobs := (Table.fill 16 none).set 0 (some { j with printer := 0 })
      notes := (Table.fill 12 none).set 0 (some ⟨j.id, .live j.state⟩) } }

/-- A format in NO_DAY under a good header with a job live, in SEALED, and in STORE_INVALID under a bad header; the
highest generation wraps. -/
theorem witness_FormatLeavesEveryAreaAtItsFormatValue : let i : Instr := .storeFormat officer
    let noDay := onDay .noDay (printing someAccount (job .printing) (powerUpEngine true true))
    (∀ s ∈ [noDay, onDay .sealed branch, State.reset],
      let s := serving officer i s
      s.power = .up ∧ s.port.inExecution.get officer.master = some ⟨i, false⟩ ∧
      (∀ x ∈ s.port.order, x ≠ .request officer.master → standsAt s x ≠ some .scu) ∧ waitsTurn officer i s = false ∧
      NothingWaits s) ∧
    FromOfficer officer ∧ (State.reset.kept.isSome ∨ False) ∧ noDay.store.day.state = .noDay ∧
    (onDay .sealed branch).store.day.state = .sealed ∧
    ((noDay.kept.getD noDay.store).header.agrees = true) ∧ virginHeader.agrees = false ∧
    (Header.mk true 65535 (headerCheck true 65535)).agrees = true ∧ noDay.pru.jobs.list.filterMap id ≠ [] := by
  refine ⟨?_, officer_may, by decide, rfl, rfl, by decide +kernel, by decide +kernel, by decide +kernel, by decide⟩
  intro s hs
  rcases List.mem_cons.mp hs with rfl | hs
  · exact ⟨rfl, rfl, serving_alone _ _ _, serving_turn rfl⟩
  rcases List.mem_cons.mp hs with rfl | hs
  · exact ⟨rfl, rfl, serving_alone _ _ _, serving_turn rfl⟩
  · cases List.mem_singleton.mp hs
    exact ⟨rfl, rfl, serving_alone _ _ _, serving_turn rfl⟩

/-- An entry to mark or to clear, an account of a passbook class without one, with an empty one to take, with the first of
several reclaimable ones and with none to be had, and an entry with a job. -/
theorem witness_NewBooksAreMarkedAtTheAccount :
    (∀ i, InService station i (serving station i branch)) ∧ MayActFor station branch 0 ∧
    branch.store.day.state = .opened ∧
    FirstWith branch.store.accounts (fun e => e.number = 100000000001) 0 someAccount ∧ someAccount.jobRef = false ∧
    FirstWith (withAccount { someAccount with newBook := true }).store.accounts (fun e => e.number = 100000000001) 0
      { someAccount with newBook := true } ∧
    (∀ j e, branch.store.accounts.get j = some e → e.number ≠ 199999999999) ∧ 199999999999 < 1000000000000 ∧
    isPassbook branch 199999999999 = true ∧
    (let earliest (t : Table (Option Account) 64) (e : Account) : Prop := isReclaimable e = true ∧
        ∀ j f, t.get j = some f → isReclaimable f = true →
          e.activeDay < f.activeDay ∨ e.activeDay = f.activeDay ∧ e.activeSecond ≤ f.activeSecond;
      TakenSlot branch.store.accounts.get (earliest branch.store.accounts) 1 ∧
        TakenSlot reclaimable.get (earliest reclaimable) 0) ∧
    (∀ j e, reclaimable.get j = some e → e.number ≠ 199999999999) ∧
    (∀ i, ∃ e, (Table.fill 64 (some someAccount)).get i = some e ∧ isReclaimable e = false) ∧
    FirstWith (withAccount { someAccount with jobRef := true }).store.accounts (fun e => e.number = 100000000001) 0
      { someAccount with jobRef := true } :=
  ⟨fun _ => serving_inService rfl rfl rfl, ⟨rfl, nofun, .inr rfl⟩, rfl, first_zero (by decide) rfl, rfl,
    account_first _, all_get (by decide), by decide, by decide, ⟨.inl ⟨by decide, by decide⟩, reclaimable_taken⟩,
    all_get (by decide), fun i => ⟨someAccount, by simp, by decide⟩, account_first _⟩

/-- Each setting at an end of its range and beyond it; the clock set in STORE_INVALID. -/
theorem witness_SettingsAreTakenAndAnswered :
    FromAny officer ∧ FromAny station ∧ officer.master = officerMaster ∧
    (∀ i, InService officer i (serving officer i (onDay .noDay branch))) ∧
    (∀ i, InService station i (serving station i (onDay .noDay branch))) ∧
    ((12 : Nat) ≤ 12 ∧ 999999999999 < 10 ^ 12 ∧ (0 : Nat) ≤ 12 ∧ 0 < 10 ^ 0) ∧
    (onDay .noDay branch).store.day.state = .noDay ∧ (1 ≤ 9999 ∧ 9999 ≤ 9999) ∧
    (branch.store.positions.get 1).teller = none ∧ (65536 : Nat) - 1 < 65536 ∧
    (∀ i, (serving officer i State.reset).power = .up ∧
      (serving officer i State.reset).port.inExecution.get officer.master = some ⟨i, false⟩ ∧
      waitsTurn officer i (serving officer i State.reset) = false ∧ NothingWaits (serving officer i State.reset)) ∧
    (∀ i, ∀ x ∈ (serving officer i State.reset).port.order, x ≠ .request officer.master →
      standsAt (serving officer i State.reset) x ≠ some .scu) :=
  ⟨⟨rfl, fun _ => rfl⟩, station_any, rfl, fun _ => serving_inService rfl rfl rfl,
    fun _ => serving_inService rfl rfl rfl, by decide, rfl, by decide, rfl, by decide,
    fun _ => ⟨rfl, rfl, serving_turn rfl⟩, fun _ => serving_alone _ _ _⟩

/-! ### Witnesses: printers -/

/-- Whatever the job, the engine and the account, the job is current at printer 0 and its account has its entry. -/
theorem printing_current (a : Account) (j : Job) (e : Engine) :
    (printing a j e).power = .up ∧ CurrentJob (printing a j e) 0 0 { j with printer := 0 } ∧
      FirstWith (printing a j e).store.accounts (fun x => x.number = a.number) 0 a :=
  ⟨rfl, ⟨first_zero (by simp [printing]) rfl, rfl, by simp [printing], by simp [printing]⟩, account_first a⟩

/-- Nothing is asked of the printers or of the passbooks; then CLASS.SET of the officer is. -/
theorem printing_free (a : Account) (j : Job) (e : Engine) :
    UnitFree (printing a j e) .pru ∧ UnitFree (printing a j e) .plu ∧
      let s := serving officer (.classSet officer ⟨.absent, .absent, .absent, .absent⟩) (printing a j e)
      UnitFree s .pru ∧ ¬UnitFree s .plu :=
  ⟨all_free rfl rfl _, all_free rfl rfl _, ⟨fun x hx => by
      simp only [serving, List.mem_singleton] at hx; subst hx; simp [serving, standsAt, unitOf, requestKind], nofun⟩,
    fun h => absurd (h.1 (.request 4) (by simp [serving, officer])) (by simp [serving, standsAt, officer, unitOf, requestKind])⟩

def motion (m : Motion) : Engine := { powerUpEngine true true with motion := m }

/-- The branch with this engine at printer 0 and no job. -/
def unused (e : Engine) : State := { branch with pru := { branch.pru with engines := branch.pru.engines.set 0 e } }

theorem unused_engine (e : Engine) : (unused e).power = .up ∧ (unused e).pru.engines.get 0 = e := ⟨rfl, by simp [unused]⟩

theorem unused_free (e : Engine) : TakenAt (unused e) [.pru] := all_taken rfl rfl _

/-- A queue of one job at an idle printer, an empty queue, and a printer out of service. -/
theorem witness_QueuesStartTheirHead :
    (let s := { branch with pru := { branch.pru with
        engines := branch.pru.engines.set 0 { powerUpEngine false false with queue := [255] }
        jobs := (Table.fill 16 none).set 0 (some (job .queued)) } };
      s.power = .up ∧ FirstWith s.pru.jobs (fun x => x.id = 255) 0 (job .queued) ∧
        (s.pru.engines.get 0).state = .idle ∧ (s.pru.engines.get 0).queue = 255 :: []) ∧
    (branch.pru.engines.get 0).queue = [] ∧
    let i : Instr := .printerReset officer (.value 1)
    let s := serving officer i { branch with pru := { branch.pru with
        engines := branch.pru.engines.set 1 { powerUpEngine true false with state := .outOfService } } }
    InService officer i s ∧ FromOfficer officer ∧ (s.pru.engines.get 1).state = .outOfService :=
  ⟨⟨rfl, first_zero (by decide) rfl, by decide, by decide⟩, rfl, serving_inService rfl rfl rfl, officer_may,
    by simp [serving]⟩

/-- An idle printer and a busy one with five jobs queued; something to print by each of the three cases. -/
theorem witness_PrintStartQueuesAJob :
    (∀ i, InService station i (serving station i branch)) ∧ MayActFor station branch 0 ∧
    branch.store.day.state = .opened ∧ branch.pru.sealAnswered = false ∧
    (branch.pru.engines.get 0).state = .idle ∧ (branch.pru.engines.get 0).queue = [] ∧
    branch.pru.jobs.get 0 = none ∧ FirstWith branch.store.accounts (fun e => e.number = 100000000001) 0 someAccount ∧
    (∃ l ∈ someAccount.lines, l.void = false ∧ l.inSnapshot = false) ∧
    (let s := printing someAccount (job .printing) { motion .line with queue := [1, 2, 3, 4, 5] };
      (s.pru.engines.get 0).state = .busy ∧ (s.pru.engines.get 0).queue.length < 6 ∧ s.pru.jobs.get 1 = none ∧
        ∀ j < 1, s.pru.jobs.get j ≠ none) ∧
    ({ someAccount with newBook := true } : Account).newBook = true :=
  ⟨fun _ => serving_inService rfl rfl rfl, ⟨rfl, nofun, .inr rfl⟩, rfl, rfl, rfl, rfl, by decide,
    first_zero (by decide) rfl, by decide, by decide, rfl⟩

/-- A current job in any state, with any motion, and a queued one that is not current. -/
theorem witness_CancelsActByTheJobsState :
    (∀ x m, let i : Instr := .printCancel station ⟨.value 0, .value 255⟩
      let s := serving station i (printing someAccount (job x) (motion m))
      InService station i s ∧ MayActFor station s 0 ∧ 1 ≤ 255 ∧ 255 ≤ 255 ∧ (job x).position = 0 ∧
        FirstWith s.pru.jobs (fun y => y.id = 255) 0 (job x) ∧ (s.pru.engines.get 0).current = some 255 ∧
        (s.pru.engines.get 0).state = .busy) ∧
    (branch.pru.engines.get 0).current ≠ some 255 ∧ turning (.eject .turn) = true ∧ turning .still = false :=
  ⟨fun x m => ⟨serving_inService rfl rfl rfl, ⟨rfl, nofun, .inr rfl⟩, by decide, by decide, rfl,
    first_zero (by simp [serving, printing, job]) rfl, by simp [serving, printing, job], by simp [serving, printing]⟩,
    by decide, rfl, rfl⟩

/-- With no current job, and once the store is shut; the sensor clear and made; the feed running and not; a job that awaits
its book, prompted once or twice, and one whose page is turned; the units as `printing_free` has them. -/
theorem witness_InsertionsFeedToTheEdge :
    (∀ m seen, let e := { motion m with present := seen }
      TakenAt (unused e) [.pru] ∧ (unused e).pru.engines.get 0 = e ∧ e.current = none ∧ e.present = seen) ∧
    { branch with power := .shut }.power ≠ .up ∧
    (∀ x m seen attempts, let j : Job := { job x with attempts := attempts }
      let s := printing someAccount j { motion m with present := seen }
      s.power = .up ∧ CurrentJob s 0 0 j ∧ UnitFree s .pru ∧ UnitFree s .plu ∧ (s.pru.engines.get 0).present = seen ∧
        (s.pru.engines.get 0).motion = m) ∧
    Motion.still ≠ .feed ∧ (4095 : Nat) < 4096 :=
  ⟨fun _ _ => ⟨unused_free _, (unused_engine _).2, rfl, rfl⟩, by decide,
    fun _ _ _ _ => ⟨rfl, (printing_current someAccount _ _).2.1, all_free rfl rfl _, all_free rfl rfl _, by simp [printing],
      by simp [printing, motion]⟩,
    nofun, by decide⟩

/-- A stripe of the account at the first and at the last place, one of another account, a book without one; a first
insertion with and without a printed-through, and a reinsertion; the units as `printing_free` has them. -/
theorem witness_StripesDecideWhereAJobStarts :
    (∀ (a : Account) (j : Job) m, let s := printing a j (motion m)
      s.power = .up ∧ CurrentJob s 0 0 { j with printer := 0 } ∧
        FirstWith s.store.accounts (fun e => e.number = a.number) 0 a ∧ UnitFree s .pru ∧ UnitFree s .plu ∧
        (s.pru.engines.get 0).motion = m) ∧
    (job .reading).account = someAccount.number ∧ (job .reading).state ≠ .turnPage ∧ Motion.still ≠ .read ∧
    readStripe (some (stripeBytes 100000000001 1 1)) = some ⟨100000000001, 1, 1⟩ ∧
    readStripe (some (stripeBytes 100000000001 12 21)) = some ⟨100000000001, 12, 21⟩ ∧
    readStripe (some (stripeBytes 5 1 1)) = some ⟨5, 1, 1⟩ ∧ readStripe none = none ∧
    (let j := { job .turnPage with
        snapshot := some [.line ⟨⟨20260417, 2⟩, 3, 4500, none, none, false, true⟩], next := some (12, 1) };
      j.state = .turnPage ∧ j.snapshot.isSome = true ∧ j.next = some (12, 1)) :=
  ⟨fun a j m => ⟨rfl, (printing_current a j _).2.1, account_first a, all_free rfl rfl _, all_free rfl rfl _,
      by simp [printing, motion]⟩, rfl, nofun, nofun,
    by decide +kernel, by decide +kernel, by decide +kernel, rfl, rfl, rfl, rfl⟩

/-- A job about to print the last line of a page, or of the book; the units as `printing_free` has them. -/
theorem witness_LinesArePrintedWhenTheHeadIsHome :
    (∀ m cancel attempts, ∀ page ∈ [1, 12], ∀ line ∈ [1, 20],
      let j : Job := { job .printing with
        snapshot := some [.summary ⟨2, 100, ⟨20260417, 2⟩, ⟨20260417, 3⟩⟩], next := some (page, line), cancel := cancel,
        attempts := attempts, edge := some 0 }
      let s := printing someAccount j (motion m)
      s.power = .up ∧ CurrentJob s 0 0 j ∧
        FirstWith s.store.accounts (fun e => e.number = j.account) 0 someAccount ∧
        j.snapshot = some (.summary ⟨2, 100, ⟨20260417, 2⟩, ⟨20260417, 3⟩⟩ :: []) ∧ j.next = some (page, line) ∧
        UnitFree s .pru ∧ UnitFree s .plu ∧
        (s.pru.engines.get 0).motion = m) ∧ Motion.line ≠ .headReturn ∧ Motion.headReturn ≠ .line :=
  ⟨fun _ _ _ _ _ _ _ => ⟨rfl, (printing_current someAccount _ _).2.1, account_first someAccount, rfl, rfl,
    all_free rfl rfl _, all_free rfl rfl _, by simp [printing, motion]⟩, nofun, nofun⟩

/-- No current job and a clearing eject, in service and once the store is shut; every motion and state of the current job,
with a pending outcome and without; a read-back that agrees with what was written and one that does not; the units as
`printing_free` has them. -/
theorem witness_StripeWritesAreVerifiedAndBooksEjected :
    (let e := motion (.eject .clearing);
      (unused e).power = .up ∧ TakenAt (unused e) [.pru] ∧ (unused e).pru.engines.get 0 = e ∧ e.current = none ∧
        e.motion = .eject .clearing ∧ { unused e with power := .shut }.power = .shut ∧ { unused e with power := .off }.power = .off) ∧
    (∀ x m outcome cancel, let j : Job := { job x with outcome := outcome, cancel := cancel }
      let s := printing someAccount j (motion m)
      s.power = .up ∧ CurrentJob s 0 0 j ∧ UnitFree s .pru ∧ UnitFree s .plu ∧ (s.pru.engines.get 0).motion = m) ∧
    (∀ why second, Motion.still ≠ .write why second) ∧ (∀ why, Motion.still ≠ .eject why) ∧
    none ≠ some (stripeBytes 100000000001 1 1) :=
  ⟨⟨rfl, unused_free _, (unused_engine _).2, rfl, rfl, rfl, rfl⟩,
    fun _ _ _ _ => ⟨rfl, (printing_current someAccount _ _).2.1, all_free rfl rfl _, all_free rfl rfl _,
      by simp [printing, motion]⟩, nofun, nofun, nofun⟩

/-- With no current job and once the store is shut; the sensor made and clear, under every state, motion and pending outcome
of the current job; the units as `printing_free` has them. -/
theorem witness_PulledBooksAndJams :
    (∀ m seen, let e := { motion m with present := seen }
      TakenAt (unused e) [.pru] ∧ (unused e).pru.engines.get 0 = e ∧ e.current = none ∧ e.present = seen) ∧
    { branch with power := .shut }.power ≠ .up ∧
    (∀ x m outcome seen, let j : Job := { job x with outcome := outcome }
      let s := printing someAccount j { motion m with present := seen }
      s.power = .up ∧ CurrentJob s 0 0 j ∧ UnitFree s .pru ∧ UnitFree s .plu ∧ (s.pru.engines.get 0).present = seen ∧
        (s.pru.engines.get 0).motion = m) ∧
    Motion.line ≠ .headReturn :=
  ⟨fun _ _ => ⟨unused_free _, (unused_engine _).2, rfl, rfl⟩, by decide,
    fun _ _ _ _ => ⟨rfl, (printing_current someAccount _ _).2.1, all_free rfl rfl _, all_free rfl rfl _, by simp [printing],
      by simp [printing, motion]⟩, nofun⟩

/-- The ends of the ranges, and each way out of them. -/
theorem witness_StripesReadBackWhatWasWritten :
    (999999999999 < 1000000000000 ∧ 1 ≤ 12 ∧ 12 ≤ 12 ∧ 1 ≤ 21 ∧ 21 ≤ 21) ∧ (13 < 256 ∧ 22 < 256 ∧ 12 < 13 ∧ 21 < 22) ∧
    ([] : List Byte).length ≠ 10 ∧ (∃ b ∈ ([0, 0xA0] : List Byte).take 6, 9 < b.toNat / 16 ∨ 9 < b.toNat % 16) ∧
    (∃ b ∈ ([0, 0, 0, 0, 0, 0x0A] : List Byte).take 6, 9 < b.toNat / 16 ∨ 9 < b.toNat % 16) ∧
    (List.replicate 10 (0 : Byte)).drop 8 ≠ bytesOf 2 (crc16 ((List.replicate 10 (0 : Byte)).take 8)).toNat := by
  decide +kernel
/-! ### Witnesses: screens -/

/-- Master 0 owns buffer 27, named by this many map entries. -/
def owning (owner : Owner) (refs : Nat) : State :=
  { branch with scu := { branch.scu with
    buffers := branch.scu.buffers.set 27 ⟨owner, refs, Table.fill 5 none, false, blankRow⟩ } }

/-- The lowest free buffer and a pool with none; requests without their fields; a buffer of the part's, one of the
caller's that a map names and one that none does; one cell at column 79 and 48 cells. -/
theorem witness_RowsAreClaimedFreedAndWritten :
    FromAny station ∧ (∀ i owner refs, InService station i (serving station i (owning owner refs))) ∧
    ((branch.scu.buffers.get 27).owner = .free ∧ ∀ k < 27, (branch.scu.buffers.get k).owner ≠ .free) ∧
    (∀ b, ((Table.fill 192 (partBuffer 2)).get b).owner ≠ .free) ∧
    (∀ b : BufferNo, Fld.value 192 ≠ .value b.val) ∧ (∀ k : Fin 80, Fld.value 80 ≠ .value k.val) ∧
    (∀ l : List Cell, 1 ≤ l.length → l.length ≤ 48 → Fld.value [] ≠ .value l) ∧
    (∀ refs, ((owning (.master 0) refs).scu.buffers.get 27).owner = .master station.master ∧
      ((owning (.master 0) refs).scu.buffers.get 27).refs = refs) ∧
    (branch.scu.buffers.get 0).owner ≠ .master station.master ∧
    (1 ≤ (List.replicate 1 blankCell).length ∧ (List.replicate 48 blankCell).length ≤ 48) ∧ (79 : Nat) < 80 :=
  ⟨station_any, fun _ _ _ => serving_inService rfl rfl rfl, by decide +kernel, fun b => by simp [partBuffer],
    fun b h => by injection h with h; have := b.isLt; omega, fun k h => by injection h with h; have := k.isLt; omega,
    fun l h _ e => by injection e with e; subst e; exact absurd h (by decide),
    fun _ => ⟨by simp [owning, station], by simp [owning]⟩, by decide, by decide, by decide⟩

/-- A blank, a buffer of the part, of the caller and of master 4; a field of one column at column 79, one of twenty that
ends there, one of a drawer bound to the caller's position, and one emptied. -/
theorem witness_MapEntriesAndFieldsAreSet :
    (∀ i owner refs, let s := serving station i (owning owner refs)
      InService station i s ∧ MayActFor station s 0 ∧ (s.scu.buffers.get 27).owner = owner) ∧
    (branch.scu.buffers.get 0).owner = .part ∧ FromAny station ∧
    checkedSource branch .none = some none ∧ checkedSource branch .clock = some (some .clock) ∧
    (79 + max 1 (min 20 0) ≤ 80 ∧ 60 + max 1 (min 20 65535) ≤ 80 ∧ 79 ≤ 79) ∧
    (∀ j g, ((owning (.master 0) 0).scu.buffers.get 27).fields.get j = some g → g.width = 0) ∧
    sourceDrawer .clock = none ∧ checkedSource branch (.drawerState 0) = some (some (.drawerState 0)) ∧
    sourceDrawer (.drawerState 0) = some 0 ∧
    ((branch.store.drawers.get 0).bound = some 0 ∧ servingMaster branch 0 = station.master) :=
  ⟨fun _ _ _ => ⟨serving_inService rfl rfl rfl, ⟨rfl, nofun, .inr rfl⟩, by simp [serving, owning]⟩,
    by decide, station_any, rfl, rfl, by decide, fun j g h => by simp [owning] at h, rfl, rfl, rfl, rfl, rfl⟩

/-- A report of drawer 0, whose state and totals position 0's drawer row shows, leaves the cells between them; buffers
whose fields it does not concern keep every cell. -/
theorem witness_SourceReportsRenderTheirFields :
    (branch.power = .up → UnitFree branch .scu) ∧ 20 ≤ 20 ∧
    (∃ k f, (branch.scu.buffers.get 15).fields.get k = some f ∧ Renewed branch [.drawer 0 none] f.source ∧
      ∀ j g, j ≠ k → (branch.scu.buffers.get 15).fields.get j = some g → f.Apart g) ∧
    (∀ k f, (branch.scu.buffers.get 15).fields.get k = some f → Renewed branch [.drawer 0 none] f.source → ¬f.Holds 17) ∧
    ∃ k f, (branch.scu.buffers.get 2).fields.get k = some f ∧ ¬Renewed branch [.drawer 0 none] f.source := by
  have apart (x : FieldSet) (k : Fin 5) (f : LiveField) (h : ((List.finRange 5).all fun j => (x.get j).all fun g =>
      j == k || decide (f.column + f.width ≤ g.column) || decide (g.column + g.width ≤ f.column)) = true) :
      ∀ j g, j ≠ k → x.get j = some g → f.Apart g := fun j g hn hg => by
    have := List.all_eq_true.mp h j (List.mem_finRange j)
    rw [hg, Option.all_some] at this
    simpa [hn, LiveField.Apart] using this
  refine ⟨fun _ => all_free rfl rfl _, by decide, ⟨0, ⟨0, 17, .rowState 0⟩, rfl,
    .inr ⟨0, none, .head _, .inl rfl⟩, apart _ _ _ (by decide)⟩, fun k f h _ => ?_, 1, ⟨72, 8, .clock⟩, rfl, ?_⟩
  · have := (by decide : ∀ k : Fin 5, ((branch.scu.buffers.get 15).fields.get k).all (fun f =>
      !(decide (f.column ≤ 17) && decide (17 < f.column + f.width))) = true) k
    rw [h] at this
    simp at this
    exact fun hh => this.elim (fun h => absurd hh.1 (Nat.not_le.mpr h)) fun h => absurd hh.2 (Nat.not_lt.mpr h)
  · simp [Renewed]

/-- The branch with this screen at position 0. -/
def showing (x : Screen) : State := { branch with scu := { branch.scu with screens := branch.scu.screens.set 0 x } }

/-- An idle count off, in its last second and with two left; an unlock without its fields, by another station, of a
screen not locked, by another teller and by the teller signed on; the timeout off and at and beyond its limits. -/
theorem witness_LocksComeAndGo :
    branch.power ≠ .off ∧ (∀ x, (showing x).scu.screens.get 0 = x ∧ TakenAt (showing x) [.scu]) ∧
    (¬TakenAt (serving station (.screenActivity station (.value 0)) branch) [.scu]) ∧
    (∀ i x, InService station i (serving station i (showing x)) ∧ MayActFor station (serving station i (showing x)) 0) ∧
    (∀ i, InService officer i (serving officer i branch)) ∧ FromOfficer officer ∧
    (∀ p : Position, Fld.value 12 ≠ .value p.val) ∧ (∀ n ≤ 9999, Fld.value 10000 ≠ .value n) ∧
    (station.spare = false ∧ station.officer = false ∧ station.master ≠ officerMaster ∧
      station.master.val ≠ (branch.store.positions.get 3).serving.val) ∧
    ((branch.store.positions.get 0).teller = some 3310 ∧ 3310 ≤ 9999 ∧ some 3310 ≠ some 9999 ∧ 9999 ≤ 9999) ∧
    { powerUpScreen true with idle := some 1 }.idle = some 1 ∧ (powerUpScreen true).lockHeld = true ∧
    (powerUpScreen false).lockHeld = false ∧ (powerUpScreen false).idle = none :=
  ⟨by decide, fun x => ⟨by simp [showing], all_taken rfl rfl _⟩, fun h => absurd (h rfl .scu (by simp)) (by decide),
    fun _ _ => ⟨serving_inService rfl rfl rfl, ⟨rfl, nofun, .inr rfl⟩⟩, fun _ => serving_inService rfl rfl rfl,
    officer_may, fun p h => by injection h with h; have := p.isLt; omega,
    fun n hn h => by injection h with h; omega, by decide, by decide, rfl, rfl, rfl, rfl⟩

/-- A screen with nothing to send, one whose first or last row is dirty, one with a row in flight at its first or second
send, and a silent one; the frame that answers each, and one with another check. -/
theorem witness_DisplayLinesSendProbeAndRecover :
    branch.power ≠ .off ∧
    (∀ x, (showing x).power ≠ .off ∧ (showing x).scu.screens.get 0 = x ∧ TakenAt (showing x) [.scu]) ∧
    (∀ r : Row, let x := { powerUpScreen false with dirty := (Table.fill 24 false).set r true }
      x.inFlight = none ∧ x.silent = false ∧ x.dirty.get r = true ∧ ∀ k < r, x.dirty.get k = false) ∧
    (∀ n, (Table.fill 24 false).get n = false) ∧
    (∀ tries ∈ [1, 2], let x := { powerUpScreen false with inFlight := some 23, sendNo := 255, tries := tries }
      x.inFlight = some 23 ∧ x.tries = tries ∧ Frame.check ⟨9, [255]⟩ = Frame.check ⟨9, [255]⟩ ∧
        x.inFlight.isSome = true ∧ x.sendNo = 255 ∧ x.silent = false) ∧
    (let x := { powerUpScreen false with silent := true, probe := some 0 };
      x.silent = true ∧ x.probe = some 0) ∧
    Frame.check ⟨9, [255]⟩ ≠ Frame.check ⟨10, [255]⟩ :=
  ⟨by decide, fun x => ⟨nofun, by simp [showing], all_taken rfl rfl _⟩,
    fun r => ⟨rfl, rfl, by simp, fun k hk => by
      have : r ≠ k := fun e => absurd hk (by subst e; exact lt_irrefl _)
      simp [Table.get_set, this]⟩,
    fun n => by simp, fun _ _ => ⟨rfl, rfl, rfl, rfl, rfl, rfl⟩, ⟨rfl, rfl⟩, by decide +kernel⟩

/-! ### Witnesses: the business day and the head-office line -/

/-- The first day of year 0 and the last that can be delivered after it, a leap day, and the day states of the three
requests; a closing day with no drawer settled and with drawer 0 settled first. -/
theorem witness_TheDayOpensClosesAndReopens :
    (∀ i d, InService officer i (serving officer i (onDay d branch)) ∧
      JournalWhole (serving officer i (onDay d branch)) ∧ (onDay d branch).store.day.state = d) ∧ FromOfficer officer ∧
    (1 ≤ 12 ∧ 12 ≤ 12 ∧ 1 ≤ 31 ∧ 9999 ≤ 9999 ∧ 10000 * 0 + 100 * 1 + 1 < 10000 * 9999 + 100 * 12 + 31) ∧
    (2000 % 4 = 0 ∧ 2000 % 100 = 0 ∧ 2000 % 400 = 0 ∧ 29 ≤ 29) ∧
    branch.store.day.lastDelivered = none ∧ branch.store.lineSettings.branch.isSome = true ∧
    (branch.store.currencies.get 0).defined = true ∧ branch.store.day.used + branch.jsu.holds + 1 ≤ 16383 ∧
    (∀ n, ¬Settled closing n) ∧ Settled differing 0 ∧ ∀ k < 0, ¬Settled differing k :=
  ⟨fun _ _ => ⟨serving_inService rfl rfl rfl, ⟨Nat.le_refl 1, nofun⟩, rfl⟩, officer_may, by decide, by decide, rfl, rfl, rfl, by decide,
    by unfold Settled; decide, by unfold Settled; decide, fun k hk => absurd hk (by exact Fin.not_lt_zero k)⟩

/-- A closing day with every drawer CLOSED. -/
def settled : State := { closing with store := { closing.store with
  drawers := Table.fill 13 { tellerDrawer with state := .closed } } }

/-- The same with a queued job, and with the current one awaiting its book again after a misfeed, its line in the snapshot
that it keeps. -/
def settledWith (x : JobState) : State :=
  let line : Line := ⟨⟨20260417, 2⟩, 3, 4500, none, none, false, true⟩
  let a := { someAccount with lines := [line], jobRef := true }
  { settled with
    store := { settled.store with accounts := (Table.fill 64 none).set 0 (some a) }
    pru := (printing a { job x with snapshot := some [.line line], attempts := 1 } (motion .still)).pru }

/-- A day to seal, with no job, with one that awaits its book again and with one at its printer, one sealed to send, and
one delivered to clear. -/
theorem witness_DaysAreSealedSentAndCleared :
    (∀ i d, InService officer i (serving officer i (onDay d branch)) ∧ (onDay d branch).store.day.state = d) ∧
    FromOfficer officer ∧ branch.store.lineSettings.branch = some 217 ∧
    (let s := serving officer (.daySeal officer) settled;
      InService officer (.daySeal officer) s ∧ JournalWhole s ∧ s.store.day.state = .closing ∧
        s.store.day.used + s.jsu.holds + 1 ≤ 16384 ∧ (∀ n, (s.store.drawers.get n).state = .closed) ∧
        (∀ j a, s.store.transfers.get j = some a → a.state ≠ .offered) ∧ (∀ k, s.pru.jobs.get k = none) ∧
        ∀ k a, s.store.accounts.get k = some a → ¬(a.taken.isSome = true ∨ ∃ l ∈ a.lines, l.inSnapshot = true)) ∧
    (let s := serving officer (.daySeal officer) (settledWith .awaitingBook);
      InService officer (.daySeal officer) s ∧ JournalWhole s ∧ s.store.day.state = .closing ∧
        s.store.day.used + s.jsu.holds + 1 ≤ 16384 ∧ (∀ n, (s.store.drawers.get n).state = .closed) ∧
        (∀ j a, s.store.transfers.get j = some a → a.state ≠ .offered) ∧
        (∀ k j, s.pru.jobs.get k = some j → j.state = .queued ∨ j.state = .awaitingBook) ∧
        ∀ k a, s.store.accounts.get k = some a → ∃ n j, s.pru.jobs.get n = some j ∧ j.snapshot.getD [] ≠ [] ∧
          FirstWith s.store.accounts (fun x => x.number = j.account) k a) ∧
    ∃ k j, (printing someAccount (job .printing) (motion .line)).pru.jobs.get k = some j ∧ j.state ≠ .queued ∧
      j.state ≠ .awaitingBook :=
  ⟨fun _ _ => ⟨serving_inService rfl rfl rfl, rfl⟩, officer_may, rfl,
    ⟨serving_inService rfl rfl rfl, ⟨Nat.le_refl 1, nofun⟩, rfl, by decide, fun n => by simp [serving, settled],
      all_get (by decide), by decide, all_get (by decide)⟩,
    ⟨serving_inService rfl rfl rfl, ⟨Nat.le_refl 1, nofun⟩, rfl, by decide, fun n => by simp [serving, settledWith, settled],
      all_get (by decide), all_get (by decide), fun k a e => by
        have hk : k = 0 := by
          by_contra c
          simp [serving, settledWith, Table.get_set, Ne.symm c] at e
        subst hk
        exact ⟨0, _, rfl, nofun, e, by simp [serving, settledWith] at e; subst e; rfl, fun j hj => absurd hj (Fin.not_lt_zero j)⟩⟩,
    0, job .printing, by simp [printing, job], nofun, nofun⟩

/-- The branch with its one record standing and the sender as given. -/
def sending (x : Sender) : State :=
  { onDay .sending branch with
    store := { (onDay .sending branch).store with
      journal := [markedRecord .none { emptyRecord .dayOpen with sequence := 1, account := some 20260417 }] }
    sender := x }

/-- The same with a record whose check fails. -/
def spoiled (x : Sender) : State :=
  { sending x with store := { (sending x).store with
    journal := [{ emptyRecord .dayOpen with sequence := 1, check := 1 }] } }

/-- Block 2 is the first of records, and the first that can fail. -/
theorem test_unsound_record_is_found : firstUnsound (sending idleSender) [1, 2] = none ∧
    firstUnsound (spoiled idleSender) [1, 2, 3] =
      some ([1], { emptyRecord .dayOpen with sequence := 1, check := 1 }) := by decide +kernel

/-- A sender with the one block of the carry-over section outstanding, its age at the limit, behind CLASS.SET at the Passbook
Line Unit. -/
def carrying : State :=
  let s := sending ⟨.sending, 1, none, [⟨4, 0, 9, 10⟩], 0, none, 0, none⟩
  serving officer (.classSet officer ⟨.absent, .absent, .absent, .absent⟩)
    { s with store := { s.store with carryCount := 1 } }

/-- One record and no carry-over, and the last of 33 records with one carry-over record; the account of the branch stands
in ascending number. -/
theorem witness_BlocksCarryTheDayEndFile :
    0 < (branch.store.day.used + 31) / 32 ∧ ¬0 < (branch.store.carryCount + 31) / 32 ∧ 1 < (33 + 31) / 32 ∧
    0 < (1 + 31) / 32 ∧ [someAccount].Perm (branch.store.accounts.list.filterMap id) ∧
    [someAccount].Pairwise fun a b => a.number < b.number :=
  ⟨by decide, by decide, by decide, by decide, by
    have : branch.store.accounts.list.filterMap id = [someAccount] := by decide
    rw [this], List.pairwise_singleton _ _⟩

/-- The sender in each state it listens in, for every frame: at the first CALL and the fifth, with a block outstanding
and with none, over records that stand and over one that does not; the frame with its check, one with another, and one of an
unknown kind; the units free, and the Passbook Line Unit taken where a block of the carry-over section is sent again. -/
theorem witness_HeadOfficeFramesAreTaken :
    (∀ x, (sending x).power = .up ∧ (sending x).sender = x ∧ (spoiled x).power = .up ∧ (spoiled x).sender = x ∧
      UnitFree (sending x) .dlu ∧ UnitFree (sending x) .plu) ∧
    (let s := carrying; let i : Instr := .nak 4 (Frame.check ⟨20, bytesOf 2 4⟩)
      s.power = .up ∧ UnitFree s .dlu ∧ ¬UnitFree s .plu ∧ readsCarry s (eventEffect i s) = true) ∧
    (∀ d ∈ [SenderState.calling, .waitReady, .sending, .waitClosed], ∀ calls ∈ [1, 5],
      Listens (sending ⟨d, calls, none, [⟨1, 4, 0, 10⟩], 1, some 10, 0, none⟩)) ∧
    ¬Listens (sending idleSender) ∧
    (let x : Sender := ⟨.sending, 1, none, [⟨1, 4, 0, 10⟩], 0, none, 0, none⟩;
      (∃ b ∈ x.outstanding, b.block = (1 : Word).toNat) ∧
        (x.outstanding.find? fun b => b.block == (1 : Word).toNat) = some ⟨1, 4, 0, 10⟩ ∧
        (x.outstanding.find? fun b => b.block == (2 : Word).toNat) = none) ∧
    ((1 : Word).toNat ≤ branch.store.day.ackThrough + 1 ∧ branch.store.day.ackThrough + 1 < (2 : Word).toNat ∧
      (1 : Word) ≠ 0) ∧
    (∀ b ∈ ([32, 126] : List Byte), 32 ≤ b.toNat ∧ b.toNat ≤ 126) ∧
    Frame.check ⟨18, []⟩ ≠ Frame.check ⟨17, []⟩ ∧
    (frameStands (Frame.bytes ⟨99, []⟩) = true ∧ isKnownFrame (Frame.bytes ⟨99, []⟩) = false) :=
  ⟨fun _ => ⟨rfl, rfl, rfl, rfl, all_free rfl rfl _, all_free rfl rfl _⟩,
    ⟨rfl, by decide, by decide, by decide +kernel⟩, by unfold Listens; decide, by unfold Listens; decide, by decide, by decide, by decide,
    by decide +kernel, by decide +kernel⟩

/-- Each expiry due in its last second, at the first try and the fifth, and not yet due; the units free, the Day and Line Unit
taken, and the Passbook Line Unit taken where a block of the carry-over section is sent again. -/
theorem witness_SenderExpiriesResendOrFail :
    (∀ x, (sending x).power = .up ∧ (sending x).sender = x ∧ (spoiled x).power = .up ∧ (spoiled x).sender = x ∧
      UnitFree (sending x) .dlu ∧ UnitFree (sending x) .plu) ∧
    (carrying.power = .up ∧ ¬UnitFree carrying .plu ∧ readsCarry carrying (blockAgeDue carrying) = true ∧
      ¬UnitFree (serving officer (.dayClear officer) branch) .dlu) ∧
    (let x (d : SenderState) (calls tries n : Nat) : Sender := ⟨d, calls, some n, [⟨1, 4, 9, 10⟩], tries, some n, 0, none⟩;
      ((x .calling 1 0 1).wait.getD 0 ≤ 1 ∧ ¬(x .calling 1 0 2).wait.getD 0 ≤ 1) ∧
      (∀ calls ∈ [1, 5], (x .waitReady calls 0 1).state = .waitReady ∧
        ∃ n, (x .waitReady calls 0 1).timer = some n ∧ n ≤ 1) ∧
      (∀ tries ∈ [1, 5], (x .waitClosed 1 tries 1).state = .waitClosed ∧
        ∃ n, (x .waitClosed 1 tries 1).timer = some n ∧ n ≤ 1) ∧
      ∃ b, (x .sending 1 0 1).outstanding.head? = some b ∧ b.limit ≤ b.age + 1) :=
  ⟨fun _ => ⟨rfl, rfl, rfl, rfl, all_free rfl rfl _, all_free rfl rfl _⟩,
    ⟨rfl, by decide, by decide +kernel, by decide⟩, by decide, fun _ _ => ⟨rfl, 1, rfl, by decide⟩,
    fun _ _ => ⟨rfl, 1, rfl, by decide⟩, ⟨1, 4, 9, 10⟩, rfl, by decide⟩
/-! ### Ill-formed commands are refused, one for each check -/

/-- Request operands that their words cannot hold (R192). -/
theorem test_ill_formed_cash_requests : ([
    .currencyDefine station ⟨.value 65536, .absent, .absent, .absent⟩,
    .currencyDefine station ⟨.absent, .value 65536, .absent, .absent⟩,
    .currencyDefine station ⟨.absent, .absent, .value 65536, .absent⟩,
    .currencyDefine station ⟨.absent, .absent, .absent, .value [4294967296]⟩,
    .drawerSignon station ⟨.value 65536, .absent, .absent⟩, .drawerSignon station ⟨.absent, .value 65536, .absent⟩,
    .drawerSignon station ⟨.absent, .absent, .value 65536⟩, .drawerSignoff station (.value 65536),
    .drawerLimits station ⟨.value 65536, .absent, .absent⟩, .drawerLimits station ⟨.absent, .value 140737488355328, .absent⟩,
    .drawerLimits station ⟨.absent, .absent, .value (-140737488355329)⟩, .drawerCount station ⟨.value 65536, .absent⟩,
    .drawerCount station ⟨.absent, .value [65536]⟩, .drawerAccept station (.value 65536),
    .drawerEnquire station (.value 65536), .cashReverse station ⟨.value 65536, .absent⟩,
    .cashReverse station ⟨.absent, .value 65536⟩, .rateSet station ⟨.value 65536, .absent, .absent⟩,
    .rateSet station ⟨.absent, .value 4294967296, .absent⟩, .rateSet station ⟨.absent, .absent, .value 4294967296⟩,
    .feeSet station ⟨.value 65536, .absent, .absent, .absent⟩,
    .feeSet station ⟨.absent, .value ⟨65536, 0, 0⟩, .absent, .absent⟩,
    .feeSet station ⟨.absent, .absent, .value ⟨0, 140737488355328, 0⟩, .absent⟩,
    .feeSet station ⟨.absent, .absent, .value ⟨0, 0, 140737488355328⟩, .absent⟩,
    .feeSet station ⟨.absent, .absent, .absent, .value 65536⟩,
    .quoteRequest station ⟨.value 65536, .absent, .absent, .absent⟩,
    .quoteRequest station ⟨.absent, .value 65536, .absent, .absent⟩,
    .quoteRequest station ⟨.absent, .absent, .absent, .value 140737488355328⟩,
    .quoteRelease station ⟨.value 65536, .absent⟩, .quoteRelease station ⟨.absent, .value 65536⟩
    ] : List Instr).all (fun i => !i.wellFormed) = true := by decide

/-- A posting with the field given, and its checks. -/
theorem test_ill_formed_postings :
    let r : PostReq := ⟨.absent, .absent, .absent, .absent, .absent, .absent, .absent, .absent⟩
    ([{ r with position := .value 65536 }, { r with account := .value 1000000000000 },
      { r with amount := .value 140737488355328 }, { r with quote := .value 65536 }, { r with narrative := .value 65536 },
      { r with balance := .value (-140737488355329) }, { r with tender := .value [⟨4, 0, 0, 0⟩] },
      { r with tender := .value [⟨0, 16, 0, 0⟩] }, { r with tender := .value [⟨0, 0, 65536, 0⟩] },
      { r with tender := .value [⟨0, 0, 0, 65536⟩] }] : List PostReq).all
        (fun r => !(Instr.cashPost station r).wellFormed) = true := by decide

theorem test_ill_formed_other_requests : ([
    .transferOffer station ⟨.value 65536, .absent, .absent, .absent⟩,
    .transferOffer station ⟨.absent, .value 65536, .absent, .absent⟩,
    .transferOffer station ⟨.absent, .absent, .value [⟨4, 0, 0⟩], .absent⟩,
    .transferOffer station ⟨.absent, .absent, .value [⟨0, 16, 0⟩], .absent⟩,
    .transferOffer station ⟨.absent, .absent, .value [⟨0, 0, 65536⟩], .absent⟩,
    .transferOffer station ⟨.absent, .absent, .absent, .value 65536⟩,
    .transferAccept station ⟨.value 65536, .absent⟩, .transferAccept station ⟨.absent, .value [⟨4, 0, 0⟩]⟩,
    .transferDecline station (.value 65536), .vaultReceive station ⟨.value 1000000000000, .absent⟩,
    .vaultReceive station ⟨.absent, .value [⟨0, 16, 0⟩]⟩, .vaultDispatch station ⟨.value 1000000000000, .absent⟩,
    .vaultDispatch station ⟨.absent, .value [⟨0, 0, 65536⟩]⟩, .journalRead station ⟨.value 65536, .absent⟩,
    .journalRead station ⟨.absent, .value 65536⟩, .classSet station ⟨.value 65536, .absent, .absent, .absent⟩,
    .classSet station ⟨.absent, .value 65536, .absent, .absent⟩,
    .classSet station ⟨.absent, .absent, .value 1000000000000, .absent⟩,
    .passbookEnquire station ⟨.value 1000000000000, .absent⟩, .passbookEnquire station ⟨.absent, .value 65536⟩,
    .passbookNewbook station ⟨.value 65536, .absent, .absent⟩,
    .passbookNewbook station ⟨.absent, .value 1000000000000, .absent⟩,
    .printStart station ⟨.value 65536, .absent, .absent⟩, .printStart station ⟨.absent, .value 1000000000000, .absent⟩,
    .printCancel station ⟨.value 65536, .absent⟩, .printCancel station ⟨.absent, .value 65536⟩,
    .dayOpen station (.value 100000000), .lineSettings station ⟨.value 65536, .absent⟩,
    .lineSettings station ⟨.absent, .value 65536⟩, .positionBind station ⟨.value 65536, .absent⟩,
    .positionBind station ⟨.absent, .value 65536⟩, .portSettings station (.value 65536),
    .clockSet station ⟨.value 65536, .absent⟩, .clockSet station ⟨.absent, .value 4294967296⟩
    ] : List Instr).all (fun i => !i.wellFormed) = true := by decide

theorem test_ill_formed_screen_requests : ([
    .rowFree station (.value 65536), .rowWrite station ⟨.value 65536, .absent, .absent⟩,
    .rowWrite station ⟨.absent, .value 65536, .absent⟩, .rowWrite station ⟨.absent, .absent, .value [⟨256, false, false, false, false⟩]⟩,
    .mapSet station ⟨.value 65536, .absent, .absent⟩, .mapSet station ⟨.absent, .value 65536, .absent⟩,
    .mapSet station ⟨.absent, .absent, .value 65536⟩, .fieldBind station ⟨.value 65536, .absent, .absent, .absent, .absent⟩,
    .fieldBind station ⟨.absent, .value 65536, .absent, .absent, .absent⟩,
    .fieldBind station ⟨.absent, .absent, .value 65536, .absent, .absent⟩,
    .fieldBind station ⟨.absent, .absent, .absent, .value 65536, .absent⟩,
    .fieldBind station ⟨.absent, .absent, .absent, .absent, .value (.drawerTotal 65536 0)⟩,
    .fieldBind station ⟨.absent, .absent, .absent, .absent, .value (.drawerTotal 0 65536)⟩,
    .fieldBind station ⟨.absent, .absent, .absent, .absent, .value (.drawerState 65536)⟩,
    .fieldBind station ⟨.absent, .absent, .absent, .absent, .value (.rate 65536 0)⟩,
    .fieldBind station ⟨.absent, .absent, .absent, .absent, .value (.rate 0 65536)⟩,
    .fieldBind station ⟨.absent, .absent, .absent, .absent, .value (.quoteLeft 65536)⟩,
    .fieldBind station ⟨.absent, .absent, .absent, .absent, .value (.jobState 65536)⟩,
    .screenActivity station (.value 65536), .screenUnlock station ⟨.value 65536, .absent⟩,
    .screenUnlock station ⟨.absent, .value 65536⟩, .screenSettings station ⟨.value 65536, .absent⟩,
    .screenSettings station ⟨.absent, .value [256]⟩
    ] : List Instr).all (fun i => !i.wellFormed) = true := by decide

/-- Each pacing value, and the events whose operands have a range. -/
theorem test_ill_formed_pacing_and_events :
    let r : PaceReq := ⟨.absent, .absent, .absent, .absent, .absent, .absent, .absent⟩
    ([{ r with column := .value 65536 }, { r with needle := .value 65536 }, { r with feed := .value 65536 },
      { r with pitch := .value 65536 }, { r with margin := .value 65536 }, { r with jam := .value 65536 }] :
        List PaceReq).all (fun r => !(Instr.printerPace station r).wellFormed) = true ∧
    ([.quoteTimeExpiry 65536, .transferTimeout 256, .closed (List.replicate 256 0) 0,
      .stripeReadComplete 0 (some []), .stripeWriteComplete 0 (some [])] : List Instr).all
        (fun i => !i.wellFormed) = true := by decide +kernel

theorem test_ill_formed_unknown_frame : (Instr.unknownFrame (List.replicate 65541 0)).wellFormed = false := by
  simp only [Instr.wellFormed, List.length_replicate]; decide

/-! ### Figures of the manual -/

/-- R193: over the nine characters "1" to "9" the check is 10673. -/
theorem test_check_of_nine_digits : crc16 [49, 50, 51, 52, 53, 54, 55, 56, 57] = 10673 := by decide +kernel

/-- Foreign Cash, worked cases 1 and 2: gross, fee, net, cash and remainder. -/
theorem test_conversion_worked_cases :
    convert 0 .buy 35000 1234567 2 5 ⟨5, 200, 1500⟩ = ⟨0, 35000, 1234567, 43209, 217, 42992, 42990, 2⟩ ∧
    convert 1 .sell 12345 8765 0 5 ⟨10, 250, 5000⟩ = ⟨1, 12345, 8765, 10821, 250, 11071, 11075, 4⟩ := by decide

/-- Teller Screens: 964,520 renders as "     9645.20" at width 12 and as asterisks at width 6 (R145). -/
theorem test_home_total_renders : fitted 12 (.number 2 964520) = codes "     9645.20" ∧
    fitted 6 (.number 2 964520) = codes "******" := by decide

/-- Head-Office Line, worked case: n = 1,000 and m = 70 make 38 blocks (R168). -/
theorem test_block_count : 3 + blocksOf 1000 + blocksOf 70 = 38 := by decide

/-- R160: 29 February is a date of 2000 and 2028 and none of 1900 and 2026. -/
theorem test_leap_days : isDate 20000229 = true ∧ isDate 20280229 = true ∧ isDate 19000229 = false ∧
    isDate 20260229 = false := by decide

/-- R193, R150: ROW is a kind byte 1, a length of 162, the send number, the row and the cells. -/
theorem test_row_frame_form : (rowFrame 57 5 blankRow).unchecked.take 7 = [1, 0, 162, 57, 5, 32, 0] := by decide +kernel

/-- R80, R90: a part that was never formatted finds its store invalid. -/
theorem test_reset_is_store_invalid : State.reset.kept.isSome = true ∧ virginHeader.valid = false := by decide

/-! ### One step -/

theorem test_empty_queue_idles : step State.reset = .next State.reset := rfl

/-- R191, R192: kind 165 over tag 7, the officer flag over a count of three, and a body of the mask alone; an unknown
kind; a count that is not the one posted; a count above 64. -/
theorem test_request_words_are_read :
    readRequest 4 ⟨[42247, 32771, 0], 3⟩ = some (.partStatus ⟨4, 7, true, false⟩) ∧
    readRequest 0 ⟨[7, 3, 0], 3⟩ = none ∧ readRequest 0 ⟨[42247, 4, 0], 3⟩ = none ∧
    readRequest 0 ⟨[42247, 70] ++ List.replicate 62 0, 70⟩ = none := by
  decide

/-- R192, R56: the amount of QUOTE.REQUEST takes three words, the most significant first. -/
theorem test_quote_amount_takes_three_words : readRequest 0 ⟨[12807, 9, 15, 0, 1, 1, 0, 0, 35000], 9⟩ =
    some (.quoteRequest station ⟨.value 0, .value 1, .value .buy, .value 35000⟩) := by decide

/-- R177: a read of the write-only post word returns zero; one of the response-take word with nothing waiting does not. -/
theorem test_write_only_read_is_zero :
    (readAt 64 0 { branch with out := { branch.out with readData := 5 } }).out.readData = 0 ∧
    (readAt 65 0 branch).out.readData = 65535 := by decide

/-- R29, R180: DAY.CLOSE waits behind the drawer operation handed before it, which has its turn. -/
theorem test_later_request_waits : (∀ body, carry officer (.dayClose officer) body behind = behind) ∧
    waitsTurn station (.vaultReceive station ⟨.absent, .absent⟩) behind = false :=
  have turn : waitsTurn officer (.dayClose officer) behind = true := by decide
  have here : behind.port.inExecution.get officer.master = some ⟨.dayClose officer, false⟩ := rfl
  ⟨carry_waits rfl here rfl turn, by decide⟩

/-- R29, R162: DAY.REOPEN waits behind a count that was handed before it. -/
theorem test_reopen_waits_behind_a_count :
    waitsTurn officer (.dayReopen officer)
      (behindOne station (.drawerCount station ⟨.value 0, .value []⟩) 4 (.dayReopen officer) closing) = true := by decide

/-- The acceptance of the offer in its last second has received, and its deliver is asked. -/
def accepting (s : State) : State :=
  { s with
    delivery := some ⟨station, 255, 2, 12, 0, (offerWith 1).tender, 964520, false⟩
    port := { s.port with
      inExecution := s.port.inExecution.set 0 (some ⟨.transferAccept station ⟨.value 255, .absent⟩, false⟩)
      order := [.request 0, .deliver] } }

/-- R67: a second tick waits while an acceptance is in progress, and is taken after its deliver. -/
theorem test_tick_waits_for_the_acceptance :
    let s := accepting (offering (offerWith 900))
    let t := serve (.tick .tru) s
    t.port.order = [.request 0, .deliver, .tick .tru] ∧ t.store.transfers = s.store.transfers ∧
      (deliver t).port.order = [] ∧
      ((deliver t).store.transfers.get 0).map (·.remaining) = some 899 := by decide +kernel

/-- The state after a command. -/
def after (i : Instr) (s : State) : State :=
  match exec i s with
  | .next t => t
  | _ => s

/-- R144, R152: a tick that finds SCREEN.ACTIVITY handed before it waits, and is taken after the restart of the idle count. -/
theorem test_tick_waits_for_screen_activity :
    let i : Instr := .screenActivity station (.value 0)
    let t := serve (.tick .scu) (serving station i (showing { powerUpScreen false with idle := some 1 }))
    t.port.order = [.request 0, .tick .scu] ∧ (t.scu.screens.get 0).idle = some 1 ∧
      (after i t).port.order = [] ∧ ((after i t).scu.screens.get 0).idle = some 299 := by decide +kernel

/-- R153, R154: a lock's end at a sign-off waits behind a request of the Screen Unit. -/
theorem test_unbinding_waits_for_the_screen :
    let s := serving station (.screenActivity station (.value 3)) (showing (powerUpScreen true))
    (bindScreen 0 false s).port.order = [.request 0, .binding 0 false] ∧
      ((takeWaiting { bindScreen 0 false s with
        port := { s.port with order := [.binding 0 false] } }).scu.screens.get 0).lockHeld = false := by decide +kernel

/-- R100: the report of the item printed waits behind CLASS.SET at the Passbook Line Unit. -/
theorem test_head_home_waits_for_the_passbooks :
    let j : Job := { job .printing with
      snapshot := some [.summary ⟨2, 100, ⟨20260417, 2⟩, ⟨20260417, 3⟩⟩], next := some (1, 5), edge := some 0 }
    let s := serving officer (.classSet officer ⟨.absent, .absent, .absent, .absent⟩)
      (printing someAccount j (motion .headReturn))
    (takeEvent (.headHome 0) s).port.order = [.request 4, .event (.headHome 0)] ∧
      (takeEvent (.headHome 0) s).pru.jobs.get 0 = s.pru.jobs.get 0 := by decide +kernel

/-- R15: a station is told the total at its acceptance while the day is OPEN, and not in CLOSING. -/
theorem test_blind_count_hides_the_total :
    (∀ s ∈ [branch, closing], ((deliver (accepting s)).port.windows.get 0).responses.map (fun r => r.fields.map Option.isSome) =
      [[true, true, s.store.day.state == .opened, true]]) := by decide +kernel

/-- R91, R42: only a reversal that is handed over to the Passbook Ledger has its original read at its replay. -/
theorem test_replay_reads_no_exchange_original : ∀ k ∈ [PostKind.exchangeBuy, .deposit],
    failedOriginal (spoiled idleSender) { emptyRecord .reversal with postKind := some k, reverses := some 1 } =
      if k = .deposit then some 1 else none := by decide +kernel

/-- R126: a printed line carries its date, narrative and amount, and no balance-after where it has none. -/
theorem test_printed_line : printedLine { job .printing with
    snapshot := some [.line ⟨⟨20260417, 2⟩, 3, 4500, none, none, false, true⟩], next := some (1, 5) } =
    [⟨1, 5, .line 20260417 3 4500 none⟩] := rfl

/-- No row of the table has bits, so no word spells a command. -/
theorem test_no_word_spells_a_command : decodeTableWord 8 0 = none := rfl

end Sys2Proof.Tests
end

section
/-! SUPPORT. Bindings of drawers and positions: what leaves them as they are, what each command that touches them does,
and that every step keeps both tables in agreement (R13, R14, R25). -/

namespace Sys2Proof.Machine

/-! ### States with the same bindings -/

/-- Drawer table, position table and the store the battery keeps are bound alike in both states. -/
structure SameBindings (s t : State) : Prop where
  bounds : ∀ d, (t.store.drawers.get d).bound = (s.store.drawers.get d).bound
  positions : t.store.positions = s.store.positions
  kept : t.kept = s.kept

theorem SameBindings.refl (s : State) : SameBindings s s := ⟨fun _ => rfl, rfl, rfl⟩

theorem SameBindings.trans {s t u : State} (h : SameBindings s t) (k : SameBindings t u) : SameBindings s u :=
  ⟨fun d => (k.bounds d).trans (h.bounds d), k.positions.trans h.positions, k.kept.trans h.kept⟩

theorem SameBindings.agree {s t : State} (h : SameBindings s t) (a : bindingsAgree s.store) :
    bindingsAgree t.store := by
  simpa only [bindingsAgree, h.bounds, h.positions] using a

theorem SameBindings.bindInv {s t : State} (h : SameBindings s t) (a : BindInv s) : BindInv t :=
  ⟨h.agree a.1, h.kept ▸ a.2⟩

/-- A frame that leaves the bindings out keeps them. -/
theorem UnchangedBut.sameBindings {L : List Part} {s t : State} (h : UnchangedBut L s t)
    (hL : ∀ p ∈ [Part.bounds, .positions, .kept], p ∉ L) : SameBindings s t :=
  ⟨h.get .bounds (hL _ (by simp)), h.get .positions (hL _ (by simp)), h.get .kept (hL _ (by simp))⟩

/-- A command whose frame leaves the bindings out keeps their agreement. -/
theorem UnchangedBut.bindInv {L : List Part} {s t : State} (h : UnchangedBut L s t)
    (hL : ∀ p ∈ [Part.bounds, .positions, .kept], p ∉ L) (a : BindInv s) : BindInv t :=
  (h.sameBindings hL).bindInv a

/-! ### Requests that touch bindings -/

/-- A judged request leaves the state as it is, or is taken with every check passed. -/
theorem judge_cases (l : List Check) (s : State) (v : Verdict) :
    (judge l s v).state = s ∨ judge l s v = v ∧ ∀ c ∈ l, c.pass = true := by
  cases h : firstFailure l with
  | some c => rw [judge_refused h]; exact .inl rfl
  | none => exact .inr ⟨judge_taken s v h, firstFailure_eq_none.mp h⟩

/-- The port's own answer changes nothing (R179). -/
theorem invalidVerdict_state (h : ReqHead) (i : Instr) (s : State) : (invalidVerdict h i s).state = s :=
  (judge_state _ s _).elim id id

/-- What a request's own part keeps of the bindings, the whole request keeps. -/
theorem carry_bindInv (h : ReqHead) (i : Instr) {body : State → Verdict} {s : State} (a : BindInv s)
    (hb : ∀ u, BindInv u → BindInv (body u).state) : BindInv (carry h i body s) := by
  have settled (v : Verdict) : BindInv v.state → BindInv (settle h i v) := (settle_frame h i v).bindInv (by decide)
  unfold carry
  split
  · exact a
  · rename_i t e
    have ht : BindInv t := (handed_frame e).bindInv (by decide) a
    have hr : BindInv (restartNamed i t) := (restartNamed_frame i t).bindInv (by decide) ht
    dsimp only
    split
    · exact settled _ (by rw [invalidVerdict_state]; exact hr)
    · split
      · exact ht
      · split
        · exact (takeFrom_frame _ _ _).bindInv (by decide) (settled _ (hb _ hr))
        · exact settled _ (hb _ hr)

/-- A judged request keeps the bindings where it does so with its checks passed. -/
theorem judge_bindInv {l : List Check} {s : State} {v : Verdict} (a : BindInv s)
    (hv : (∀ c ∈ l, c.pass = true) → BindInv v.state) : BindInv (judge l s v).state := by
  rcases judge_cases l s v with e | ⟨e, passed⟩ <;> rw [e]
  · exact a
  · exact hv passed

theorem bindDrawer_agree {s : State} {p : Position} {teller : Nat} {d : DrawerNo} (a : bindingsAgree s.store)
    (hp : boundDrawer s p = none) (hd : boundPosition s d = none) :
    bindingsAgree (bindDrawer p teller d s).store := by
  obtain ⟨both, signed⟩ := a
  simp only [boundDrawer, boundPosition] at hp hd
  refine ⟨fun q e => ?_, fun q => ?_⟩
  · have unbound := both q d
    have free := both p e
    have other := both q e
    simp only [bindDrawer, modifyPosition_store_positions, modifyPosition_store_drawers,
      modifyDrawer_store_positions, modifyDrawer_store_drawers, Table.get_modify]
    split <;> split <;> grind
  · simp only [bindDrawer, modifyPosition_store_positions, modifyDrawer_store_positions, Table.get_modify]
    split
    · rfl
    · exact signed q

theorem drawerSignon_bindInv (h : ReqHead) (r : SignonReq) {s : State} (a : BindInv s) :
    BindInv (judge (drawerSignonChecks h r s) s (drawerSignonTaken h r s)).state := by
  refine judge_bindInv a fun passed => ?_
  have free : positionFree s (positionOf r.position) = true := passed ⟨positionFree s _, .wrongState, []⟩ (by simp [drawerSignonChecks])
  have unbound : (boundPosition s (drawerOf r.drawer)).isNone = true :=
    passed ⟨(boundPosition s _).isNone, .wrongState, []⟩ (by simp [drawerSignonChecks])
  simp only [positionFree, Bool.and_eq_true, Option.isNone_iff_eq_none] at free unbound
  have bound : BindInv (bindDrawer (positionOf r.position) r.teller.nat (drawerOf r.drawer) s) :=
    ⟨bindDrawer_agree a.1 free.2 unbound, a.2⟩
  have rest (l : List Report) (p : Position) (d : DrawerNo) (u : State) :
      UnchangedBut [.buffers, .screens, .inExecution, .locks, .idles, .windows, .turns] u
        (askReraise d (bindScreen p true (report l u))) :=
    askReraise_unchanged _ (by simp) (bindScreen_unchanged _ _ (by simp) (by simp))
  exact (rest _ _ _ _).bindInv (by decide) bound

theorem unbind_agree {s : State} (p : Position) (a : bindingsAgree s.store) : bindingsAgree (unbind p s).store := by
  obtain ⟨both, signed⟩ := a
  refine ⟨fun q e => ?_, fun q => ?_⟩
  · have other := both q e
    have own := both p
    simp only [unbind, boundDrawer]
    cases hd : (s.store.positions.get p).drawer with
    | none =>
      simp only [modifyPosition_store_positions, modifyPosition_store_drawers, Table.get_modify]
      split <;> grind
    | some d =>
      have bound := both q d
      simp only [modifyPosition_store_positions, modifyPosition_store_drawers, modifyDrawer_store_positions,
        modifyDrawer_store_drawers, Table.get_modify]
      split <;> split <;> grind
  · have positions : (unbind p s).store.positions =
        s.store.positions.modify p fun e => { e with drawer := none, teller := none } := by
      unfold unbind; dsimp only; split <;> rfl
    rw [positions, Table.get_modify]
    split
    · rfl
    · exact signed q

theorem drawerSignoff_bindInv (h : ReqHead) (x : Fld Nat) {s : State} (a : BindInv s) :
    BindInv (judge (drawerSignoffChecks h x s) s (drawerSignoffTaken x s)).state := by
  refine judge_bindInv a fun _ => ?_
  have kept (p : Position) : (unbind p s).kept = s.kept := by unfold unbind; dsimp only; split <;> rfl
  have bound (p : Position) : BindInv (unbind p s) := ⟨unbind_agree p a.1, by rw [kept]; exact a.2⟩
  have rest (l : List Report) (p q : Position) (u : State) :
      UnchangedBut [.exu, .buffers, .screens, .inExecution, .locks, .idles, .turns] u
        (bindScreen p false (report l (expireSignoff q u))) :=
    bindScreen_unchanged _ _ (by simp) (report_unchanged _ (by simp) (by simp))
  exact (rest _ _ _ _).bindInv (by decide) (bound _)

/-- Tables without any binding agree. -/
theorem bindingsAgree_of_none {x : Store} (hp : ∀ p, (x.positions.get p).drawer = none ∧ (x.positions.get p).teller = none)
    (hd : ∀ d, (x.drawers.get d).bound = none) : bindingsAgree x :=
  ⟨fun p d => by simp [hp, hd], fun p => by simp [hp]⟩

theorem clearBindings_agree (s : State) : bindingsAgree (clearBindings s).store :=
  bindingsAgree_of_none (by simp) (by simp)

theorem dayClear_bindInv (h : ReqHead) {s : State} (a : BindInv s) :
    BindInv (judge (dayClearChecks h s) s (dayClearTaken s)).state := by
  refine judge_bindInv a fun _ => ?_
  have cleared : BindInv { clearDay s with
      sender := { (clearDay s).sender with state := .idle }
      pru := { (clearDay s).pru with sealAnswered := false } } := ⟨clearBindings_agree s, a.2⟩
  have rest (l : List Report) (ps : List Position) (x : DayState) (u : State) :
      UnchangedBut [.windows, .buffers, .screens, .inExecution, .locks, .idles, .turns] u
        (dayChanged x (ps.foldl (fun t p => bindScreen p false t) (report l u))) :=
    dayChanged_unchanged _ (by simp) (.trans (by simp) (.foldl (fun t p => by simp) _ _))
  exact (rest _ _ _ _).bindInv (by decide) cleared

theorem positionBind_bindInv (h : ReqHead) (r : PositionReq) {s : State} (a : BindInv s) :
    BindInv (judge (positionBindChecks h r s) s (positionBindTaken r s)).state := by
  refine judge_bindInv a fun _ => ⟨⟨fun q e => ?_, fun q => ?_⟩, a.2⟩ <;>
    simp only [positionBindTaken, take_state, modifyPosition_store_positions, modifyPosition_store_drawers, Table.get_modify]
  · split
    · rename_i hq; subst hq; exact a.1.1 _ e
    · exact a.1.1 q e
  · split
    · rename_i hq; subst hq; exact a.1.2 _
    · exact a.1.2 q

/-! ### Format and power-up -/

theorem formatStore_agree (x : Header) : bindingsAgree (formatStore x) :=
  bindingsAgree_of_none (by simp [formatStore]) (by simp [formatStore, formatDrawer])

theorem storeFormat_bindInv (h : ReqHead) {s : State} (a : BindInv s) :
    BindInv (judge (storeFormatChecks h s) s (storeFormatTaken s)).state := by
  refine judge_bindInv a fun _ => ?_
  have formatted (u : State) : BindInv (formatUnits u) :=
    ⟨formatStore_agree _, fun x e => nomatch (show none = some x from e)⟩
  have screens (u : State) : SameBindings u (formatScu u) := ⟨fun _ => rfl, rfl, rfl⟩
  have notice (u v : State) : UnchangedBut [.windows, .buffers, .screens, .inExecution] v (formatNotice u v) :=
    .ite _ (.refl _ _) (dayChanged_frame _ _)
  exact ((screens _).trans ((notice _ _).sameBindings (by decide))).bindInv (formatted _)

/-- What the replay of a record can touch (R91). -/
def replayTouches : List Part :=
  [.journal, .day, .drawers, .accounts, .lastTaken, .windows, .board, .counted, .buffers, .screens, .inExecution]

theorem atParty_frame {L : List Part} (n : Option DrawerNo) (r : Record) {f : DrawerNo → State → State}
    (hf : ∀ d u, UnchangedBut L u (f d u)) (s : State) : UnchangedBut L s (atParty n r f s) := by
  unfold atParty
  split
  · exact .ite _ (hf _ s) (.refl _ s)
  · exact .refl _ s

theorem replayLine_frame (r : Record) (s : State) :
    UnchangedBut [.accounts, .windows, .lastTaken] s (replayLine r s).1 := by
  unfold replayLine
  split
  · exact handReversalLine_frame _ _ s
  · exact handLine_frame r s

theorem replayClose_frame (r : Record) (n : DrawerNo) (s : State) : UnchangedBut replayTouches s (replayClose r n s) :=
  modifyDrawer_unchanged n _ (fun _ => rfl) (by decide) (.refl _ s)

theorem replayParts_frame (r : Record) (s : State) : UnchangedBut replayTouches s (replayParts r s).1 := by
  have cash (u : State) : UnchangedBut replayTouches u (atDrawer r (fun n u =>
      cashChange n (entryDeltas r.tender) r.sequence (remainderOf r) u) u) :=
    atParty_frame _ r (fun d u => (cashChange_frame d _ _ _ u).mono (by decide)) u
  unfold replayParts
  split
  · exact (cash s).trans ((replayLine_frame r _).mono (by decide))
  · exact (cash s).trans ((replayLine_frame r _).mono (by decide))
  · exact atParty_frame _ r (fun d u => (reserveCash_frame d _ _ u).mono (by decide)) s
  · exact (atParty_frame _ r (fun d u => (receiveCash_frame d _ _ u).mono (by decide)) s).trans
      (atParty_frame _ r (fun d u => (deliverCash_frame d _ _ u).mono (by decide)) _)
  · exact atParty_frame _ r (fun d u => (returnCash_frame d _ _ u).mono (by decide)) s
  · exact cash s
  · exact cash s
  · exact cash s
  · exact atParty_frame _ r (fun d u => replayClose_frame r d u) s
  · unfold replayBoard
    split
    · exact .ite _ ((modifyBoard_frame _ s).mono (by decide)) (.refl _ s)
    · exact .refl _ s
  · exact (openDrawers_frame _ s).mono (by decide)
  all_goals exact .refl _ s

theorem replayList_sameBindings (l : List Nat) : ∀ s, SameBindings s (replayList l s).1 := by
  induction l with
  | nil => exact SameBindings.refl
  | cons q rest ih =>
    intro s
    unfold replayList
    split
    · rename_i r _
      have one : UnchangedBut replayTouches s (replayRecord r s) :=
        setApplied_unchanged _ _ (by decide) (replayParts_frame r s)
      exact (one.sameBindings (by decide)).trans (ih _)
    · exact (storeCheckFault_frame _ s).sameBindings (by decide)

theorem noteReplay_frame (l : List Nat) (s : State) : UnchangedBut [.jsu, .windows, .fault] s (noteReplay l s) := by
  unfold noteReplay
  split
  · exact setCause_unchanged _ (by decide) (.refl _ s)
  · exact captureFault_unchanged _ _ _ (by decide) (setCause_unchanged _ (by decide) (.refl _ s))

theorem finishRestore_sameBindings (l : List Nat) (s : State) : SameBindings s (finishRestore l s) := by
  have settled (u : State) : SameBindings u (restoreTransfers (settleReserved u)) :=
    ⟨fun d => by simp [restoreTransfers, settleReserved], rfl, rfl⟩
  have marks (u : State) : UnchangedBut [.drawers, .windows, .buffers, .screens, .inExecution] u (recomputeMarks u) :=
    .foldl (fun u n => evaluateExcess_frame n u) _ u
  have sending (u : State) : UnchangedBut [.day] u (endSending u) := .ite _ (setDayState_frame _ u) (.refl _ u)
  have screens (u : State) : SameBindings u (powerUpScu (powerUpPrinters false u)) := ⟨fun _ => rfl, rfl, rfl⟩
  have accounts (u : State) : SameBindings u (powerUpPlu u) := ⟨fun _ => rfl, rfl, rfl⟩
  have noted := (noteReplay_frame l s).sameBindings (by decide)
  have marked (u : State) := ((marks u).sameBindings (by decide)).trans ((sending _).sameBindings (by decide))
  exact noted.trans ((settled _).trans ((accounts _).trans ((marked _).trans (screens _))))

/-- A restore from a store whose bindings agree leaves them agreeing, in the store it keeps as well. -/
theorem restore_bindInv {s : State} (a : BindInv s) : BindInv (restore s) := by
  have invalid (u : State) (h : bindingsAgree u.store) : BindInv (enterInvalid u) :=
    ⟨formatStore_agree _, fun x e => by cases e; exact h⟩
  unfold restore
  split
  · have replayed := replayList_sameBindings s.store.day.openCommits s
    dsimp only
    split <;> rename_i e <;> rw [e] at replayed
    · exact (finishRestore_sameBindings _ _).bindInv (replayed.bindInv a)
    · exact invalid _ (replayed.agree a.1)
  · exact invalid s a.1

theorem powerUp_bindInv (battery : Bool) {s : State} (a : BindInv s) : BindInv (powerUp battery s) := by
  have opened : BindInv (openStore { loseVolatile s with power := .up }) := by
    refine ⟨?_, fun x e => nomatch (show none = some x from e)⟩
    show bindingsAgree (s.kept.getD s.store)
    cases k : s.kept with
    | none => exact a.1
    | some x => exact a.2 x k
  have clock (u : State) (h : BindInv u) : BindInv (findClock u) := by
    unfold findClock
    split
    · exact h
    · exact (captureFault_frame _ _ _ _).bindInv (by decide) h
  refine restore_bindInv (clock _ ?_)
  split
  · exact opened
  · exact opened

/-! ### Every command -/

/-- Each command keeps the bindings' agreement: sign-on, sign-off, DAY.CLEAR, POSITION.BIND, STORE.FORMAT and the restore,
which touch the bindings, by their own laws, and every other command because its frame leaves the bindings out. -/
theorem exec_bindInv (i : Instr) {s t : State} (e : exec i s = .next t) (a : BindInv s) : BindInv t := by
  cases i with
  | currencyDefine h r => exact (execCurrencyDefine_frame h r e).bindInv (by decide) a
  | drawerSignon h r => cases e; exact carry_bindInv h _ a fun _ => drawerSignon_bindInv h r
  | drawerSignoff h position => cases e; exact carry_bindInv h _ a fun _ => drawerSignoff_bindInv h position
  | drawerLimits h r => exact (execDrawerLimits_frame h r e).bindInv (by decide) a
  | drawerCount h r => exact (execDrawerCount_frame h r e).bindInv (by decide) a
  | drawerAccept h drawer => exact (execDrawerAccept_frame h drawer e).bindInv (by decide) a
  | drawerEnquire h drawer => exact (execDrawerEnquire_frame h drawer e).bindInv (by decide) a
  | cashPost h r => exact (execCashPost_frame h r e).bindInv (by decide) a
  | cashReverse h r => exact (execCashReverse_frame h r e).bindInv (by decide) a
  | rateSet h r => exact (execRateSet_frame h r e).bindInv (by decide) a
  | feeSet h r => exact (execFeeSet_frame h r e).bindInv (by decide) a
  | quoteRequest h r => exact (execQuoteRequest_frame h r e).bindInv (by decide) a
  | quoteRelease h r => exact (execQuoteRelease_frame h r e).bindInv (by decide) a
  | transferOffer h r => exact (execTransferOffer_frame h r e).bindInv (by decide) a
  | transferAccept h r => exact (execTransferAccept_frame h r e).bindInv (by decide) a
  | transferDecline h number => exact (execTransferDecline_frame h number e).bindInv (by decide) a
  | vaultReceive h r => exact (execVaultReceive_frame h r e).bindInv (by decide) a
  | vaultDispatch h r => exact (execVaultDispatch_frame h r e).bindInv (by decide) a
  | journalRead h r => exact (execJournalRead_frame h r e).bindInv (by decide) a
  | storeFormat h => cases e; exact carry_bindInv h _ a fun _ => storeFormat_bindInv h
  | classSet h r => exact (execClassSet_frame h r e).bindInv (by decide) a
  | passbookEnquire h r => exact (execPassbookEnquire_frame h r e).bindInv (by decide) a
  | passbookNewbook h r => exact (execPassbookNewbook_frame h r e).bindInv (by decide) a
  | printStart h r => exact (execPrintStart_frame h r e).bindInv (by decide) a
  | printCancel h r => exact (execPrintCancel_frame h r e).bindInv (by decide) a
  | printerPace h r => exact (execPrinterPace_frame h r e).bindInv (by decide) a
  | printerReset h printer => exact (execPrinterReset_frame h printer e).bindInv (by decide) a
  | rowClaim h => exact (execRowClaim_frame h e).bindInv (by decide) a
  | rowFree h buffer => exact (execRowFree_frame h buffer e).bindInv (by decide) a
  | rowWrite h r => exact (execRowWrite_frame h r e).bindInv (by decide) a
  | mapSet h r => exact (execMapSet_frame h r e).bindInv (by decide) a
  | fieldBind h r => exact (execFieldBind_frame h r e).bindInv (by decide) a
  | screenActivity h position => exact (execScreenActivity_frame h position e).bindInv (by decide) a
  | screenUnlock h r => exact (execScreenUnlock_frame h r e).bindInv (by decide) a
  | screenSettings h r => exact (execScreenSettings_frame h r e).bindInv (by decide) a
  | dayOpen h date => exact (execDayOpen_frame h date e).bindInv (by decide) a
  | dayClose h => exact (execDayClose_frame h e).bindInv (by decide) a
  | dayReopen h => exact (execDayReopen_frame h e).bindInv (by decide) a
  | daySeal h => exact (execDaySeal_frame h e).bindInv (by decide) a
  | daySend h => exact (execDaySend_frame h e).bindInv (by decide) a
  | dayClear h => cases e; exact carry_bindInv h _ a fun _ => dayClear_bindInv h
  | lineSettings h r => exact (execLineSettings_frame h r e).bindInv (by decide) a
  | positionBind h r => cases e; exact carry_bindInv h _ a fun _ => positionBind_bindInv h r
  | portSettings h burst => exact (execPortSettings_frame h burst e).bindInv (by decide) a
  | faultRead h => exact (execFaultRead_frame h e).bindInv (by decide) a
  | faultClear h => exact (execFaultClear_frame h e).bindInv (by decide) a
  | clockSet h r => exact (execClockSet_frame h r e).bindInv (by decide) a
  | partStatus h => exact (execPartStatus_frame h e).bindInv (by decide) a
  | postAreaWrite m offset w => exact (execPostAreaWrite_frame m offset w e).bindInv (by decide) a
  | postWord m w => exact (execPostWord_frame m w e).bindInv (by decide) a
  | responseTake r => exact (execResponseTake_frame r e).bindInv (by decide) a
  | portStatusRead m => exact (execPortStatusRead_frame m e).bindInv (by decide) a
  | noticeTake m => exact (execNoticeTake_frame m e).bindInv (by decide) a
  | noticeEnd m => exact (execNoticeEnd_frame m e).bindInv (by decide) a
  | requestHandout => exact (execRequestHandout_frame e).bindInv (by decide) a
  | powerWarning => exact (execPowerWarning_frame e).bindInv (by decide) a
  | powerWarningWithdrawn =>
    cases e
    by_cases h : s.power = .shut
    · simpa [h] using powerUp_bindInv true a
    · simpa [h] using a
  | powerUp battery => cases e; exact powerUp_bindInv battery a
  | backplaneReset => exact (execBackplaneReset_frame e).bindInv (by decide) a
  | secondTick => exact (execSecondTick_frame e).bindInv (by decide) a
  | quoteTimeExpiry number => exact (execQuoteTimeExpiry_frame number e).bindInv (by decide) a
  | transferTimeout number => exact (execTransferTimeout_frame number e).bindInv (by decide) a
  | idleCountExpiry position => exact (execIdleCountExpiry_frame position e).bindInv (by decide) a
  | rowSend screen => exact (execRowSend_frame screen e).bindInv (by decide) a
  | callWaitExpiry => exact (execCallWaitExpiry_frame e).bindInv (by decide) a
  | responseTimerExpiry => exact (execResponseTimerExpiry_frame e).bindInv (by decide) a
  | endTimerExpiry => exact (execEndTimerExpiry_frame e).bindInv (by decide) a
  | blockAgeTimeout => exact (execBlockAgeTimeout_frame e).bindInv (by decide) a
  | deliver => exact (execDeliver_frame e).bindInv (by decide) a
  | mainSupplyFall => exact (execMainSupplyFall_frame e).bindInv (by decide) a
  | ackTimerExpiry | probeTimerExpiry | rowAck | probeAnswer | ready | busy | ack | nak | closed
  | unknownFrame | bookPresent | bookRemoved | topEdge | stepLimit | stripeReadComplete | stripeWriteComplete
  | lineDone | headHome | ejectDone | jamTimerExpiry =>
    cases e; exact (serve_frame _ s).bindInv (by decide) a

end Sys2Proof.Machine

open Sys2Proof Sys2Proof.Machine

/-- Settles O7, by the case split over the commands in `exec_bindInv`. -/
theorem bindingsAreKept : Obligations.BindingsAreKept := by
  unfold Obligations.BindingsAreKept
  intro s t a e
  unfold step at e
  split at e
  · cases e; exact a
  · exact exec_bindInv _ e a
end

section
/-! SUPPORT. What a request in service comes to where its checks pass (R179 to R182), the notices raised on the way
(R185), and the checks that several requests share. -/

namespace Sys2Proof.Table

@[simp] theorem set_get_self {α : Type} {n : Nat} (t : Table α n) (i : Fin n) : t.set i (t.get i) = t :=
  ext_get fun j => by rw [get_set]; split <;> simp_all

@[simp] theorem set_set {α : Type} {n : Nat} (t : Table α n) (i : Fin n) (a b : α) :
    (t.set i a).set i b = t.set i b :=
  ext_get fun j => by simp only [get_set]; split <;> rfl

theorem modify_eq_self {α : Type} {n : Nat} {t : Table α n} {i : Fin n} {f : α → α} (h : f (t.get i) = t.get i) :
    t.modify i f = t := by simp [modify, h]

theorem modify_eq_set {α : Type} {n : Nat} (t : Table α n) (i : Fin n) (f : α → α) :
    t.modify i f = t.set i (f (t.get i)) := rfl

end Sys2Proof.Table

namespace Sys2Proof.Machine

/-! ### Notices while the part is up -/

/-- The state with the notices listed raised, oldest first. -/
def notified (l : List (Master × Detail)) (s : State) : State :=
  { s with port := { s.port with windows := notify l s.port.windows } }

section
variable (l : List (Master × Detail)) (s : State)
@[simp] theorem notified_power : (notified l s).power = s.power := rfl
@[simp] theorem notified_store : (notified l s).store = s.store := rfl
@[simp] theorem notified_scu : (notified l s).scu = s.scu := rfl
@[simp] theorem notified_exu : (notified l s).exu = s.exu := rfl
@[simp] theorem notified_pru : (notified l s).pru = s.pru := rfl
@[simp] theorem notified_jsu : (notified l s).jsu = s.jsu := rfl
@[simp] theorem notified_clock : (notified l s).clock = s.clock := rfl
@[simp] theorem notified_counted : (notified l s).counted = s.counted := rfl
@[simp] theorem notified_sender : (notified l s).sender = s.sender := rfl
@[simp] theorem notified_out : (notified l s).out = s.out := rfl
@[simp] theorem notified_windows : (notified l s).port.windows = notify l s.port.windows := rfl
@[simp] theorem notified_nil : notified [] s = s := rfl
end

theorem notified_notified (l k : List (Master × Detail)) (s : State) :
    notified k (notified l s) = notified (l ++ k) s := by simp [notified, notify_append]

/-- In a part that is up a notice is raised (R190). -/
theorem raiseTo_up (m : Master) (d : Detail) {s : State} (up : s.power = .up) : raiseTo m d s = notified [(m, d)] s := by
  simp [raiseTo, up, notified, modifyWindow]

theorem raiseOfficer_up (d : Detail) {s : State} (up : s.power = .up) :
    raiseOfficer d s = notified [(officerMaster, d)] s := raiseTo_up _ d up

theorem raiseAt_up (p : Position) (d : Detail) {s : State} (up : s.power = .up) :
    raiseAt p d s = notified [(servingMaster s p, d)] s := raiseTo_up _ d up

/-- Everything a notice changes is the windows. -/
theorem raiseTo_cases (m : Master) (d : Detail) (s : State) : raiseTo m d s = s ∨ raiseTo m d s = notified [(m, d)] s := by
  by_cases up : s.power = .up
  · exact .inr (raiseTo_up m d up)
  · exact .inl (by simp [raiseTo, up])

@[simp] theorem raiseTo_store (m : Master) (d : Detail) (s : State) : (raiseTo m d s).store = s.store := by
  rcases raiseTo_cases m d s with h | h <;> simp [h]
@[simp] theorem raiseTo_scu (m : Master) (d : Detail) (s : State) : (raiseTo m d s).scu = s.scu := by
  rcases raiseTo_cases m d s with h | h <;> simp [h]
@[simp] theorem raiseTo_power (m : Master) (d : Detail) (s : State) : (raiseTo m d s).power = s.power := by
  rcases raiseTo_cases m d s with h | h <;> simp [h]

/-! ### Renderings in a row -/

theorem Rendered.of_eq {u v : Scu} (h : v = u) : Rendered u v := h ▸ .refl _

/-- A report on top of a rendering renders. -/
theorem Rendered.report {u : Scu} {s : State} (h : Rendered u s.scu) (rs : List Report) :
    Rendered u (report rs s).scu := h.trans (report_rendered rs s)

/-! ### Requests in service whose checks pass -/

/-- A request in service whose checks pass is taken and answered, on the state with the idle count restarted. -/
theorem carry_taken {h : ReqHead} {i : Instr} {s : State} (e : InService h i s) (checks : State → List Check)
    (taken : State → Verdict) (passed : ∀ c ∈ checks (restartNamed i s), c.pass = true) :
    carry h i (fun s => judge (checks s) s (taken s)) s = settle h i (taken (restartNamed i s)) := by
  rw [carry_inService e, judge_taken _ _ (firstFailure_eq_none.mpr passed)]

/-- The command of a request that is judged by checks, where they pass and it is answered at once: its unit's part, and
the response. -/
theorem exec_taken {h : ReqHead} {i : Instr} {s s1 : State} (e : InService h i s) {checks : State → List Check}
    {taken : State → Verdict} (x : exec i s = .next (carry h i (fun s => judge (checks s) s (taken s)) s))
    (restarted : restartNamed i s = s1) (passed : ∀ c ∈ checks s1, c.pass = true) {v : Verdict} (hv : taken s1 = v)
    (now : v.answered = true) :
    exec i s = .next (respond h ((requestKind i).getD 0) v.code v.masked v.fields v.state) := by
  subst restarted
  rw [x, carry_taken e checks taken passed, hv, settle, if_pos now]

/-- A request in service that a check refuses changes nothing but the idle count it restarts, and is answered so. -/
theorem carry_refused {h : ReqHead} {i : Instr} {s : State} (e : InService h i s) (checks : State → List Check)
    (taken : State → Verdict) {c : Check} (failed : firstFailure (checks (restartNamed i s)) = some c) :
    carry h i (fun s => judge (checks s) s (taken s)) s =
      respond h ((requestKind i).getD 0) c.code false c.detail (restartNamed i s) := by
  rw [carry_inService e, judge_refused failed]; rfl

/-- While a request of another unit is in service nothing stands at the Screen Unit. -/
theorem InService.screenFree {h : ReqHead} {i : Instr} {s : State} (e : InService h i s) (hu : unitOf i ≠ .scu) :
    NoneStandsAt s .scu := by
  intro x hx
  by_cases own : x = .request h.master
  · subst own; simpa [standsAt, e.here] using hu
  · exact e.screens x hx own

/-- The answer to a request in service after a part of it that left every turn: of the windows nothing has changed but the
notices raised and the response (R181). -/
theorem answered_of_frame {L : List Part} {h : ReqHead} {i : Instr} {s u : State} (e : InService h i s)
    (f : UnchangedBut L s u) (hu : unitOf i ≠ .scu) (hL : Part.turns ∉ L) {l : List (Master × Detail)}
    (w : u.port.windows = notify l s.port.windows) (k : Nat) (c : Code) (b : Bool) (fields : List (Option (List Item))) :
    Answered h k c b fields l s (respond h k c b fields u) := by
  obtain ⟨inExecution, -, order⟩ := f.get .turns hL
  have order : u.port.order = s.port.order := order (e.screenFree hu)
  have here : u.port.inExecution.get h.master = some ⟨i, false⟩ := inExecution ▸ e.here
  exact ⟨by rw [respond_windows h k c b fields here, w], by rw [respond_port_inExecution, inExecution],
    by rw [respond_port_order, order]⟩

/-- The frame of a request's own part and its answer. -/
theorem respond_unchangedBut {L M : List Part} {s u : State} (f : UnchangedBut L s u) (h : ReqHead) (k : Nat) (c : Code)
    (b : Bool) (fields : List (Option (List Item))) (hL : ∀ p ∈ L, p ∈ M)
    (hM : ∀ p ∈ [Part.windows, .responses, .inExecution, .turns], p ∈ M) :
    UnchangedBut M s (respond h k c b fields u) := respond_unchanged h k c b fields hM (f.mono hL)

/-! ### Numbers that name positions and drawers -/

@[simp] theorem positionOf_val (p : Position) : positionOf (.value p.val) = p := by
  simp [positionOf, Fld.nat, Fld.getD]

@[simp] theorem drawerOf_val (n : DrawerNo) : drawerOf (.value n.val) = n := by
  simp [drawerOf, Fld.nat, Fld.getD]

@[simp] theorem drawerOf_teller (n : Fin 12) : drawerOf (.value n.val) = n.castSucc := drawerOf_val n.castSucc

/-- A field that holds a number of the range lies in it. -/
@[simp] theorem inRange_val {n : Nat} (k : Fin (n + 1)) : inRange 0 n (.value k.val) = true := by
  simp [inRange, Fld.required, between]; omega

theorem inRange_value (lo hi n : Nat) : inRange lo hi (.value n) = true ↔ lo ≤ n ∧ n ≤ hi := by
  simp [inRange, Fld.required, between]

/-! ### Authority checks that pass (R179, R183) -/

theorem officerOnly_pass {h : ReqHead} (a : FromOfficer h) : ∀ c ∈ officerOnly h, c.pass = true := by
  simp [officerOnly, isOfficer, a.1]

theorem flagAllowed_eq {h : ReqHead} (a : h.officer = true → h.master = officerMaster) : flagAllowed h = true := by
  cases o : h.officer <;> simp_all [flagAllowed, isOfficer]

theorem anyMaster_pass {h : ReqHead} (a : FromAny h) : ∀ c ∈ anyMaster h, c.pass = true := by
  simp [anyMaster, flagAllowed_eq a.2]

theorem serves_eq {h : ReqHead} {s : State} {p : Position} (a : MayActFor h s p) : serves h s p = true := by
  obtain ⟨-, -, officer | serving⟩ := a
  · simp [serves, isOfficer, officer]
  · simp [serves, servingMaster, Fin.ext_iff, serving]

theorem forPosition_pass {h : ReqHead} {s : State} {p : Position} (a : MayActFor h s p) :
    ∀ c ∈ forPosition h s p, c.pass = true := by
  simp [forPosition, flagAllowed_eq a.2.1, serves_eq a]

theorem positionChecks_pass {h : ReqHead} {s : State} {p : Position} (a : MayActFor h s p) :
    ∀ c ∈ positionChecks h s (.value p.val), c.pass = true := by
  have := forPosition_pass a
  simpa [positionChecks] using this

theorem forDrawer_pass {h : ReqHead} {s : State} {n : DrawerNo} (a : MayActForDrawer h s n) :
    ∀ c ∈ forDrawer h s n, c.pass = true := by
  obtain ⟨-, flag, may⟩ := a
  have flag := flagAllowed_eq flag
  unfold forDrawer
  cases b : (s.store.drawers.get n).bound with
  | none => simp_all [isOfficer]
  | some p => simp_all [serves, isOfficer]

end Sys2Proof.Machine
end

section
/-! SUPPORT. What a change of a drawer's counts or limits leaves: the excess mark, the alerts and the rendering (R4, R7,
R8, R20). -/

namespace Sys2Proof.Machine

/-- A value of counts depends on the currency table alone. -/
theorem valueOf_congr {s t : State} (h : t.store.currencies = s.store.currencies) (c : Currency) (k : Counts) :
    valueOf t c k = valueOf s c k := by simp [valueOf, faceOf, h]

theorem homeTotal_congr {s t : State} (h : t.store.currencies = s.store.currencies) (d : Drawer) :
    homeTotal t d = homeTotal s d := valueOf_congr h 0 d.current

@[simp] theorem homeTotal_modifyDrawer (n : DrawerNo) (f : Drawer → Drawer) (s : State) (d : Drawer) :
    homeTotal (modifyDrawer n f s) d = homeTotal s d := homeTotal_congr rfl d

/-! ### Alerts (R7, R15) -/

/-- Where a state stands with its drawers' bindings, positions and blind counts, alerts go and tell alike. -/
theorem alertNotices_congr {s t : State} {n : DrawerNo}
    (hb : (t.store.drawers.get n).bound = (s.store.drawers.get n).bound)
    (hs : (t.store.drawers.get n).state = (s.store.drawers.get n).state) (hd : t.store.day.state = s.store.day.state)
    (hp : t.store.positions = s.store.positions) (e : AlertEvent) (total : Nat) :
    alertNotices t n e total = alertNotices s n e total := by
  simp [alertNotices, servingMaster, blind, hb, hs, hd, hp]

/-- A change of a drawer's record leaves what R7 and R8 judge its home total by, its binding and its state. -/
structure LimitsStand (d e : Drawer) : Prop where
  bound : e.bound = d.bound
  state : e.state = d.state
  soft : e.soft = d.soft
  hard : e.hard = d.hard
  excess : e.excess = d.excess

theorem alertNotices_modifyDrawer {n : DrawerNo} {f : Drawer → Drawer} {s : State}
    (hb : (f (s.store.drawers.get n)).bound = (s.store.drawers.get n).bound)
    (hs : (f (s.store.drawers.get n)).state = (s.store.drawers.get n).state) (e : AlertEvent) (total : Nat) :
    alertNotices (modifyDrawer n f s) n e total = alertNotices s n e total := by
  refine alertNotices_congr ?_ ?_ ?_ ?_ e total <;> simp [hb, hs]

theorem servingMaster_ne_officer (s : State) (p : Position) : servingMaster s p ≠ officerMaster :=
  Fin.ne_of_lt (show (s.store.positions.get p).serving.val < 4 by omega)

/-- The officer is told the total, and the serving master of the bound position unless the count is blind (R15). -/
theorem raiseAlert_up (n : DrawerNo) (e : AlertEvent) {s : State} (up : s.power = .up) :
    raiseAlert n e s = notified (alertNotices s n e (homeTotal s (s.store.drawers.get n))) s := by
  have station (p : Position) := servingMaster_ne_officer s p
  unfold raiseAlert alertNotices
  cases b : (s.store.drawers.get n).bound with
  | none => simp [raiseOfficer_up _ up, shownTotal, disclosed]
  | some p =>
    simp only [raiseOfficer_up _ up]
    rw [raiseAt_up _ _ (by simpa using up), notified_notified]
    have own := station p
    simp only [servingMaster] at own
    simp [shownTotal, disclosed, servingMaster, own]

@[simp] theorem raiseAlert_store (n : DrawerNo) (e : AlertEvent) (s : State) : (raiseAlert n e s).store = s.store := by
  unfold raiseAlert
  dsimp only
  split <;> simp [raiseAt, raiseOfficer]

@[simp] theorem raiseAlert_scu (n : DrawerNo) (e : AlertEvent) (s : State) : (raiseAlert n e s).scu = s.scu := by
  unfold raiseAlert
  dsimp only
  split <;> simp [raiseAt, raiseOfficer]

@[simp] theorem raiseAlert_power (n : DrawerNo) (e : AlertEvent) (s : State) : (raiseAlert n e s).power = s.power := by
  unfold raiseAlert
  dsimp only
  split <;> simp [raiseAt, raiseOfficer]

/-! ### The excess mark (R8) -/

/-- The store with one drawer's mark as given. -/
def withMark (n : DrawerNo) (mark : Bool) (x : Store) : Store :=
  { x with drawers := x.drawers.modify n fun d => { d with excess := mark } }

/-- The mark of a drawer as R8 evaluates it against its home total as that stands. -/
def evaluatedMark (s : State) (n : DrawerNo) : Bool :=
  newExcess (s.store.drawers.get n) (homeTotal s (s.store.drawers.get n))

theorem withMark_same {n : DrawerNo} {mark : Bool} {x : Store} (h : mark = (x.drawers.get n).excess) :
    withMark n mark x = x := by
  subst h
  show { x with drawers := x.drawers.modify n _ } = x
  rw [Table.modify_eq_self rfl]

theorem evaluateExcess_store (n : DrawerNo) (s : State) :
    (evaluateExcess n s).store = withMark n (evaluatedMark s n) s.store := by
  unfold evaluateExcess
  dsimp only
  split
  · rename_i same; rw [withMark_same (show evaluatedMark s n = _ from same)]
  · simp; rfl

theorem evaluateExcess_power (n : DrawerNo) (s : State) : (evaluateExcess n s).power = s.power := by
  unfold evaluateExcess; dsimp only; split <;> simp

theorem evaluateExcess_windows (n : DrawerNo) {s : State} (up : s.power = .up) :
    (evaluateExcess n s).port.windows =
      notify (markNotices s n (evaluatedMark s n) (homeTotal s (s.store.drawers.get n))) s.port.windows := by
  unfold evaluateExcess markNotices
  dsimp only
  split
  · rename_i same; rw [if_pos (show evaluatedMark s n = _ from same)]; rfl
  · rename_i changed
    rw [if_neg (show ¬evaluatedMark s n = _ from changed), report_port_windows, raiseAlert_up _ _ (by exact up),
      notified_windows, homeTotal_modifyDrawer, alertNotices_modifyDrawer rfl rfl]
    simp only [modifyDrawer_port, modifyDrawer_store_drawers, Table.get_modify_self]
    rfl

theorem evaluateExcess_rendered (n : DrawerNo) (s : State) : Rendered s.scu (evaluateExcess n s).scu := by
  unfold evaluateExcess
  dsimp only
  split
  · exact .refl _
  · exact (Rendered.of_eq (by simp)).report _

/-- The mark of the drawer and nothing else of the store: the drawer's record after `evaluateExcess`. -/
theorem evaluateExcess_drawer (n : DrawerNo) (s : State) : (evaluateExcess n s).store.drawers.get n =
    { s.store.drawers.get n with excess := evaluatedMark s n } := by
  simp [evaluateExcess_store, withMark]

/-! ### Limits and totals after a change of counts (R4, R5, R7) -/

theorem evaluateLimits_store (n : DrawerNo) (before : Nat) (s : State) :
    (evaluateLimits n before s).store = withMark n (evaluatedMark s n) s.store := by
  unfold evaluateLimits
  dsimp only
  rw [evaluateExcess_store]
  split <;> simp [evaluatedMark, homeTotal, valueOf, faceOf]

/-- The alerts of a change that left the drawer's home total where it now stands: the soft limit, unless the change sets
the mark, then the mark (R7, R8). -/
def limitNotices (s : State) (n : DrawerNo) (before : Nat) : List (Master × Detail) :=
  let d := s.store.drawers.get n
  (if softCrossed d before (homeTotal s d) = true ∧ ¬(evaluatedMark s n = true ∧ d.excess = false) then
    alertNotices s n .softCrossed (homeTotal s d) else []) ++
    markNotices s n (evaluatedMark s n) (homeTotal s d)

theorem evaluateLimits_windows (n : DrawerNo) (before : Nat) {s : State} (up : s.power = .up) :
    (evaluateLimits n before s).port.windows = notify (limitNotices s n before) s.port.windows := by
  have sets : (softCrossed (s.store.drawers.get n) before (homeTotal s (s.store.drawers.get n)) &&
      !(newExcess (s.store.drawers.get n) (homeTotal s (s.store.drawers.get n)) &&
        !(s.store.drawers.get n).excess)) = true ↔
      softCrossed (s.store.drawers.get n) before (homeTotal s (s.store.drawers.get n)) = true ∧
        ¬(evaluatedMark s n = true ∧ (s.store.drawers.get n).excess = false) := by
    simp only [Bool.and_eq_true, Bool.not_eq_true', ← Bool.not_eq_true]; rfl
  unfold evaluateLimits limitNotices
  simp only [sets]
  split
  · rw [raiseAlert_up _ _ up, evaluateExcess_windows n (by exact up), notify_append]
    rfl
  · rw [evaluateExcess_windows n up]
    rfl

theorem evaluateLimits_rendered (n : DrawerNo) (before : Nat) (s : State) :
    Rendered s.scu (evaluateLimits n before s).scu := by
  unfold evaluateLimits
  dsimp only
  refine Rendered.trans (.of_eq ?_) (evaluateExcess_rendered n _)
  split <;> simp

section
variable {n : DrawerNo} {f : Drawer → Drawer} {s : State} (h : LimitsStand (s.store.drawers.get n) (f (s.store.drawers.get n)))
include h

theorem evaluatedMark_modifyDrawer : evaluatedMark (modifyDrawer n f s) n =
    newExcess (s.store.drawers.get n) (valueOf s 0 (f (s.store.drawers.get n)).current) := by
  have e : homeTotal (modifyDrawer n f s) (f (s.store.drawers.get n)) = valueOf s 0 (f (s.store.drawers.get n)).current :=
    homeTotal_congr rfl _
  simp [evaluatedMark, e, newExcess, clearingLevel, h.soft, h.hard, h.excess]

theorem limitNotices_modifyDrawer (before : Nat) : limitNotices (modifyDrawer n f s) n before =
    let d := s.store.drawers.get n
    let after := valueOf s 0 (f d).current
    (if softCrossed d before after = true ∧ ¬(newExcess d after = true ∧ d.excess = false) then
      alertNotices s n .softCrossed after else []) ++ markNotices s n (newExcess d after) after := by
  have e : homeTotal (modifyDrawer n f s) (f (s.store.drawers.get n)) = valueOf s 0 (f (s.store.drawers.get n)).current :=
    homeTotal_congr rfl _
  simp [limitNotices, markNotices, evaluatedMark_modifyDrawer h, alertNotices_modifyDrawer h.bound h.state, e, softCrossed, h.soft,
    h.excess]

/-- The store after a change of one drawer's counts: that drawer's record as changed, with its mark evaluated (R4 steps 4
and 5, R5, R8). -/
theorem countsChanged_store : (countsChanged n (s.store.drawers.get n) (modifyDrawer n f s)).store =
    { s.store with drawers := s.store.drawers.set n { f (s.store.drawers.get n) with
        excess := markAfter s n (f (s.store.drawers.get n)).current } } := by
  unfold countsChanged markAfter homeDiffers
  simp only [report_store, modifyDrawer_store_drawers, Table.get_modify_self, decide_eq_true_eq]
  split
  · rw [evaluateLimits_store, evaluatedMark_modifyDrawer h]
    simp [withMark, modifyDrawer, Table.modify]
  · simp [modifyDrawer, Table.modify, ← h.excess]

theorem countsChanged_windows (up : s.power = .up) :
    (countsChanged n (s.store.drawers.get n) (modifyDrawer n f s)).port.windows =
      notify (cashNotices s n (f (s.store.drawers.get n)).current) s.port.windows := by
  unfold countsChanged cashNotices markAfter homeDiffers
  simp only [report_port_windows, modifyDrawer_store_drawers, Table.get_modify_self, decide_eq_true_eq]
  split
  · rename_i concerned
    rw [evaluateLimits_windows n _ (by exact up), limitNotices_modifyDrawer h]
    simp
  · rfl

end

theorem countsChanged_rendered (n : DrawerNo) (old : Drawer) (s : State) :
    Rendered s.scu (countsChanged n old s).scu := by
  unfold countsChanged
  refine Rendered.report ?_ _
  split
  · exact evaluateLimits_rendered n _ s
  · exact .refl _

/-! ### The cash change (R4, R6) -/

theorem changedDrawer_limitsStand (s : State) (t : Deltas) (q : Nat) (r : Int) (d : Drawer) :
    LimitsStand d (changedDrawer s t q r d) := ⟨rfl, rfl, rfl, rfl, rfl⟩

theorem cashChange_store (n : DrawerNo) (t : Deltas) (q : Nat) (r : Int) (s : State) : (cashChange n t q r s).store =
    { s.store with drawers := s.store.drawers.set n (afterCash s n t q r) } :=
  countsChanged_store (changedDrawer_limitsStand s t q r _)

theorem cashChange_windows (n : DrawerNo) (t : Deltas) (q : Nat) (r : Int) {s : State} (up : s.power = .up) :
    (cashChange n t q r s).port.windows =
      notify (cashNotices s n (applyDeltas (s.store.drawers.get n).current t)) s.port.windows :=
  countsChanged_windows (changedDrawer_limitsStand s t q r _) up

theorem cashChange_rendered (n : DrawerNo) (t : Deltas) (q : Nat) (r : Int) (s : State) :
    Rendered s.scu (cashChange n t q r s).scu := countsChanged_rendered n _ (modifyDrawer n _ s)

/-- A count with a delta that keeps it from falling below zero moves by the positive part less the negative part. -/
theorem count_moves (a : Nat) (x : Int) (h : 0 ≤ (a : Int) + x) : ((a : Int) + x).toNat + (-x).toNat = a + x.toNat := by
  omega

/-- The value of counts moves by what comes in less what goes out (R4 steps 1 and 2). -/
theorem valueOf_applyDeltas (s : State) (c : Currency) (k : Counts) (t : Deltas)
    (h : ∀ x, 0 ≤ (k.get x : Int) + t.get x) :
    valueOf s c (applyDeltas k t) + outflow s c t = valueOf s c k + inflow s c t := by
  unfold valueOf outflow inflow
  induction slotsOf c with
  | nil => rfl
  | cons d rest ih =>
    simp only [List.foldr_cons, applyDeltas, Table.get_ofFn] at ih ⊢
    have one := congrArg (· * faceOf s d) (count_moves _ _ (h d))
    simp only [Nat.add_mul] at one
    omega

end Sys2Proof.Machine

open Sys2Proof Sys2Proof.Machine

/-- Settles O31: the cash change is the drawer's record of R4 with its mark, and each delta moves its count's value by its
positive part less its negative part. -/
theorem cashChangesKeepTheReport : Obligations.CashChangesKeepTheReport := by
  unfold Obligations.CashChangesKeepTheReport
  intro n deltas sequence tally s covered
  have store := cashChange_store n deltas sequence tally s
  refine ⟨by rw [OneDrawer, store], cashChange_rendered n _ _ _ s, cashChange_windows n _ _ _, fun c => ?_⟩
  have moved := valueOf_applyDeltas s c _ deltas covered
  have value (k : Counts) : valueOf (cashChange n deltas sequence tally s) c k = valueOf s c k :=
    valueOf_congr (by rw [store]) c k
  simp only [value, store, Table.get_set_self, afterCash, addMoney, Table.get_ofFn]
  omega

/-- Settles O28: the checks pass, and `evaluateExcess` on the stored limits is R8's evaluation. -/
theorem limitsAreStoredAndTheMarkEvaluated : Obligations.LimitsAreStoredAndTheMarkEvaluated := by
  unfold Obligations.LimitsAreStoredAndTheMarkEvaluated
  intro h n soft hard s d i old total mark served officer softOk hardOk ordered
  let r : LimitsReq := ⟨.value n.val, .value soft, .value hard⟩
  let stored : State := modifyDrawer d (fun x => { x with soft := soft, hard := hard }) s
  let u : State := evaluateExcess d stored
  have passed : ∀ c ∈ drawerLimitsChecks h r, c.pass = true := by
    have teller : inRange 0 11 (.value n.val) = true := inRange_val n
    have sorted : soft = 0 ∨ hard = 0 ∨ (soft : Int) ≤ hard := by omega
    simp only [drawerLimitsChecks, List.forall_mem_append, List.forall_mem_cons]
    refine ⟨officerOnly_pass officer, ?_, ?_, ?_, by simp⟩
    · simp [r, officer.2, teller, notNegative, Fld.required]
    · simp [r, withinLimit, Fld.required, Config.amountLimit]; omega
    · simpa [r, Fld.int, Fld.getD] using by tauto
  have stores : stored.store.drawers.get d = { old with soft := soft, hard := hard } := Table.get_modify_self _ _ _
  have evaluated : evaluatedMark stored d = mark := by
    rw [evaluatedMark, stores, homeTotal_modifyDrawer]
    simp only [newExcess, clearingLevel]
    rfl
  have drawer : u.store.drawers.get d = { old with soft := soft, hard := hard, excess := mark } := by
    rw [evaluateExcess_drawer, stores, evaluated]
  have taken : drawerLimitsTaken r s = take u [[.amount soft], [.amount hard], [.amount total], [.flag mark]] := by
    have home : homeTotal u (u.store.drawers.get d) = total := by
      rw [drawer]; exact homeTotal_congr (by simp [u, evaluateExcess_store, withMark, stored]) _
    rw [drawer] at home
    simp only [drawerLimitsTaken, r, drawerOf_teller, Fld.int, Fld.getD, Int.toNat_natCast]
    change take u [[.amount (u.store.drawers.get d).soft], [.amount (u.store.drawers.get d).hard],
      [.amount (homeTotal u (u.store.drawers.get d))], [.flag (u.store.drawers.get d).excess]] = _
    rw [drawer, home]
  have frame : UnchangedBut [.drawers, .windows, .buffers, .screens, .inExecution] s u := by
    simpa [taken] using drawerLimits_state_frame r s
  have windows : u.port.windows = notify (markNotices s d mark total) s.port.windows := by
    rw [evaluateExcess_windows d (by exact served.up), evaluated, stores, homeTotal_modifyDrawer]
    simp only [markNotices, stores]
    rw [alertNotices_modifyDrawer rfl rfl]
    rfl
  refine ⟨_, exec_taken served rfl (restartNamed_none i rfl s) passed taken rfl, respond_unchangedBut frame h _ _ _ _ (by decide) (by decide),
    evaluateExcess_rendered d stored, ?_, answered_of_frame served frame (by simp [i, unitOf, requestKind]) (by decide) windows _ _ _ _⟩
  show u.store.drawers = _
  rw [evaluateExcess_store, evaluated]
  simp [withMark, stored, Table.modify, old]
end

section
/-! SUPPORT. Sign-on, sign-off and currency definition: screens under the start and the end of a binding, offers raised
again, and what the Drawer and Exchange Units store (R2, R13, R14, R44, R59, R73, R152, R153). -/

namespace Sys2Proof.Machine

/-! ### Screens at the end of a binding (R153) -/

/-- A screen after its position's binding has ended: no count, no lock, and a LOCKED one with every row dirty. -/
def endedScreen (x : Screen) : Screen :=
  { x with
    idle := none
    lockHeld := false
    dirty := if x.lockHeld = true ∧ x.silent = false then Table.fill 24 true else x.dirty }

theorem screenState_locked (x : Screen) : screenState x = .locked ↔ x.lockHeld = true ∧ x.silent = false := by
  unfold screenState
  cases x.silent <;> cases x.lockHeld <;> cases x.map.list.any Option.isSome <;> decide

theorem endedScreen_eq (x : Screen) : { clearLock x with idle := none } = endedScreen x := by
  unfold clearLock endedScreen
  simp only [screenState_locked]
  split <;> rfl

theorem endScreenBinding_scu (p : Position) (s : State) :
    (endScreenBinding p s).scu = { s.scu with screens := s.scu.screens.modify p endedScreen } := by
  simp only [endScreenBinding, endedScreen_eq]
  rfl

/-- A rendering and a binding's end at one screen may change places. -/
theorem Rendered.endBinding {u v : Scu} (h : Rendered u v) (p : Position) :
    Rendered { u with screens := u.screens.modify p endedScreen } { v with screens := v.screens.modify p endedScreen } where
  buffers := h.buffers
  idleTimeout := h.idleTimeout
  lockText := h.lockText
  screens q := by
    have screen := h.screens q
    obtain ⟨silent, lock, -⟩ := screen.kept
    obtain ⟨same, dirty⟩ := screen
    simp only [Table.get_modify]
    split
    · subst p
      rw [← same]
      refine ⟨by simp [endedScreen], fun r => ?_⟩
      simp only [endedScreen]
      split <;> simp_all
    · exact ⟨same, dirty⟩
  marked q n b := by
    have screen := (h.screens q).kept
    have marked := h.marked q n b
    simp only [Table.get_modify]
    split
    · subst p
      intro silent _ map altered
      simp only [endedScreen] at silent map ⊢
      split
      · simp
      · rename_i open'
        rw [screen.1, screen.2.1] at open'
        exact marked silent (by simpa [silent] using open') map altered
    · exact marked

/-! ### Screens at the start of a binding (R152) -/

/-- A rendering and the restart of an idle count may change places. -/
theorem Rendered.restart {s t : State} (h : Rendered s.scu t.scu) (p : Position)
    (teller : (t.store.positions.get p).teller = (s.store.positions.get p).teller) :
    Rendered (restartedScu s p) (restartedScu t p) := by
  have lock := (h.screens p).kept.2.1
  unfold restartedScu
  rw [teller, lock, h.idleTimeout]
  split
  · refine ⟨h.buffers, fun q => ?_, fun q n b => ?_, h.idleTimeout, h.lockText⟩
    · have screen := h.screens q
      obtain ⟨same, dirty⟩ := screen
      simp only [Table.get_modify]
      split
      · subst p; rw [← same]; exact ⟨rfl, dirty⟩
      · exact ⟨same, dirty⟩
    · have marked := h.marked q n b
      simp only [Table.get_modify]
      split
      · subst p; exact marked
      · exact marked
  · exact h

theorem endHeld_eq (p : Quote → Bool) (r : ExpiryReason) :
    endHeld p r = fun q => if q.state = .held ∧ p q = true then { q with state := .expired r } else q := by
  funext q
  simp [endHeld, isHeld]

/-! ### Turns that stand -/

/-- Where requests stand as they did and nothing stood at the Screen Unit, nothing stands there. -/
theorem TurnsStand.screenFree {s t : State} (h : TurnsStand s t) (free : NoneStandsAt s .scu) : NoneStandsAt t .scu := by
  obtain ⟨inExecution, -, order⟩ := h
  rw [NoneStandsAt, order free]
  exact fun x hx => by rw [standsAt_congr inExecution]; exact free x hx

/-- A change of one drawer's record, its binding among it. -/
theorem modifyDrawer_bounds_frame (n : DrawerNo) (f : Drawer → Drawer) (s : State) :
    UnchangedBut [.drawers, .bounds] s (modifyDrawer n f s) := fun p hp => by
  cases p <;> first
    | exact absurd (by decide) hp
    | exact rfl | exact fun _ => rfl | exact ⟨rfl, rfl⟩ | exact ⟨rfl, rfl, fun _ => rfl⟩ | exact fun _ => ⟨rfl, rfl⟩
    | exact fun _ => ⟨rfl, rfl, rfl, rfl, rfl⟩

/-- The restart of an idle count at a position that is named. -/
theorem restartedScu_frame (p : Position) (s : State) :
    UnchangedBut [.screens, .idles] s { s with scu := restartedScu s p } := restartIdle_eq p s ▸ restartIdle_frame p s

/-- A restarted idle count is no more to be seen once the binding has ended. -/
theorem restartedScu_endBinding (s : State) (p : Position) :
    { restartedScu s p with screens := (restartedScu s p).screens.modify p endedScreen } =
      { s.scu with screens := s.scu.screens.modify p endedScreen } := by
  unfold restartedScu
  split
  · simp [Table.modify, endedScreen]
  · rfl

/-! ### Offers raised again (R67, R73) -/

@[simp] theorem entries_map_snd {α : Type} {n : Nat} (t : Table α n) : t.entries.map Prod.snd = t.list := by
  apply List.ext_getElem
  · simp [Table.entries, t.len]
  · intro i _ _
    simp [Table.entries, Table.get]

theorem offeredSlots_map_snd (s : State) :
    (offeredSlots s).map Prod.snd = (s.store.transfers.list.filterMap id).filter isOffered := by
  rw [offeredSlots, List.map_filterMap, ← entries_map_snd, List.filterMap_map, List.filter_filterMap]
  refine List.filterMap_congr fun e _ => ?_
  obtain ⟨i, t⟩ := e
  cases t with
  | none => rfl
  | some t => cases o : isOffered t <;> simp [o, Option.filter]

/-- The OFFERED transfers to a drawer in ascending number, as the re-raise takes them. -/
def offersTo (s : State) (d : DrawerNo) : List Transfer :=
  (((offeredSlots s).map Prod.snd).filter fun t => t.toDrawer == d).insertionSort fun a b => a.number ≤ b.number

theorem offersTo_spec (s : State) (d : DrawerNo) : OffersTo s d (offersTo s d) := by
  have total : Std.Total fun a b : Transfer => a.number ≤ b.number := ⟨fun a b => Nat.le_total a.number b.number⟩
  have trans : IsTrans Transfer fun a b => a.number ≤ b.number := ⟨fun _ _ _ => Nat.le_trans⟩
  refine ⟨List.pairwise_insertionSort _ _, (List.perm_insertionSort _ _).trans ?_⟩
  rw [offeredSlots_map_snd, List.filter_filter]
  simp [Bool.and_comm]

/-- A run of transfer notices changes the windows alone. -/
theorem foldl_raiseTransfer (e : TransferEvent) (d : DrawerNo) (l : List Transfer) {s : State} (up : s.power = .up) :
    l.foldl (fun s t => raiseTransfer e d t s) s =
      notified (l.map fun t => (drawerMaster s d, .transfer e t.number t.fromDrawer t.toDrawer)) s := by
  induction l generalizing s with
  | nil => rfl
  | cons t rest ih =>
    rw [List.foldl_cons, raiseTransfer, raiseTo_up _ _ up, ih (by exact up), notified_notified]
    rfl

theorem reraiseOffers_up (d : DrawerNo) {s : State} (up : s.power = .up) : reraiseOffers d s =
    notified ((offersTo s d).map fun t => (drawerMaster s d, .transfer .offered t.number t.fromDrawer t.toDrawer)) s :=
  foldl_raiseTransfer _ _ _ up

theorem offersTo_congr {s t : State} (h : t.store.transfers = s.store.transfers) (d : DrawerNo) :
    offersTo t d = offersTo s d := by simp [offersTo, offeredSlots, h]

/-- The Transfer Unit's turn is there for one operation exactly where that unit is free. -/
theorem waitsAt_one {s : State} (up : s.power = .up) (u : UnitName) :
    waitsAt [u] s.port.order s = false ↔ UnitFree s u := by
  rw [waitsAt_eq_false, takenAt_cons]
  exact ⟨fun h => h.1 up, fun h => ⟨fun _ => h, takenAt_nil s⟩⟩

/-- A unit is free alike in states with the same turns and the same acceptance in progress. -/
theorem unitFree_congr {s t : State} (hx : t.port.inExecution = s.port.inExecution) (ho : t.port.order = s.port.order)
    (hd : t.delivery = s.delivery) (u : UnitName) : UnitFree t u ↔ UnitFree s u := by
  simp only [UnitFree, NoneStandsAt, ho, hd, standsAt_congr hx]

/-- The re-raise is taken where the Transfer Unit is free, and waits where it is not (R67). -/
theorem askReraise_up (d : DrawerNo) {s : State} (up : s.power = .up) :
    (UnitFree s .tru → askReraise d s = notified
      ((offersTo s d).map fun t => (drawerMaster s d, .transfer .offered t.number t.fromDrawer t.toDrawer)) s) ∧
    (¬UnitFree s .tru → askReraise d s = ask (.reraise d) s) := by
  rw [← waitsAt_one up, askReraise]
  refine ⟨fun free => ?_, fun waits => ?_⟩
  · rw [if_neg (by simp [free]), reraiseOffers_up d up]
  · rw [if_pos (by simpa using waits)]

/-- Whether it is taken or waits, the re-raise leaves the store and the screens. -/
theorem askReraise_store_scu (d : DrawerNo) {s : State} (up : s.power = .up) :
    (askReraise d s).store = s.store ∧ (askReraise d s).scu = s.scu := by
  by_cases free : UnitFree s .tru
  · rw [(askReraise_up d up).1 free]; exact ⟨rfl, rfl⟩
  · rw [(askReraise_up d up).2 free]; exact ⟨rfl, rfl⟩

/-! ### The sign-on before its re-raise (R13, R152) -/

/-- The drawer's record after a sign-on. -/
def signedOnDrawer (p : Position) (d : Drawer) : Drawer :=
  { d with bound := some p, state := if d.state = .idle then .opened else d.state }

/-- Drawer and position bound, the sources reported and the idle count started: all of a sign-on but the re-raise. -/
def signedOn (p : Position) (teller : Nat) (d : DrawerNo) (s : State) : State :=
  restartIdle p (report (drawerReports (bindDrawer p teller d s) d (some p)) (bindDrawer p teller d s))

section
variable (p : Position) (teller : Nat) (d : DrawerNo) (s : State)

theorem signedOn_reported_frame : UnchangedBut [.drawers, .bounds, .positions, .buffers, .screens, .inExecution] s
    (report (drawerReports (bindDrawer p teller d s) d (some p)) (bindDrawer p teller d s)) :=
  report_unchanged _ (by decide) (modifyPosition_unchanged _ _ (by decide)
    ((modifyDrawer_bounds_frame d _ s).mono (by decide)))

theorem signedOn_frame :
    UnchangedBut [.drawers, .bounds, .positions, .buffers, .screens, .inExecution, .idles] s (signedOn p teller d s) :=
  restartIdle_unchanged _ (by decide) ((signedOn_reported_frame p teller d s).mono (by decide))

theorem signedOn_store : (signedOn p teller d s).store = (bindDrawer p teller d s).store := by
  simp [signedOn, restartIdle_eq]

theorem signedOn_drawer : (signedOn p teller d s).store.drawers.get d = signedOnDrawer p (s.store.drawers.get d) := by
  rw [signedOn_store]; exact Table.get_modify_self _ _ _

theorem signedOn_master : drawerMaster (signedOn p teller d s) d = servingMaster s p := by
  have bound : ((signedOn p teller d s).store.drawers.get d).bound = some p := by rw [signedOn_drawer]; rfl
  rw [drawerMaster, bound]
  simp [servingMaster, signedOn_store, bindDrawer]

theorem signedOn_rendered :
    Rendered (restartedScu { s with store := (signedOn p teller d s).store } p) (signedOn p teller d s).scu := by
  rw [signedOn_store, signedOn, restartIdle_eq]
  refine @Rendered.restart { s with store := (bindDrawer p teller d s).store } _ ?_ p (by rw [report_store])
  exact report_rendered _ (bindDrawer p teller d s)

/-- With nothing standing at the Screen Unit a sign-on is what `signedOn` leaves, and the re-raise. -/
theorem drawerSignonTaken_free (h : ReqHead) (n : Fin 12) (free : NoneStandsAt s .scu) :
    drawerSignonTaken h ⟨.value p.val, .value teller, .value n.val⟩ s =
      let u := askReraise n.castSucc (signedOn p teller n.castSucc s)
      takeMasked u [some [.num (u.store.drawers.get n.castSucc).state.place],
        (shownTotal u h.master n.castSucc).map fun t => [.amount t], some [.flag (isMarked u n.castSucc)]] := by
  have turn := ((signedOn_reported_frame p teller n.castSucc s).get .turns (by decide)).screenFree free
  simp only [drawerSignonTaken, positionOf_val, drawerOf_teller, Fld.nat, Fld.getD]
  rw [bindScreen_taken p true (by exact turn)]
  rfl

end

/-- What a master is told of a drawer's total: the blind count keeps it from a station master (R15). -/
theorem shownTotal_eq (s : State) (m : Master) (d : DrawerNo) (open' : (s.store.drawers.get d).state ≠ .closed) :
    (shownTotal s m d).map (fun t => [Item.amount t]) =
      if m ≠ officerMaster ∧ s.store.day.state = .closing then none
      else some [.amount (homeTotal s (s.store.drawers.get d))] := by
  have closing : blind s d = true ↔ s.store.day.state = .closing := by simp [blind, open']
  simp only [shownTotal, disclosed, Bool.and_eq_true, decide_eq_true_eq, closing]
  split <;> rfl

theorem signon_passed {h : ReqHead} {p : Position} {teller : Nat} {n : Fin 12} {s : State} (may : MayActFor h s p)
    (day : s.store.day.state = .opened ∨ s.store.day.state = .closing) (low : 1 ≤ teller) (high : teller ≤ 9999)
    (noDrawer : (s.store.positions.get p).drawer = none) (noTeller : (s.store.positions.get p).teller = none)
    (unbound : (s.store.drawers.get n.castSucc).bound = none) (open' : (s.store.drawers.get n.castSucc).state ≠ .closed) :
    ∀ c ∈ drawerSignonChecks h ⟨.value p.val, .value teller, .value n.val⟩ s, c.pass = true := by
  have authority : ∀ c ∈ positionChecks h s (.value p.val), c.pass = true := positionChecks_pass may
  have drawer : inRange 0 11 (.value n.val) = true := inRange_val n
  simp only [drawerSignonChecks, positionOf_val, drawerOf_teller, List.forall_mem_append, List.forall_mem_cons]
  refine ⟨authority, ?_, ?_, ?_, ?_, ?_, by simp⟩
  · rcases day with e | e <;> simp [dayIs, e]
  · simp [may.1, drawer, inRange_value, low, high]
  · simp [positionFree, tellerAt, boundDrawer, noTeller, noDrawer]
  · simpa [boundPosition] using unbound
  · simpa using open'

end Sys2Proof.Machine

open Sys2Proof Sys2Proof.Machine

/-- Settles O27: the unbinding, the quotes' expiry and the report leave every turn, so the end of the binding is taken by
the Screen Unit at once. -/
theorem signoffEndsTheBinding : Obligations.SignoffEndsTheBinding := by
  unfold Obligations.SignoffEndsTheBinding
  intro h p d s i served may signedOn bound
  have free := served.screenFree (by simp [i, unitOf, requestKind])
  let s1 : State := { s with scu := restartedScu s p }
  have restarted : restartNamed i s = s1 := restartNamed_named i p rfl s
  let unbound : State := modifyPosition p (fun e => { e with drawer := none, teller := none })
    (modifyDrawer d (fun r => { r with bound := none }) s1)
  let expired : State := report [.drawer d (some p)] (expireSignoff p unbound)
  let u : State := endScreenBinding p expired
  have passed : ∀ c ∈ drawerSignoffChecks h (.value p.val) s1, c.pass = true := by
    have authority : ∀ c ∈ forPosition h s1 p, c.pass = true := forPosition_pass may
    have teller : (tellerAt s1 p).isSome = true := signedOn
    simp only [drawerSignoffChecks, positionOf_val, List.forall_mem_append, List.forall_mem_cons]
    exact ⟨⟨by simp [may.1], authority⟩, teller, by simp⟩
  have unboundFrame : UnchangedBut [.drawers, .bounds, .positions, .idles, .screens] s unbound :=
    modifyPosition_unchanged _ _ (by decide) (((restartedScu_frame p s).mono (by decide)).trans
      ((modifyDrawer_bounds_frame d _ s1).mono (by decide)))
  have expiredFrame : UnchangedBut [.drawers, .bounds, .positions, .idles, .screens, .exu, .buffers, .inExecution] s
      expired :=
    report_unchanged _ (by decide) (expireSignoff_unchanged _ (by decide) (unboundFrame.mono (by decide)))
  have taken : drawerSignoffTaken (.value p.val) s1 = take u [numField d.val] := by
    have here : boundDrawer s1 p = some d := bound
    have free := (expiredFrame.get .turns (by decide)).screenFree free
    simp only [drawerSignoffTaken, positionOf_val, unbind, here]
    rw [bindScreen_taken p false (by exact free)]
    rfl
  have frame : UnchangedBut [.drawers, .bounds, .positions, .idles, .screens, .exu, .buffers, .inExecution, .locks] s u :=
    endScreenBinding_unchanged _ (by decide) (expiredFrame.mono (by decide))
  have store : u.store = unbound.store := by simp [u, endScreenBinding, expired, expireSignoff]
  have exu : u.exu = (expireHeld (fun q => q.position == p) .signoff unbound).exu := by
    simp [u, endScreenBinding, expired, expireSignoff]
  have windows : u.port.windows = notify [] s.port.windows := by
    simp [u, endScreenBinding, expired, expireSignoff, unbound, s1]
  refine ⟨_, exec_taken served rfl restarted passed taken rfl,
    respond_unchangedBut frame h _ _ _ _ (by decide) (by decide), ?_, ?_, fun j => ?_, ?_, ?_,
    answered_of_frame served frame (by simp [i, unitOf, requestKind]) (by decide) windows _ _ _ _⟩
  · show u.store.positions = _
    rw [store]; rfl
  · show u.store.drawers = _
    rw [store]; rfl
  · show u.exu.quotes.get j = _
    rw [exu]
    simp [expireHeld, endHeld_eq, unbound, s1]
  · show u.exu.made = _
    rw [exu]; rfl
  · change Rendered _ (endScreenBinding p expired).scu
    rw [endScreenBinding_scu]
    have rendered : Rendered (restartedScu s p) expired.scu :=
      Rendered.report (@Rendered.report _ (expireHeld _ _ unbound) (.refl _) _) _
    exact restartedScu_endBinding s p ▸ rendered.endBinding p

/-- Settles O26: nothing stands at the Screen Unit, so the binding's start is taken there at once; the re-raise is taken
or waits as the Transfer Unit is free or not. -/
theorem signonBindsDrawerAndPosition : Obligations.SignonBindsDrawerAndPosition := by
  unfold Obligations.SignonBindsDrawerAndPosition
  intro h p teller n s d i old served may day low high noDrawer noTeller unbound open'
  have free := served.screenFree (by simp [i, unitOf, requestKind])
  have restarted : restartNamed i s = s := by
    rw [restartNamed_named i p rfl s, restartedScu, if_neg (by simp [noTeller])]
  have frame := signedOn_frame p teller d s
  have up : (signedOn p teller d s).power = .up := frame.get .power (by decide) ▸ served.up
  obtain ⟨store, scu⟩ := askReraise_store_scu d up
  have drawer := signedOn_drawer p teller d s
  obtain ⟨inExecution, -, order⟩ := frame.get .turns (by decide)
  have order := order free
  have windows : (signedOn p teller d s).port.windows = s.port.windows := frame.get .windows (by decide)
  have tru := unitFree_congr inExecution order (frame.get .delivery (by decide)) .tru
  have closing : (signedOn p teller d s).store.day.state = s.store.day.state :=
    congrArg DayRecord.state (frame.get .day (by decide))
  have taken : drawerSignonTaken h ⟨.value p.val, .value teller, .value n.val⟩ s =
      takeMasked (askReraise d (signedOn p teller d s))
        [some [.num (if old.state = .idle then 2 else old.state.place)],
          if h.master ≠ officerMaster ∧ s.store.day.state = .closing then none else some [.amount (homeTotal s old)],
          some [.flag old.excess]] := by
    have place : (signedOnDrawer p old).state.place = if old.state = .idle then 2 else old.state.place := by
      simp only [signedOnDrawer]; split <;> rfl
    have stays : (signedOnDrawer p old).state ≠ .closed := by simp only [signedOnDrawer]; split <;> simp_all [old]
    have home : homeTotal (askReraise d (signedOn p teller d s)) (signedOnDrawer p old) = homeTotal s old :=
      homeTotal_congr (store ▸ frame.get .currencies (by decide)) old
    rw [drawerSignonTaken_free p teller s h n free]
    dsimp only
    rw [shownTotal_eq _ _ _ (by rw [store, drawer]; exact stays), store, drawer, place, home, closing, isMarked, store, drawer]
    rfl
  refine ⟨_, offersTo s d, exec_taken served rfl restarted
    (signon_passed may day low high noDrawer noTeller unbound open') taken rfl,
    ?_, ?_, ?_, ?_, offersTo_spec s d, ?_⟩
  · exact respond_unchanged _ _ _ _ _ (by decide) (askReraise_unchanged d (by decide) (UnchangedBut.mono frame (by decide)))
  · simp only [respond_store, respond_scu, takeMasked_state, scu, store]
    exact signedOn_rendered p teller d s
  · simp only [respond_store, takeMasked_state, store, signedOn_store]; rfl
  · simp only [OneDrawer, respond_store, takeMasked_state, store, signedOn_store]; rfl
  by_cases taking : UnitFree s .tru
  · have raised := (askReraise_up d up).1 (tru.mpr taking)
    have here : (askReraise d (signedOn p teller d s)).port.inExecution = s.port.inExecution := by
      rw [raised]; exact inExecution
    refine ⟨fun _ => ?_, fun not => absurd taking not, congrArg (fun x => x.set h.master none) here, offersTo s d, fun _ => rfl,
      fun not => absurd taking not, ?_⟩
    · rw [respond_port_order, takeMasked_state, raised]; exact congrArg (fun l => l.erase (.request h.master)) order
    · rw [respond_windows _ _ _ _ _ (by rw [takeMasked_state, here]; exact served.here), takeMasked_state, raised,
        notified_windows, windows, signedOn_master,
        offersTo_congr (show _ = s.store.transfers from frame.get .transfers (by decide))]
      rfl
  · have waits := (askReraise_up d up).2 fun k => taking (tru.mp k)
    have here : (askReraise d (signedOn p teller d s)).port.inExecution = s.port.inExecution := by
      rw [waits]; exact inExecution
    refine ⟨fun k => absurd k taking, fun _ => ?_, congrArg (fun x => x.set h.master none) here, [], fun k => absurd k taking,
      fun _ => rfl, ?_⟩
    · rw [respond_port_order, takeMasked_state, waits, ask, setOrder]; exact congrArg (fun l => (l ++ [.reraise d]).erase (.request h.master)) order
    · rw [respond_windows _ _ _ _ _ (by rw [takeMasked_state, here]; exact served.here), takeMasked_state, waits]
      exact congrArg _ windows
end

section
/-! SUPPORT. The definition of a currency while none of it is held (R1, R2, R44). -/

namespace Sys2Proof.Machine

@[simp] theorem currencyNo_val (c : Currency) : currencyNo (.value c.val) = c := by
  simp [currencyNo, Fld.nat, Fld.getD]

/-- Counts of a currency that are all zero are the same once they are set to zero. -/
theorem clearCounts_same {c : Currency} {k : Counts} (h : ∀ x, denomCurrency x = c → k.get x = 0) :
    clearCounts c k = k :=
  Table.ext_get fun x => by
    simp only [clearCounts, Table.get_ofFn]
    split
    · rw [h x ‹_›]
    · rfl

/-- The drawer holds no count of the currency (R2). -/
def HoldsNone (c : Currency) (d : Drawer) : Prop :=
  ∀ x, denomCurrency x = c → d.current.get x = 0 ∧ d.reserved.get x = 0 ∧ d.opening.get x = 0

theorem clearCurrency_held {c : Currency} {d : Drawer} (h : HoldsNone c d) : clearCurrency c d = { d with
    receipts := d.receipts.set c 0
    payments := d.payments.set c 0
    transfersIn := d.transfersIn.set c 0
    transfersOut := d.transfersOut.set c 0 } := by
  unfold clearCurrency
  rw [clearCounts_same fun x e => (h x e).1, clearCounts_same fun x e => (h x e).2.1,
    clearCounts_same fun x e => (h x e).2.2]

@[simp] theorem denomCurrency_denomOf (c : Currency) (i : Fin 12) : denomCurrency (denomOf c i) = c := by
  simp only [denomCurrency, denomOf, Fin.ext_iff]; omega

theorem holdsNone_eq {c : Currency} {d : Drawer} (h : HoldsNone c d) : holdsNone c d = true := by
  simp only [holdsNone, slotsOf, List.all_eq_true, List.mem_map]
  rintro _ ⟨i, -, rfl⟩
  obtain ⟨current, reserved, opening⟩ := h _ (denomCurrency_denomOf c i)
  simp [current, reserved, opening]

theorem facesOk_of_sorted : ∀ {l : List Nat}, l.Pairwise (· < ·) → (∀ a ∈ l, 1 ≤ a ∧ a ≤ 1000000) → facesOk l = true
  | [], _, _ => rfl
  | [a], _, h => by
    have := h a (by simp)
    simp [facesOk, between, Config.faceMax, this]
  | a :: b :: rest, p, h => by
    have ha := h a (by simp)
    have ih := facesOk_of_sorted (List.pairwise_cons.mp p).2 fun x hx => h x (List.mem_cons_of_mem a hx)
    have lt : a < b := (List.pairwise_cons.mp p).1 b (by simp)
    simp [facesOk, between, Config.faceMax, ha, lt, ih]

/-- The store and the board after a definition, before it is reported to the Screen Unit (R2, R44). -/
def definedStore (c : Currency) (e : CurrencyEntry) (s : State) : State :=
  { s with store := { s.store with
      currencies := s.store.currencies.set c e
      drawers := s.store.drawers.map (clearCurrency c) } }

/-- The currency number of a foreign currency. -/
theorem currencyOf_foreign {f : Foreign} {c : Currency} (h : currencyOf f = c) :
    c ≠ 0 ∧ (Fin.ofNat 3 (c.val - 1) : Foreign) = f := by
  subst h
  refine ⟨fun e => ?_, ?_⟩
  · simpa [currencyOf] using congrArg Fin.val e
  · simp [currencyOf]

/-- A definition whose checks pass: its effect on the store, the board and the screens, with no notice and no turn
changed. -/
theorem currencyDefine_taken {h : ReqHead} {c : Currency} {s : State} {r : CurrencyDefineReq} {e : CurrencyEntry}
    (served : InService h (.currencyDefine h r) s) (number : r.currency = .value c.val) (entry : definedEntry r = e)
    (ok : currencyDefineOk r = true) (officer : FromOfficer h) (day : s.store.day.state = .noDay)
    (none : ∀ n, HoldsNone c (s.store.drawers.get n)) :
    ∃ t, exec (.currencyDefine h r) s = .next t ∧
      UnchangedBut [.currencies, .drawers, .board, .buffers, .screens, .windows, .responses, .inExecution, .turns] s t ∧
      Rendered s.scu t.scu ∧ t.store.currencies = s.store.currencies.set c e ∧
      (∀ n, t.store.drawers.get n = { s.store.drawers.get n with
        receipts := (s.store.drawers.get n).receipts.set c 0
        payments := (s.store.drawers.get n).payments.set c 0
        transfersIn := (s.store.drawers.get n).transfersIn.set c 0
        transfersOut := (s.store.drawers.get n).transfersOut.set c 0 }) ∧
      (c = 0 → t.store.board = s.store.board) ∧
      (∀ f, currencyOf f = c → t.store.board = { s.store.board with
        rows := s.store.board.rows.set f ⟨.none, ⟨0, 0, 0⟩, ⟨0, 0, 0⟩⟩
        generation := (s.store.board.generation + 1) % 65536 }) ∧
      Answered h 16 .done false [] [] s t := by
  let u : State := report allDrawerReports (boardAfterDefine c (definedStore c e s))
  have passed : ∀ x ∈ currencyDefineChecks h r s, x.pass = true := by
    have all : s.store.drawers.list.all (holdsNone c) = true := by
      rw [List.all_eq_true]
      intro d hd
      obtain ⟨k, hk, rfl⟩ := List.getElem_of_mem hd
      exact holdsNone_eq (none ⟨k, s.store.drawers.len ▸ hk⟩)
    simp only [currencyDefineChecks, number, currencyNo_val, List.forall_mem_append, List.forall_mem_cons]
    exact ⟨officerOnly_pass officer, by simp [officer.2, ok], by simp [dayIs, day], all, by simp⟩
  have taken : currencyDefineTaken r s = take u [] := by
    simp only [currencyDefineTaken, number, currencyNo_val, entry]; rfl
  have frame : UnchangedBut [.currencies, .drawers, .board, .buffers, .screens, .inExecution] s u := by
    simpa [taken] using currencyDefine_state_frame r s
  have drawers : u.store.drawers = s.store.drawers.map (clearCurrency c) := by
    simp only [u, report_store, boardAfterDefine]; split <;> simp [definedStore]
  have currencies : u.store.currencies = s.store.currencies.set c e := by
    simp only [u, report_store, boardAfterDefine]; split <;> simp [definedStore]
  refine ⟨_, exec_taken served rfl (restartNamed_none _ rfl s) passed taken rfl,
    respond_unchangedBut frame h _ _ _ _ (by decide) (by decide), ?_, currencies, fun n => ?_, fun home => ?_,
    fun f foreign => ?_, answered_of_frame served frame (by simp [unitOf, requestKind]) (by decide)
      (show u.port.windows = notify [] s.port.windows from frame.get .windows (by decide)) _ _ _ _⟩
  · refine Rendered.report ?_ _
    unfold boardAfterDefine
    split
    · exact .refl _
    · exact report_rendered (rateReports _) (modifyBoard (clearBoardEntry _) (definedStore c e s))
  · show u.store.drawers.get n = _
    rw [drawers, Table.get_map, clearCurrency_held (none n)]
  · show u.store.board = _
    simp only [u, report_store, boardAfterDefine, home, if_true]; rfl
  · show u.store.board = _
    obtain ⟨ne, rfl⟩ := currencyOf_foreign foreign
    simp only [u, report_store, boardAfterDefine, if_neg ne]; rfl

end Sys2Proof.Machine

open Sys2Proof Sys2Proof.Machine

/-- Settles O25: both forms of the request pass the checks, and are taken as `currencyDefine_taken` says. -/
theorem currenciesAreDefinedWhileNoneIsHeld : Obligations.CurrenciesAreDefinedWhileNoneIsHeld := by
  unfold Obligations.CurrenciesAreDefinedWhileNoneIsHeld
  intro h c s officer day none Takes
  have number : inRange 0 3 (.value c.val) = true := inRange_val c
  refine ⟨fun decimals faces ok some size sorted range served => ?_, fun foreign decimals served => ?_⟩
  · have count : faces.length ≠ 0 := by simpa using some
    refine currencyDefine_taken served rfl (by simp [definedEntry, Fld.nat, Fld.getD, count]) ?_ officer day none
    simp only [currencyDefineOk, facesMatch, facesOk_of_sorted sorted range, number, Fld.nat, Fld.getD, decimalsOk,
      Fld.required]
    simpa [inRange_value, size, some] using ok
  · refine currencyDefine_taken served rfl rfl ?_ officer day none
    simpa [currencyDefineOk, facesMatch, number, Fld.nat, Fld.getD, inRange_value] using foreign
end

section
/-! SUPPORT. Records appended and applied (R84, R86), and the counts that close a drawer (R16 to R18). -/

namespace Sys2Proof.Machine

/-- The command of a request that is judged by checks, where one refuses it: nothing but the response. -/
theorem exec_refused {h : ReqHead} {i : Instr} {s s1 : State} (e : InService h i s) {checks : State → List Check}
    {taken : State → Verdict} (x : exec i s = .next (carry h i (fun s => judge (checks s) s (taken s)) s))
    (restarted : restartNamed i s = s1) {c : Check} (failed : firstFailure (checks s1) = some c) :
    exec i s = .next (respond h ((requestKind i).getD 0) c.code false c.detail s1) := by
  subst restarted
  rw [x, carry_refused e checks taken failed]

/-! ### Appending and applying one record -/

/-- In a part that is up an append is its store write and "journal high" where it is due (R84). -/
theorem appendRecord_up (r : Record) {s : State} (up : s.power = .up) :
    appendRecord r s = notified (highNotice s) (writeAppend r s) := by
  unfold appendRecord highNotice
  by_cases high : s.store.day.used + 1 = 15872
  · simp [high, Config.journalHigh, raiseOfficer_up _ (show (writeAppend r s).power = .up from up)]
  · simp [high, Config.journalHigh]

/-- The record check does not cover itself (R83). -/
theorem computeCheck_check (r : Record) (c : Word) : Record.computeCheck { r with check := c } = r.computeCheck := by
  unfold Record.computeCheck Record.imageBody; rfl

/-- What marks a record does not look at what the append wrote for disposition, applied mark and check. -/
theorem markedRecord_stampRecord (s : State) (d : Disposition) (r : Record) :
    markedRecord d (stampRecord s r) =
      markedRecord d { r with sequence := s.store.day.used + 1, time := s.clock.seconds } := by
  let x : Record := { r with
    sequence := s.store.day.used + 1, time := s.clock.seconds, disposition := d, applied := true }
  exact congrArg (fun c => ({ x with check := c } : Record)) (computeCheck_check x _)

@[simp] theorem markedRecord_checkOk (d : Disposition) (r : Record) : (markedRecord d r).checkOk = true := by
  have check := computeCheck_check { r with disposition := d, applied := true }
  simp only [Record.checkOk, beq_iff_eq, markedRecord]
  exact (check _).symm

theorem modify_take_cons_drop {α : Type} (f : α → α) {l : List α} {n : Nat} (a : α) (h : n ≤ l.length) :
    (l.take n ++ a :: l.drop (n + 1)).modify n f = l.take n ++ f a :: l.drop (n + 1) := by
  induction l generalizing n with
  | nil => simp_all
  | cons b rest ih =>
    cases n with
    | zero => rfl
    | succ n => simpa using ih (by simpa using h)

/-- A sequence past all open commits enters their list and leaves it again without a trace. -/
theorem erase_append_next {l : List Nat} {n : Nat} (h : ∀ q ∈ l, q ≤ n) : (l ++ [n + 1]).erase (n + 1) = l := by
  rw [List.erase_append_right _ fun m => by have := h _ m; omega]
  simp

/-- A record appended by `writeAppend`, with other parts of the day record changed or not, stands applied in the journal
once its sequence is marked (R84, R86). -/
theorem setApplied_appended {r : Record} {d : Disposition} {s u : State} (whole : JournalWhole s)
    (journal : u.store.journal = (writeAppend r s).store.journal) :
    Appended r d s (setApplied (s.store.day.used + 1) d u) := by
  show u.store.journal.modify _ _ = _
  rw [journal, writeAppend_store_journal, Nat.add_sub_cancel, modify_take_cons_drop _ _ whole.1,
    markedRecord_stampRecord]

theorem setApplied_committed {r : Record} {d : Disposition} {s u : State} (whole : JournalWhole s)
    (journal : u.store.journal = (writeAppend r s).store.journal) (day : u.store.day = (writeAppend r s).store.day) :
    Committed r d s (setApplied (s.store.day.used + 1) d u) := by
  refine ⟨setApplied_appended whole journal, ?_⟩
  rw [setApplied_store_day, day, writeAppend_store_day]
  simp only [nextSequence, erase_append_next whole.2]

/-- Committing is a statement about the journal and the day record. -/
theorem Committed.congr {r : Record} {d : Disposition} {s t u : State} (h : Committed r d s t)
    (store : u.store = t.store) : Committed r d s u := by
  rw [Committed, Appended, store]; exact h

/-! ### DRAWER.COUNT (R16, R18) -/

theorem countsAgree_iff (s : State) (counted : Counts) (d : Drawer) :
    countsAgree s counted d = true ↔ ∀ x ∈ definedDenoms s, counted.get x = d.current.get x := by
  simp [countsAgree]

theorem table_all_eq {α : Type} {n : Nat} {t : Table α n} {p : α → Bool} (h : ∀ i, p (t.get i) = true) :
    t.list.all p = true := by
  rw [List.all_eq_true]
  intro a ha
  obtain ⟨k, hk, rfl⟩ := List.getElem_of_mem ha
  exact h ⟨k, t.len ▸ hk⟩

/-- A drawer to which no transfer is on offer (R16). -/
theorem isReceiver_eq_false {s : State} {n : DrawerNo}
    (h : ∀ j a, s.store.transfers.get j = some a → a.state = .offered → a.toDrawer ≠ n) : isReceiver s n = false := by
  have all : isReceiver s n = ((offeredSlots s).map Prod.snd).any fun a => a.toDrawer == n := by
    rw [List.any_map]; rfl
  rw [all, offeredSlots_map_snd, List.any_eq_false]
  intro a ha
  obtain ⟨here, offered⟩ := List.mem_filter.mp ha
  obtain ⟨_, mem, rfl⟩ := List.mem_filterMap.mp here
  obtain ⟨j, hj, get⟩ := List.getElem_of_mem mem
  simpa using h ⟨j, s.store.transfers.len ▸ hj⟩ a get (by simpa [isOffered] using offered)

/-- The store after a drawer has been closed by counts that agree (R16, R17). -/
def closedDrawer (sequence : Nat) (d : Drawer) : Drawer := { d with state := .closed, lastApplied := sequence }

/-- The record of a drawer's closing (R16, R82). -/
def closeRecord (n : DrawerNo) (s : State) : Record :=
  drawerRecord s .drawerClose n (closingEntries s (s.store.drawers.get n).current)

section
variable (n : DrawerNo) {s : State}

theorem closeDrawer_up (up : s.power = .up) : closeDrawer n s = report [.drawer n none]
    (setApplied (s.store.day.used + 1) .none (setCounted n none
      (modifyDrawer n (closedDrawer (s.store.day.used + 1)) (notified (highNotice s) (writeAppend (closeRecord n s) s))))) := by
  rw [closeDrawer, show drawerRecord s .drawerClose n (closingEntries s (s.store.drawers.get n).current) = closeRecord n s from rfl,
    appendRecord_up _ up]
  rfl

theorem closeDrawer_committed (up : s.power = .up) (whole : JournalWhole s) :
    Committed (closeRecord n s) .none s (closeDrawer n s) :=
  (setApplied_committed (u := setCounted n none _) whole rfl rfl).congr
    ((congrArg State.store (closeDrawer_up n up)).trans (report_store ..))

theorem closeDrawer_drawers (up : s.power = .up) : (closeDrawer n s).store.drawers =
    s.store.drawers.set n (closedDrawer (s.store.day.used + 1) (s.store.drawers.get n)) := by
  rw [closeDrawer_up n up, report_store]; rfl

theorem closeDrawer_counted (up : s.power = .up) : (closeDrawer n s).counted = s.counted.set n none := by
  rw [closeDrawer_up n up, report_counted]; rfl

theorem closeDrawer_windows (up : s.power = .up) :
    (closeDrawer n s).port.windows = notify (highNotice s) s.port.windows := by
  rw [closeDrawer_up n up, report_port_windows]; rfl

theorem closeDrawer_rendered (up : s.power = .up) : Rendered s.scu (closeDrawer n s).scu := by
  rw [closeDrawer_up n up]
  exact report_rendered _ (setApplied _ _ (setCounted n none (modifyDrawer n _ (notified _ (writeAppend _ s)))))

end

/-- The attempts allow a count: below 3, or below 4 on the officer's flag (R16, R18). -/
theorem mayCount_eq {h : ReqHead} {d : Drawer} (open' : d.state ≠ .closed)
    (attempts : d.state = .difference → d.attempts < if h.officer then 4 else 3) : mayCount h d = true := by
  unfold mayCount
  split <;> simp_all

end Sys2Proof.Machine

open Sys2Proof Sys2Proof.Machine

/-- Settles O29: with the checks passed, the counts agree and `closeDrawer` commits the record, or they do not and
`storeDifference` keeps them. -/
theorem countsCloseADrawerOrLeaveADifference : Obligations.CountsCloseADrawerOrLeaveADifference := by
  unfold Obligations.CountsCloseADrawerOrLeaveADifference
  intro h n l s i d counted served spare flag authority closing size small open' attempts reserved offers
  let r : CountReq := ⟨.value n.val, .value l⟩
  have drawerNo : drawerOf (.value n.val) = n := drawerOf_val n
  have given : countedCounts s r = counted := rfl
  have checksPass (room : countsAgree s counted d = true → roomFor s .reserve 1 = true) :
      ∀ c ∈ drawerCountChecks h r s, c.pass = true := by
    have number : inRange 0 12 (.value n.val) = true := inRange_val n
    have drawer : ∀ c ∈ forDrawer h s n, c.pass = true := forDrawer_pass ⟨spare, flag, authority⟩
    have free : noReserved d = true := table_all_eq fun x => by simp [reserved x]
    simp only [drawerCountChecks, r, drawerNo, given, List.forall_mem_append, List.forall_mem_cons]
    refine ⟨⟨number, drawer⟩, ?_, ?_, mayCount_eq open' attempts, ?_, ?_, by simp⟩
    · simp [dayIs, closing]
    · simp only [spare, countsGiven, Fld.required, size, Config.countMax, beq_self_eq_true, Bool.not_false, Bool.true_and,
        List.all_eq_true]
      exact fun a ha => decide_eq_true (small a ha)
    · rw [free, isReceiver_eq_false offers]; rfl
    · change (!countsAgree s counted d || roomFor s .reserve 1) = true
      cases agree : countsAgree s counted d
      · rfl
      · exact room agree
  have closedUnit : unitOf i ≠ .scu := by simp [i, unitOf, requestKind]
  have taken : exec i s = .next (carry h i (fun s => judge (drawerCountChecks h r s) s (drawerCountTaken r s)) s) := rfl
  have same := restartNamed_none i rfl s
  by_cases agree : countsAgree s counted d = true
  · have all := (countsAgree_iff s counted d).mp agree
    have closes : drawerCountTaken r s = take (closeDrawer n s) [numField 1] := by
      simp only [drawerCountTaken, r, drawerNo, given]; exact if_pos agree
    have frame := closeDrawer_frame n s
    by_cases room : roomFor s .reserve 1 = true
    · refine ⟨_, exec_taken served taken same (checksPass fun _ => room) closes rfl,
        respond_unchangedBut frame h _ _ _ _ (by decide) (by decide), closeDrawer_rendered n served.up, ?_, ?_⟩
      · rintro ⟨x, hx, differs⟩
        exact absurd (all x hx) differs
      · exact fun _ whole _ => ⟨closeDrawer_committed n served.up whole, closeDrawer_counted n served.up,
          closeDrawer_drawers n served.up,
          answered_of_frame served frame closedUnit (by decide) (closeDrawer_windows n served.up) _ _ _ _⟩
    · have short : ¬(s.store.day.used + s.jsu.holds + 1 ≤ 16383) := by
        simpa [roomFor, holdLimit, Config.reserveLimit] using room
      obtain ⟨c, failed⟩ : ∃ c, firstFailure (drawerCountChecks h r s) = some c := by
        rw [← Option.ne_none_iff_exists', ne_eq, firstFailure_eq_none]
        intro passed
        have full := passed ⟨!countsAgree s counted d || roomFor s .reserve 1, .journalFull, []⟩ (by simp [drawerCountChecks, r, drawerNo, given, d])
        exact room (by simpa [agree] using full)
      refine ⟨_, exec_refused served taken same failed,
        respond_unchangedBut (.refl [] s) h _ _ _ _ (by decide) (by decide), .refl _, ?_, ?_⟩
      · rintro ⟨x, hx, differs⟩
        exact absurd (all x hx) differs
      · exact fun _ _ room => absurd room short
  · have differs : drawerCountTaken r s = take (storeDifference n counted s)
        [numField 2, numField (min 3 (d.attempts + 1)), valueDifferences s counted d] := by
      have attempts : ((storeDifference n counted s).store.drawers.get n).attempts = min 3 (d.attempts + 1) := by
        simp [storeDifference, setCounted, d]
      simp only [drawerCountTaken, r, drawerNo, given, ← attempts]
      exact if_neg agree
    have frame := storeDifference_frame n counted s
    refine ⟨_, exec_taken served taken same (checksPass fun yes => absurd yes agree) differs rfl,
      respond_unchangedBut frame h _ _ _ _ (by decide) (by decide), ?_, ?_, ?_⟩
    · exact report_rendered _ (modifyDrawer n _ (setCounted n _ s))
    · refine fun _ => ⟨frame.get .journal (by decide), frame.get .day (by decide), ?_, ?_,
        answered_of_frame served frame closedUnit (by decide) (l := []) (frame.get .windows (by decide)) _ _ _ _⟩
      · simp [storeDifference, setCounted]
      · rw [OneDrawer]
        simp [storeDifference, setCounted, Table.modify_eq_set, d]
    · exact fun all => absurd ((countsAgree_iff s counted d).mpr all) agree
end

section
/-! SUPPORT. Differences accepted one currency after another (R17): what stands after some of the currencies. -/

namespace Sys2Proof.Machine

/-! ### Records in a row -/

/-- A committed record leaves a whole journal. -/
theorem Committed.whole {r : Record} {d : Disposition} {s t : State} (h : Committed r d s t) (whole : JournalWhole s) :
    JournalWhole t := by
  obtain ⟨journal, day⟩ := h
  obtain ⟨long, commits⟩ := whole
  refine ⟨?_, fun q hq => ?_⟩
  · rw [journal, day]; simp; omega
  · rw [day] at hq ⊢; exact Nat.le_succ_of_le (commits q hq)

section
variable {r : Record} {d : Disposition} {s t : State}

theorem Appended.take_journal (h : Appended r d s t) (whole : JournalWhole s) {k : Nat} (hk : k ≤ s.store.day.used) :
    t.store.journal.take k = s.store.journal.take k := by
  have length : (s.store.journal.take s.store.day.used).length = s.store.day.used := by simp [whole.1]
  rw [h, List.take_append_of_le_length (by omega), List.take_take, Nat.min_eq_left hk]

theorem Appended.drop_journal (h : Appended r d s t) (whole : JournalWhole s) :
    t.store.journal.drop (s.store.day.used + 1) = s.store.journal.drop (s.store.day.used + 1) := by
  have length : (s.store.journal.take s.store.day.used).length = s.store.day.used := by simp [whole.1]
  rw [h, List.drop_append, List.drop_of_length_le (by omega), length]
  simp

/-- The new record stands at its place, and the records before it stand. -/
theorem Appended.getElem_new (h : Appended r d s t) (whole : JournalWhole s) :
    t.store.journal[s.store.day.used]? =
      some (markedRecord d { r with sequence := s.store.day.used + 1, time := s.clock.seconds }) := by
  have length : (s.store.journal.take s.store.day.used).length = s.store.day.used := by simp [whole.1]
  rw [h, List.getElem?_append_right (by omega), length]
  simp

theorem Appended.getElem_old (h : Appended r d s t) (whole : JournalWhole s) {k : Nat} (hk : k < s.store.day.used) :
    t.store.journal[k]? = s.store.journal[k]? := by
  have length : (s.store.journal.take s.store.day.used).length = s.store.day.used := by simp [whole.1]
  rw [h, List.getElem?_append_left (by omega), List.getElem?_take_of_lt hk]

end

/-! ### Notices and answers -/

/-- Raised notices change the waiting sets alone. -/
theorem notify_noticesOnly (l : List (Master × Detail)) (w : Table Window 5) : NoticesOnly w (notify l w) := by
  induction l generalizing w with
  | nil => exact fun m => rfl
  | cons e rest ih =>
    intro m
    have one : (w.modify e.1 (addNotice e.2)).get m = { w.get m with
        waiting := ((w.modify e.1 (addNotice e.2)).get m).waiting } := by
      rw [Table.get_modify]; split <;> simp_all [addNotice]
    have := ih (w.modify e.1 (addNotice e.2)) m
    rw [one] at this
    rw [notify_cons]
    simpa using congrArg (fun x : Window => { x with waiting := (w.get m).waiting }) this

/-- An answer on top of raised notices is, but for the waiting sets, the answer alone. -/
theorem withResponse_notify (h : ReqHead) (k : Nat) (c : Code) (b : Bool) (fields : List (Option (List Item)))
    (l : List (Master × Detail)) (w : Table Window 5) (m : Master) :
    { (withResponse h k c b fields (notify l w)).get m with waiting := (w.get m).waiting } =
      (withResponse h k c b fields w).get m := by
  have only := notify_noticesOnly l w m
  simp only [withResponse, Table.get_modify]
  split
  · rename_i own
    subst own
    exact congrArg (fun x : Window => { x with responses := x.responses ++ [Response.mk k h.tag c b fields] }) only
  · exact only

/-! ### The slots of a currency -/

@[simp] theorem mem_slotsOf (c : Currency) (x : Denom) : x ∈ slotsOf c ↔ denomCurrency x = c := by
  rw [slotsOf, List.mem_map]
  refine ⟨?_, fun h => ⟨denomIndex x, List.mem_finRange _, ?_⟩⟩
  · rintro ⟨i, -, rfl⟩; exact denomCurrency_denomOf c i
  · subst h; simp only [denomOf, denomCurrency, denomIndex, Fin.ext_iff]; omega

theorem denoms_filter_currency : ∀ c : Currency, denoms.filter (fun x => denomCurrency x = c) = slotsOf c := by decide

theorem valueOf_eq_of_slots {s : State} {c : Currency} {a b : Counts} (h : ∀ x, denomCurrency x = c → a.get x = b.get x) :
    valueOf s c a = valueOf s c b := by
  have slots : ∀ x ∈ slotsOf c, a.get x = b.get x := fun x hx => h x ((mem_slotsOf c x).mp hx)
  unfold valueOf
  generalize slotsOf c = l at slots
  induction l with
  | nil => rfl
  | cons x rest ih =>
    rw [List.foldr_cons, List.foldr_cons, slots x (by simp), ih fun y hy => slots y (by simp [hy])]

theorem homeDiffers_iff (a b : Counts) : homeDiffers a b = true ↔ ∃ x, denomCurrency x = 0 ∧ a.get x ≠ b.get x := by
  simp [homeDiffers, changedCurrencies, currencies]

/-- The mark of a drawer looks at its home counts alone. -/
theorem markAfter_eq_of_home {s : State} {n : DrawerNo} {a b : Counts}
    (h : ∀ x, denomCurrency x = 0 → a.get x = b.get x) : markAfter s n a = markAfter s n b := by
  have differs : homeDiffers (s.store.drawers.get n).current a = true ↔
      homeDiffers (s.store.drawers.get n).current b = true := by
    rw [homeDiffers_iff, homeDiffers_iff]
    exact exists_congr fun x => and_congr_right fun e => by rw [h x e]
  simp only [markAfter, valueOf_eq_of_slots h, differs]

/-- Counts whose home part is the drawer's leave the mark. -/
theorem markAfter_same {s : State} {n : DrawerNo} {a : Counts}
    (h : ∀ x, denomCurrency x = 0 → a.get x = (s.store.drawers.get n).current.get x) :
    markAfter s n a = (s.store.drawers.get n).excess := by
  have : ¬homeDiffers (s.store.drawers.get n).current a = true := by
    rw [homeDiffers_iff]; rintro ⟨x, e, ne⟩; exact ne (h x e).symm
  simp [markAfter, this]

/-! ### One currency accepted -/

/-- The record of one currency's difference (R17). -/
def differenceRecord (n : DrawerNo) (counted : Counts) (s : State) (c : Currency) : Record :=
  drawerRecord s .difference n (deltaEntries (differenceDeltas counted (s.store.drawers.get n) c))

section
variable (n : DrawerNo) (counted : Counts) {s : State} (c : Currency)

theorem acceptCurrency_up (up : s.power = .up) : acceptCurrency n counted s c =
    setApplied (s.store.day.used + 1) .none (cashChange n (differenceDeltas counted (s.store.drawers.get n) c)
      (s.store.day.used + 1) 0 (notified (highNotice s) (writeAppend (differenceRecord n counted s c) s))) := by
  rw [acceptCurrency, show drawerRecord s .difference n (deltaEntries (differenceDeltas counted (s.store.drawers.get n) c)) =
    differenceRecord n counted s c from rfl, appendRecord_up _ up]
  rfl

theorem acceptCurrency_frame (s : State) (c : Currency) : UnchangedBut
    [.journal, .day, .windows, .drawers, .buffers, .screens, .inExecution] s (acceptCurrency n counted s c) :=
  setApplied_unchanged _ _ (by decide) (cashChange_unchanged _ _ _ _ (by decide)
    ((appendRecord_frame _ s).mono (by decide)))

theorem acceptCurrency_store (up : s.power = .up) : (acceptCurrency n counted s c).store =
    { (setApplied (s.store.day.used + 1) .none (writeAppend (differenceRecord n counted s c) s)).store with
      drawers := s.store.drawers.set n (afterCash s n (differenceDeltas counted (s.store.drawers.get n) c)
        (s.store.day.used + 1) 0) } := by
  rw [acceptCurrency_up n counted c up, setApplied, cashChange_store]
  rfl

theorem acceptCurrency_committed (up : s.power = .up) (whole : JournalWhole s) :
    Committed (differenceRecord n counted s c) .none s (acceptCurrency n counted s c) := by
  have := setApplied_committed (r := differenceRecord n counted s c) (d := .none) (u := writeAppend _ s) whole rfl rfl
  rw [Committed, Appended, acceptCurrency_store n counted c up]
  exact this

theorem acceptCurrency_windows (up : s.power = .up) :
    ∃ l, (acceptCurrency n counted s c).port.windows = notify l s.port.windows := by
  rw [acceptCurrency_up n counted c up, setApplied_port, cashChange_windows _ _ _ _ (by exact up), notified_windows,
    writeAppend_port, ← notify_append]
  exact ⟨_, rfl⟩

theorem acceptCurrency_rendered (up : s.power = .up) : Rendered s.scu (acceptCurrency n counted s c).scu := by
  rw [acceptCurrency_up n counted c up]
  exact cashChange_rendered n _ _ _ (notified _ (writeAppend _ s))

end

/-! ### Some currencies accepted -/

/-- The counts with those of some currencies as counted. -/
def takenCounts (counted current : Counts) (l : List Currency) : Counts :=
  Table.ofFn fun x => if denomCurrency x ∈ l then counted.get x else current.get x

/-- The deltas of one more currency take the counts to those with it as counted. -/
theorem applyDeltas_takenCounts {counted current : Counts} {l : List Currency} {c : Currency} {d : Drawer}
    (h : d.current = takenCounts counted current l) :
    applyDeltas d.current (differenceDeltas counted d c) = takenCounts counted current (l ++ [c]) :=
  Table.ext_get fun x => by
    have value : d.current.get x = if denomCurrency x ∈ l then counted.get x else current.get x := by
      rw [h, takenCounts, Table.get_ofFn]
    simp only [applyDeltas, differenceDeltas, takenCounts, Table.get_ofFn, List.mem_append, List.mem_singleton]
    by_cases own : denomCurrency x = c
    · simp only [own, if_true, or_true]; omega
    · simp only [own, if_false, or_false, add_zero, Int.toNat_natCast, value]

/-- The entries of one currency's difference, where it is not accepted yet. -/
theorem deltaEntries_difference {counted current : Counts} {c : Currency} {d : Drawer}
    (h : ∀ x, denomCurrency x = c → d.current.get x = current.get x) :
    deltaEntries (differenceDeltas counted d c) = ((slotsOf c).filter fun x => counted.get x != current.get x).map
      fun x => (x, (counted.get x : Int) - current.get x) := by
  rw [deltaEntries, Table.entries, List.filter_map, ← denoms_filter_currency, List.filter_filter, denoms]
  have differs (x : Denom) : (counted.get x != current.get x && decide (denomCurrency x = c)) =
      ((fun e : Denom × Int => decide (e.2 ≠ 0)) ∘ fun x => (x, (differenceDeltas counted d c).get x)) x := by
    by_cases own : denomCurrency x = c
    · have := h x own
      simp only [differenceDeltas, Function.comp, Table.get_ofFn, own, if_true, this, decide_true, Bool.and_true]
      rw [Bool.eq_iff_iff]; simp; omega
    · simp [differenceDeltas, own]
  rw [List.filter_congr fun x _ => differs x]
  refine List.map_congr_left fun x hx => ?_
  have own : denomCurrency x = c := by
    by_contra other
    simp [differenceDeltas, other] at hx
  simp [differenceDeltas, own, h x own]

/-- The DIFFERENCE record of one currency, as R17 asks for it. -/
structure IsDifference (n : DrawerNo) (counted : Counts) (s : State) (q : Nat) (c : Currency) (r : Record) : Prop where
  kind : r.kind = .difference
  sequence : r.sequence = q
  drawer : r.drawer = some n
  position : r.position = (s.store.drawers.get n).bound
  applied : r.applied = true
  checked : r.checkOk = true
  tender : r.tender = ((slotsOf c).filter fun x => counted.get x != (s.store.drawers.get n).current.get x).map fun x =>
    (x, (counted.get x : Int) - (s.store.drawers.get n).current.get x)

/-- What stands once the differences of the currencies listed are accepted: their records, the counts in these currencies,
the receipts and payments, and the mark. -/
structure Accepted (n : DrawerNo) (counted : Counts) (s : State) (l : List Currency) (t : State) : Prop where
  up : t.power = .up
  currencies : t.store.currencies = s.store.currencies
  uncounted : t.counted = s.counted
  whole : JournalWhole t
  day : t.store.day = { s.store.day with used := s.store.day.used + l.length }
  before : t.store.journal.take s.store.day.used = s.store.journal.take s.store.day.used
  behind : t.store.journal.drop (s.store.day.used + l.length) = s.store.journal.drop (s.store.day.used + l.length)
  records : ∀ k (hk : k < l.length), ∃ r, t.store.journal[s.store.day.used + k]? = some r ∧
    IsDifference n counted s (s.store.day.used + k + 1) l[k] r
  drawer : t.store.drawers = s.store.drawers.set n { s.store.drawers.get n with
    current := takenCounts counted (s.store.drawers.get n).current l
    receipts := (t.store.drawers.get n).receipts
    payments := (t.store.drawers.get n).payments
    excess := markAfter s n (takenCounts counted (s.store.drawers.get n).current l)
    lastApplied := (t.store.drawers.get n).lastApplied }
  balance : ∀ c, (t.store.drawers.get n).receipts.get c + valueOf s c (s.store.drawers.get n).current +
      (s.store.drawers.get n).payments.get c = (s.store.drawers.get n).receipts.get c +
    valueOf s c (takenCounts counted (s.store.drawers.get n).current l) + (t.store.drawers.get n).payments.get c
  rendered : Rendered s.scu t.scu
  windows : ∃ k, t.port.windows = notify k s.port.windows

theorem accepted_nil {n : DrawerNo} {counted : Counts} {s : State} (up : s.power = .up) (whole : JournalWhole s) :
    Accepted n counted s [] s := by
  have none : takenCounts counted (s.store.drawers.get n).current [] = (s.store.drawers.get n).current :=
    Table.ext_get fun x => by simp [takenCounts]
  refine ⟨up, rfl, rfl, whole, rfl, rfl, rfl, nofun, ?_, fun c => ?_, .refl _, [], rfl⟩
  · rw [none, markAfter_same fun _ _ => rfl, Table.set_get_self]
  · rw [none]

/-- The mark one more currency leaves: evaluated on the way from the drawer's own counts, or, once the home currency is
accepted or not concerned, as it stands (R8). -/
theorem Accepted.mark {n : DrawerNo} {counted : Counts} {s t : State} {l : List Currency} {c : Currency}
    (h : Accepted n counted s l t) (fresh : c ∉ l) :
    markAfter t n (takenCounts counted (s.store.drawers.get n).current (l ++ [c])) =
      markAfter s n (takenCounts counted (s.store.drawers.get n).current (l ++ [c])) := by
  let old := s.store.drawers.get n
  have drawer := congrArg (fun x => x.get n) h.drawer
  simp only [Table.get_set_self] at drawer
  have current : (t.store.drawers.get n).current = takenCounts counted old.current l := by rw [drawer]
  by_cases home : c = 0
  · subst home
    have own (x : Denom) (e : denomCurrency x = 0) : (takenCounts counted old.current l).get x = old.current.get x := by
      simp [takenCounts, e, fresh]
    have mark : (t.store.drawers.get n).excess = old.excess := by rw [drawer]; exact markAfter_same own
    have differs (a : Counts) : homeDiffers (t.store.drawers.get n).current a = true ↔ homeDiffers old.current a = true := by
      rw [homeDiffers_iff, homeDiffers_iff, current]
      exact exists_congr fun x => and_congr_right fun e => by rw [own x e]
    have soft : (t.store.drawers.get n).soft = old.soft := by rw [drawer]
    have hard : (t.store.drawers.get n).hard = old.hard := by rw [drawer]
    simp only [markAfter, differs, newExcess, clearingLevel, mark, soft, hard, valueOf_congr h.currencies]
    rfl
  · have same (x : Denom) (e : denomCurrency x = 0) : (takenCounts counted old.current (l ++ [c])).get x =
        (takenCounts counted old.current l).get x := by
      have : denomCurrency x ≠ c := by rw [e]; exact Ne.symm home
      simp [takenCounts, this]
    rw [markAfter_same fun x e => by rw [current]; exact same x e, markAfter_eq_of_home same, drawer]

theorem Accepted.append {n : DrawerNo} {counted : Counts} {s t : State} {l : List Currency} {c : Currency}
    (h : Accepted n counted s l t) (fresh : c ∉ l) : Accepted n counted s (l ++ [c]) (acceptCurrency n counted t c) := by
  let old := s.store.drawers.get n
  let deltas := differenceDeltas counted (t.store.drawers.get n) c
  have store := acceptCurrency_store n counted c h.up
  have commit := acceptCurrency_committed n counted c h.up h.whole
  have frame := acceptCurrency_frame n counted t c
  have used : t.store.day.used = s.store.day.used + l.length := by rw [h.day]
  have drawer := congrArg (fun x => x.get n) h.drawer
  simp only [Table.get_set_self] at drawer
  have current : (t.store.drawers.get n).current = takenCounts counted old.current l := by rw [drawer]
  have next := applyDeltas_takenCounts (c := c) current
  have own (x : Denom) (e : denomCurrency x = c) : (t.store.drawers.get n).current.get x = old.current.get x := by
    rw [current]; simp [takenCounts, e, fresh]
  have value (k : Currency) (a : Counts) : valueOf t k a = valueOf s k a := valueOf_congr h.currencies k a
  have after : (acceptCurrency n counted t c).store.drawers.get n = afterCash t n deltas (t.store.day.used + 1) 0 := by
    rw [store]; exact Table.get_set_self _ _ _
  refine
    { up := ?up, currencies := ?currencies, uncounted := ?uncounted, whole := commit.whole h.whole, day := ?day,
      before := ?before, behind := ?behind, records := ?records, drawer := ?drawer, balance := ?balance,
      rendered := ?rendered, windows := ?windows }
  case up => exact (frame.get .power (by decide)).trans h.up
  case currencies => rw [store]; exact h.currencies
  case uncounted => exact (frame.get .counted (by decide)).trans h.uncounted
  case day => rw [commit.2, h.day]; simp [Nat.add_assoc]
  case before => rw [commit.1.take_journal h.whole (by omega), h.before]
  case behind =>
    have both := congrArg (List.drop 1) h.behind
    rw [List.drop_drop, List.drop_drop] at both
    rw [List.length_append, List.length_singleton, ← Nat.add_assoc, ← both, ← used]
    exact commit.1.drop_journal h.whole
  case records =>
    intro k hk
    rcases Nat.lt_or_eq_of_le (Nat.lt_succ_iff.mp (by simpa using hk)) with lt | rfl
    · obtain ⟨r, at', is⟩ := h.records k lt
      exact ⟨r, (commit.1.getElem_old h.whole (by omega)).trans at', by rwa [List.getElem_append_left lt]⟩
    · refine ⟨_, used ▸ commit.1.getElem_new h.whole, ?_⟩
      rw [List.getElem_concat_length rfl]
      exact ⟨rfl, used ▸ rfl, rfl, (congrArg Drawer.bound drawer :), rfl, markedRecord_checkOk _ _, deltaEntries_difference own⟩
  case drawer =>
    rw [after, store]
    show t.store.drawers.set n (afterCash t n deltas _ 0) = _
    rw [h.drawer, Table.set_set]
    refine congrArg _ ?_
    have mark : markAfter t n (takenCounts counted old.current (l ++ [c])) = markAfter s n _ := h.mark fresh
    simp only [afterCash, deltas, next, mark]
    rw [drawer, add_zero]
  case balance =>
    intro k
    have moved := valueOf_applyDeltas t k (t.store.drawers.get n).current deltas fun x => by
      simp only [deltas, differenceDeltas, Table.get_ofFn]; split <;> omega
    have before := h.balance k
    rw [show applyDeltas (t.store.drawers.get n).current deltas = takenCounts counted old.current (l ++ [c]) from next, value,
      value, current] at moved
    rw [after]
    simp only [afterCash, addMoney, Table.get_ofFn]
    simp only [old] at moved
    omega
  case rendered => exact h.rendered.trans (acceptCurrency_rendered n counted c h.up)
  case windows =>
    obtain ⟨k, hk⟩ := h.windows
    obtain ⟨j, hj⟩ := acceptCurrency_windows n counted c h.up
    exact ⟨k ++ j, by rw [hj, hk, notify_append]⟩

/-- The differences of a list of currencies, none twice, accepted in its order. -/
theorem accepted_foldl {n : DrawerNo} {counted : Counts} {s : State} (up : s.power = .up) (whole : JournalWhole s)
    (l : List Currency) (distinct : l.Nodup) : Accepted n counted s l (l.foldl (acceptCurrency n counted) s) := by
  induction l using List.reverseRecOn with
  | nil => exact accepted_nil up whole
  | append_singleton l c ih =>
    obtain ⟨before, -, fresh⟩ := List.nodup_append.mp distinct
    rw [List.foldl_append]
    exact (ih before).append fun mem => fresh c mem c (by simp) rfl

theorem definedDenoms_congr {s t : State} (h : t.store.currencies = s.store.currencies) :
    definedDenoms t = definedDenoms s := by
  have denom (x : Denom) : isDenom t x = isDenom s x := by unfold isDenom isDefined faceCount; rw [h]
  exact List.filter_congr fun x _ => denom x

/-- The currencies in which counts differ, defined ones alone. -/
def differing (s : State) (n : DrawerNo) (counted : Counts) : List Currency :=
  (definedCurrencies s).filter fun c => (slotsOf c).any fun x => counted.get x != (s.store.drawers.get n).current.get x

theorem differingCurrencies_eq {s : State} {n : DrawerNo} {counted : Counts} (h : s.counted.get n = some counted) :
    differingCurrencies s n = differing s n counted := by
  simp only [differingCurrencies, h, differing, changedCurrencies, definedCurrencies, List.filter_filter, Bool.and_comm]

/-- With every differing currency accepted, all counts are as counted. -/
theorem takenCounts_differing {s : State} {n : DrawerNo} {counted : Counts}
    (undefined : ∀ x, denomCurrency x ∉ definedCurrencies s → counted.get x = (s.store.drawers.get n).current.get x) :
    takenCounts counted (s.store.drawers.get n).current (differing s n counted) = counted :=
  Table.ext_get fun x => by
    rw [takenCounts, Table.get_ofFn]
    split
    · rfl
    · rename_i not
      by_contra differs
      have defined : denomCurrency x ∈ definedCurrencies s := by
        by_contra other; exact differs (undefined x other).symm
      exact not (List.mem_filter.mpr ⟨defined, List.any_eq_true.mpr ⟨x, by simp, by simpa using Ne.symm differs⟩⟩)

end Sys2Proof.Machine

open Sys2Proof Sys2Proof.Machine

/-- Settles O30: with the checks passed, the currencies are accepted in a row (`accepted_foldl`) and the drawer is closed
with the counts they leave. -/
theorem acceptedDifferencesBecomeTheCounts : Obligations.AcceptedDifferencesBecomeTheCounts := by
  unfold Obligations.AcceptedDifferencesBecomeTheCounts
  intro h n counted s i d cs used served officer closing state held undefined whole room
  have list : differingCurrencies s n = cs := differingCurrencies_eq held
  let u : State := cs.foldl (acceptCurrency n counted) s
  have accepted : Accepted n counted s cs u :=
    accepted_foldl served.up whole cs (((List.nodup_finRange 4).filter _).filter _)
  have counts : takenCounts counted (s.store.drawers.get n).current cs = counted := takenCounts_differing undefined
  have commit := closeDrawer_committed n accepted.up accepted.whole
  have usedThen : u.store.day.used = used + cs.length := by rw [accepted.day]
  have drawers := closeDrawer_drawers n accepted.up
  have drawer := congrArg (fun x => x.get n) accepted.drawer
  simp only [Table.get_set_self] at drawer
  have after : (closeDrawer n u).store.drawers.get n = closedDrawer (used + cs.length + 1) (u.store.drawers.get n) := by
    rw [drawers, Table.get_set_self, usedThen]
  have passed : ∀ c ∈ drawerAcceptChecks h (.value n.val) s, c.pass = true := by
    have number : inRange 0 12 (.value n.val) = true := inRange_val n
    simp only [drawerAcceptChecks, drawerOf_val, list, List.forall_mem_append, List.forall_mem_cons]
    refine ⟨officerOnly_pass officer, ?_, ?_, ?_, ?_, by simp⟩
    · simp [officer.2, number]
    · simp [dayIs, closing]
    · simpa [held] using state
    · simpa [roomFor, holdLimit, Config.reserveLimit, ← Nat.add_assoc] using room
  have taken : drawerAcceptTaken (.value n.val) s =
      take (closeDrawer n u) [numField cs.length, (List.range cs.length).map fun k => .num (used + 1 + k)] := by
    simp only [drawerAcceptTaken, drawerOf_val, list, held]; rfl
  have frame : UnchangedBut [.journal, .day, .windows, .drawers, .counted, .buffers, .screens, .inExecution] s
      (closeDrawer n u) := by
    simpa [taken] using drawerAccept_state_frame (.value n.val) s
  obtain ⟨notices, windows⟩ := accepted.windows
  have windows : (closeDrawer n u).port.windows = notify (notices ++ highNotice u) s.port.windows := by
    rw [closeDrawer_windows n accepted.up, windows, notify_append]
  have answer := answered_of_frame served frame (by simp [i, unitOf, requestKind]) (by decide) windows 21 .done false
    [some [.num cs.length], some ((List.range cs.length).map fun k => .num (used + 1 + k))]
  obtain ⟨windows, inExecution, order⟩ := answer
  refine ⟨_, exec_taken served rfl (restartNamed_none i rfl s) passed taken rfl,
    respond_unchangedBut frame h _ _ _ _ (by decide) (by decide),
    accepted.rendered.trans (closeDrawer_rendered n accepted.up), ?_, ?_, ?_, ?_, ?_, ?_, ?_, ?_, inExecution, order, ?_⟩
  · exact (closeDrawer_counted n accepted.up).trans (by rw [accepted.uncounted])
  · have alone (x : Drawer) : u.store.drawers.set n x = s.store.drawers.set n x := by
      rw [accepted.drawer, Table.set_set]
    simp only [OneDrawer, respond_store, take_state, after]
    rw [drawers, usedThen, alone]
    refine congrArg _ ?_
    rw [drawer, counts]
    rfl
  · intro c
    have balance := accepted.balance c
    rw [counts] at balance
    simp only [respond_store, take_state, after]
    exact balance
  · exact commit.2.trans (by rw [accepted.day, Nat.add_assoc])
  · exact (commit.1.take_journal accepted.whole (by omega)).trans accepted.before
  · have both := congrArg (List.drop 1) accepted.behind
    rw [List.drop_drop, List.drop_drop] at both
    exact (usedThen ▸ commit.1.drop_journal accepted.whole :).trans both
  · intro k hk
    obtain ⟨r, here, is⟩ := accepted.records k hk
    exact ⟨r, (commit.1.getElem_old accepted.whole (by omega)).trans here, is.kind, is.sequence, is.drawer, is.position,
      is.applied, is.checked, is.tender⟩
  · have here := commit.1.getElem_new accepted.whole
    rw [usedThen] at here
    refine ⟨_, here, rfl, rfl, rfl, rfl, markedRecord_checkOk _ _, ?_⟩
    show closingEntries u (u.store.drawers.get n).current = _
    rw [drawer, counts, closingEntries, definedDenoms_congr accepted.currencies]
  · intro m
    exact (congrArg (fun w : Table Window 5 => { w.get m with waiting := (s.port.windows.get m).waiting }) windows).trans
      (withResponse_notify h _ _ _ _ _ _ m)
end

section
/-! SUPPORT. Day records and the changes of the day they go with (R159 to R162). -/

namespace Sys2Proof.Machine

/-! ### A change of the day and its record -/

/-- A change of the day is raised to master 4 and reported (R159). -/
theorem dayChanged_up (x : DayState) {s : State} (up : s.power = .up) :
    dayChanged x s = report [.dayState] (notified [(officerMaster, .dayChanged x)] s) := by
  rw [dayChanged, raiseOfficer_up _ up]

/-- The append of a day record, in a part that is up (R81). -/
theorem appendDay_up (k : RecordKind) (date : Option Nat) (f : DayRecord → DayRecord) {s : State} (up : s.power = .up) :
    appendDay k date f s = modifyDay f (notified (highNotice s) (writeAppend (dayRecord k date) s)) := by
  rw [appendDay, appendRecord_up _ up]

/-- The day's record appended and applied with the change of the day it goes with, the rest of `u` as that stands, and the
change told (R81, R86, R159). -/
def dayCommitted (x : DayState) (s u : State) : State :=
  report [.dayState] (notified [(officerMaster, .dayChanged x)] (setApplied (s.store.day.used + 1) .none u))

section
variable {k : RecordKind} {date : Option Nat} {f : DayRecord → DayRecord} {x : DayState} {s u : State}

theorem dayCommitted_eq (up : u.power = .up) :
    dayChanged x (setApplied (nextSequence s) .none u) = dayCommitted x s u := dayChanged_up x (by exact up)

theorem dayCommitted_appended (whole : JournalWhole s) (up : s.power = .up)
    (journal : u.store.journal = (appendDay k date f s).store.journal) :
    Appended (dayRecord k date) .none s (dayCommitted x s u) := by
  have appended : Appended (dayRecord k date) .none s (setApplied (s.store.day.used + 1) .none u) :=
    setApplied_appended whole (journal.trans (by rw [appendDay_up k date f up]; rfl))
  rw [Appended, dayCommitted, report_store]
  exact appended

theorem dayCommitted_windows (up : s.power = .up) (windows : u.port.windows = (appendDay k date f s).port.windows) :
    (dayCommitted x s u).port.windows = notify (highNotice s ++ [(officerMaster, .dayChanged x)]) s.port.windows := by
  rw [dayCommitted, report_port_windows, notified_windows, setApplied_port, windows, appendDay_up k date f up, notify_append]
  rfl

theorem dayCommitted_rendered (h : Rendered s.scu u.scu) : Rendered s.scu (dayCommitted x s u).scu :=
  @Rendered.report _ (notified _ (setApplied _ _ u)) h _

/-- The day record after the commit: as the change makes it, with one record more and no trace of an open commit. -/
theorem dayCommitted_day (whole : JournalWhole s) (up : s.power = .up) {e : DayRecord}
    (day : u.store.day = (appendDay k date f s).store.day)
    (changed : ∀ used commits, f { s.store.day with used := used, openCommits := commits } =
      { e with used := used, openCommits := commits })
    (keeps : e.openCommits = s.store.day.openCommits) :
    (dayCommitted x s u).store.day = { e with used := s.store.day.used + 1 } := by
  rw [dayCommitted, report_store, notified_store, setApplied_store_day, day, appendDay_up k date f up]
  simp only [modifyDay_store_day, notified_store, writeAppend_store_day, changed, nextSequence,
    erase_append_next whole.2, keeps]

end

/-! ### DAY.OPEN (R11, R160) -/

theorem isDate_of_calendar {year month date longest : Nat} (hy : year ≤ 9999) (hm : 1 ≤ month) (hm' : month ≤ 12)
    (hd : 1 ≤ date) (long : date ≤ longest)
    (h : longest = if month = 2 then (if year % 4 = 0 ∧ year % 100 ≠ 0 ∨ year % 400 = 0 then 29 else 28)
      else if month = 4 ∨ month = 6 ∨ month = 9 ∨ month = 11 then 30 else 31) :
    isDate (10000 * year + 100 * month + date) = true := by
  have length : longest = monthLength year month := by
    rw [h]; simp [monthLength, isLeap]
  have short : longest ≤ 31 := by rw [h]; split_ifs <;> omega
  have y : (10000 * year + 100 * month + date) / 10000 = year := by omega
  have m : (10000 * year + 100 * month + date) / 100 % 100 = month := by omega
  have d : (10000 * year + 100 * month + date) % 100 = date := by omega
  simp only [isDate, y, m, d, ← length, fitsDate, between, Bool.and_eq_true, decide_eq_true_eq]
  omega

/-! ### DAY.REOPEN (R162) -/

/-- The lowest number that satisfies a test. -/
theorem find_finRange_eq_some {m : Nat} {p : Fin m → Bool} {n : Fin m} (here : p n = true) (first : ∀ k < n, p k = false) :
    (List.finRange m).find? p = some n := by
  rw [List.find?_eq_some_iff_getElem]
  exact ⟨here, n.val, by simp, by simp, fun j hj => by simpa using first ⟨j, by omega⟩ hj⟩

theorem isSettled_iff (s : State) (n : DrawerNo) : isSettled s n = true ↔ Settled s n := by
  simp [isSettled, Settled]

/-! ### The day's requests: their checks, and the state each commits (R160 to R162) -/

/-- The day as DAY.OPEN makes it. -/
def openedOn (date : Nat) (d : DayRecord) : DayRecord := { d with state := .opened, date := some date, reference := none }

/-- The day as DAY.CLOSE makes it. -/
def closingDay (d : DayRecord) : DayRecord := { d with state := .closing }

/-- The day as DAY.REOPEN makes it. -/
def reopenedDay (d : DayRecord) : DayRecord := { d with state := .opened }

/-- What DAY.OPEN commits: the day's record, and every drawer opened. -/
def dayOpening (date : Nat) (s : State) : State :=
  openDrawers (fun _ => true) (appendDay .dayOpen (some date) (openedOn date) s)

/-- What DAY.CLOSE commits: the day's record, and every HELD quote expired. -/
def dayClosing (s : State) : State := expireDayClose (appendDay .dayCloseBegin none closingDay s)

section
variable {s : State} (up : s.power = .up)
include up

theorem dayOpenTaken_eq (date : Nat) : dayOpenTaken (.value date) s =
    take (dayCommitted .opened s (dayOpening date s)) [numField (s.store.day.used + 1)] := by
  have upThen : (dayOpening date s).power = .up := by
    simp only [dayOpening, openDrawers, report_power, appendDay_up _ _ _ up]; exact up
  rw [← dayCommitted_eq upThen]; rfl

theorem dayCloseTaken_eq : dayCloseTaken s =
    take (dayCommitted .closing s (dayClosing s)) [numField (s.store.day.used + 1)] := by
  have upThen : (dayClosing s).power = .up := by
    simp only [dayClosing, expireDayClose, report_power, appendDay_up _ _ _ up]; exact up
  rw [← dayCommitted_eq upThen]; rfl

theorem dayReopenTaken_eq : dayReopenTaken s =
    take (dayCommitted .opened s (appendDay .dayReopen none reopenedDay s)) [numField (s.store.day.used + 1)] := by
  have upThen : (appendDay .dayReopen none reopenedDay s).power = .up := by rw [appendDay_up _ _ _ up]; exact up
  rw [← dayCommitted_eq upThen]; rfl

end

section
variable {h : ReqHead} {s : State} (officer : FromOfficer h)
include officer

theorem dayOpenChecks_pass {date : Nat} (valid : isDate date = true) (noDay : s.store.day.state = .noDay)
    (later : ∀ x, s.store.day.lastDelivered = some x → x < date) (branch : s.store.lineSettings.branch.isSome = true)
    (home : isDefined s 0 = true) : ∀ c ∈ dayOpenChecks h (.value date) s, c.pass = true := by
  simp only [dayOpenChecks, List.forall_mem_append, List.forall_mem_cons]
  refine ⟨officerOnly_pass officer, ?_, ?_, ?_, branch, home, by simp⟩
  · simp [dayIs, noDay]
  · simp [officer.2, Fld.required, valid]
  · cases last : s.store.day.lastDelivered with
    | none => rfl
    | some x => exact decide_eq_true (later x last)

theorem dayCloseChecks_pass (opened : s.store.day.state = .opened) (room : s.store.day.used + s.jsu.holds + 1 ≤ 16383) :
    ∀ c ∈ dayCloseChecks h s, c.pass = true := by
  simp only [dayCloseChecks, List.forall_mem_append, List.forall_mem_cons]
  refine ⟨officerOnly_pass officer, ?_, ?_, ?_, by simp⟩
  · simp [bodyCheck, officer.2]
  · simp [dayIs, opened]
  · simpa [roomFor, holdLimit, Config.reserveLimit] using room

/-- DAY.REOPEN in CLOSING with room hangs on the settled drawers alone, its last check. -/
theorem dayReopenChecks_split (closing : s.store.day.state = .closing) (room : s.store.day.used + s.jsu.holds + 1 ≤ 16383) :
    ∃ early : List Check, (∀ c ∈ early, c.pass = true) ∧ dayReopenChecks h s =
      early ++ [⟨(lowestSettled s).isNone, .wrongState, drawerDetail (lowestSettled s)⟩] := by
  refine ⟨officerOnly h ++ [bodyCheck h, ⟨dayIs s [.closing], .dayState, []⟩, ⟨roomFor s .reserve 1, .journalFull, []⟩],
    ?_, by simp [dayReopenChecks]⟩
  simp only [List.forall_mem_append, List.forall_mem_cons]
  refine ⟨officerOnly_pass officer, ?_, ?_, ?_, by simp⟩
  · simp [bodyCheck, officer.2]
  · simp [dayIs, closing]
  · simpa [roomFor, holdLimit, Config.reserveLimit] using room

end

theorem lowestSettled_none {s : State} (unsettled : ∀ n, ¬Settled s n) : lowestSettled s = none := by
  rw [lowestSettled, List.find?_eq_none]
  intro n _ settled
  exact unsettled n ((isSettled_iff s n).mp settled)

theorem lowestSettled_some {s : State} {n : DrawerNo} (settled : Settled s n) (lowest : ∀ k < n, ¬Settled s k) :
    lowestSettled s = some n :=
  find_finRange_eq_some ((isSettled_iff s n).mpr settled) fun k hk =>
    Bool.eq_false_iff.mpr fun is => lowest k hk ((isSettled_iff s k).mp is)

end Sys2Proof.Machine

open Sys2Proof Sys2Proof.Machine

/-- Settles O57: each request passes its checks and commits its day record with the change of the day; a settled drawer
refuses the reopening at its own check, the last. -/
theorem theDayOpensClosesAndReopens : Obligations.TheDayOpensClosesAndReopens := by
  unfold Obligations.TheDayOpensClosesAndReopens
  intro h s officer whole day number
  refine ⟨?_, ?_, ?_⟩
  case refine_1 =>
    intro year month date whole' i longest served noDay hy hm hm' hd long later branch home
    have passed := dayOpenChecks_pass officer (isDate_of_calendar hy hm hm' hd long rfl) noDay later branch home
    have opening := appendDay_up .dayOpen (some whole') (openedOn whole') served.up
    have taken := dayOpenTaken_eq served.up whole'
    have frame : UnchangedBut [.journal, .day, .windows, .drawers, .counted, .buffers, .screens, .inExecution] s
        (dayCommitted .opened s (dayOpening whole' s)) := by simpa [taken] using dayOpen_state_frame (.value whole') s
    refine ⟨_, exec_taken served rfl (restartNamed_none i rfl s) passed taken rfl,
      respond_unchangedBut frame h _ _ _ _ (by decide) (by decide), ?_, ?_, ?_, ?_, ?_,
      answered_of_frame served frame (by simp [i, unitOf, requestKind]) (by decide)
        (dayCommitted_windows (k := .dayOpen) (date := some whole') (f := openedOn whole') served.up ?_) _ _ _ _⟩
    · exact dayCommitted_rendered ((Rendered.of_eq (by rw [opening]; rfl)).trans (@Rendered.report _ _ (.refl _) _))
    · exact dayCommitted_appended (f := openedOn whole') whole served.up (by simp [dayOpening, openDrawers])
    · exact dayCommitted_day (k := .dayOpen) (date := some whole') (f := openedOn whole') (u := dayOpening whole' s)
        (e := openedOn whole' s.store.day) whole served.up (by simp [dayOpening, openDrawers]) (fun _ _ => rfl) rfl
    · intro n
      simp only [respond_store, take_state, dayCommitted, report_store, notified_store, setApplied_store_drawers, dayOpening,
        openDrawers, opening, Table.get_map, if_true]
      rfl
    · intro n
      simp [respond, dayCommitted, dayOpening, openDrawers]
    · simp [dayOpening, openDrawers]
  case refine_2 =>
    intro served opened room
    have opening := appendDay_up .dayCloseBegin none closingDay served.up
    have taken := dayCloseTaken_eq served.up
    have frame : UnchangedBut [.journal, .day, .windows, .exu, .buffers, .screens, .inExecution] s
        (dayCommitted .closing s (dayClosing s)) := by simpa [taken] using dayClose_state_frame s
    refine ⟨_, exec_taken served rfl (restartNamed_none _ rfl s) (dayCloseChecks_pass officer opened room) taken rfl,
      respond_unchangedBut frame h _ _ _ _ (by decide) (by decide), ?_, ?_, ?_, ?_, ?_,
      answered_of_frame served frame (by simp [unitOf, requestKind]) (by decide)
        (dayCommitted_windows (k := .dayCloseBegin) (date := none) (f := closingDay) served.up ?_) _ _ _ _⟩
    · exact dayCommitted_rendered ((Rendered.of_eq (by rw [opening]; rfl)).trans (@Rendered.report _ (expireHeld _ _ _) (.refl _) _))
    · exact dayCommitted_appended (f := closingDay) whole served.up (by simp [dayClosing, expireDayClose, expireHeld])
    · exact dayCommitted_day (k := .dayCloseBegin) (date := none) (f := closingDay) (u := dayClosing s)
        (e := closingDay s.store.day) whole served.up (by simp [dayClosing, expireDayClose, expireHeld]) (fun _ _ => rfl) rfl
    · simp [respond, dayCommitted, dayClosing, expireDayClose, expireHeld, opening]
    · intro j
      simp [respond, dayCommitted, dayClosing, expireDayClose, expireHeld, opening, endHeld_eq]
    · simp [dayClosing, expireDayClose, expireHeld]
  case refine_3 =>
    intro served closing room
    obtain ⟨early, passing, checks⟩ := dayReopenChecks_split (s := s) officer closing room
    refine ⟨fun unsettled => ?_, fun n settled lowest => ?_⟩
    · have passed : ∀ c ∈ dayReopenChecks h s, c.pass = true := by
        rw [checks, List.forall_mem_append]
        exact ⟨passing, by simp [lowestSettled_none unsettled]⟩
      have taken := dayReopenTaken_eq served.up
      have frame : UnchangedBut [.journal, .day, .windows, .buffers, .screens, .inExecution] s
          (dayCommitted .opened s (appendDay .dayReopen none reopenedDay s)) := by simpa [taken] using dayReopen_state_frame s
      refine ⟨_, exec_taken served rfl (restartNamed_none _ rfl s) passed taken rfl,
        respond_unchangedBut frame h _ _ _ _ (by decide) (by decide), ?_, ?_, ?_,
        answered_of_frame served frame (by simp [unitOf, requestKind]) (by decide)
          (dayCommitted_windows (k := .dayReopen) (date := none) (f := reopenedDay) served.up rfl) _ _ _ _⟩
      · exact dayCommitted_rendered (.of_eq (by rw [appendDay_up _ _ _ served.up]; rfl))
      · exact dayCommitted_appended (f := reopenedDay) whole served.up rfl
      · exact dayCommitted_day (k := .dayReopen) (date := none) (f := reopenedDay) (e := reopenedDay s.store.day)
          whole served.up rfl (fun _ _ => rfl) rfl
    · have failed : firstFailure (dayReopenChecks h s) = some ⟨false, .wrongState, [some [.num n.val]]⟩ := by
        rw [checks, firstFailure_append, firstFailure_eq_none.mpr passing, lowestSettled_some settled lowest]; rfl
      exact ⟨_, exec_refused served rfl (restartNamed_none _ rfl s) failed,
        respond_unchangedBut (.refl [] s) h _ _ _ _ (by decide) (by decide),
        answered_of_frame served (.refl [] s) (by simp [unitOf, requestKind]) (by decide) (l := []) rfl _ _ _ _⟩
end

section
/-! SUPPORT. Enquiries: what an answer alone changes, the entries looked up by number, the records read with their checks
(R83, R94), and their images (R192). -/

namespace Sys2Proof.Table

/-- The first filled slot with a property is what a search through the slots finds. -/
theorem findSome_entries_first {α : Type} {n : Nat} {u : Table (Option α) n} {p : α → Bool} {i : Fin n} {a : α}
    (h : Machine.FirstWith u (fun x => p x = true) i a) :
    (u.entries.findSome? fun e => e.2.bind fun x => if p x then some (e.1, x) else none) = some (i, a) := by
  obtain ⟨here, has, before⟩ := h
  rw [entries, List.findSome?_map, List.findSome?_eq_some_iff]
  refine ⟨(List.finRange n).take i, i, (List.finRange n).drop (i + 1), ?_, ?_, fun j hj => ?_⟩
  · conv_lhs => rw [← List.take_append_drop i.val (List.finRange n), List.drop_eq_getElem_cons (by simp)]
    simp
  · simp [here, has]
  · obtain ⟨k, hk, rfl⟩ := List.getElem_of_mem hj
    have lt : k < i.val := by simp at hk; omega
    cases slot : u.get ⟨k, by omega⟩ with
    | none => simp [slot]
    | some b =>
      have := before ⟨k, by omega⟩ lt b slot
      simp [slot, this]

theorem findSome_entries_none {α : Type} {n : Nat} {u : Table (Option α) n} {p : α → Bool}
    (h : ∀ j a, u.get j = some a → p a = false) :
    (u.entries.findSome? fun e => e.2.bind fun x => if p x then some (e.1, x) else none) = none := by
  rw [List.findSome?_eq_none_iff]
  intro e he
  obtain ⟨j, -, rfl⟩ := List.mem_map.mp he
  cases slot : u.get j with
  | none => simp
  | some a => simp [h j a slot]

end Sys2Proof.Table

namespace Sys2Proof.Machine

/-! ### Answers that change nothing else -/

/-- An answer to a request in execution, on a state with the port as it was, is all that the port shows. -/
theorem respond_answered {h : ReqHead} {i : Instr} {s u : State} (here : s.port.inExecution.get h.master = some ⟨i, false⟩)
    (port : u.port = s.port) (k : Nat) (c : Code) (b : Bool) (fields : List (Option (List Item))) :
    Answered h k c b fields [] s (respond h k c b fields u) :=
  ⟨by rw [respond_windows h k c b fields (port ▸ here), port]; rfl, by rw [respond_port_inExecution, port],
    by rw [respond_port_order, port]⟩

/-- The command of a request served whether or not the store is open, where its checks pass and it is answered at once. -/
theorem exec_taken_always {h : ReqHead} {i : Instr} {s : State} (up : s.power = .up)
    (here : s.port.inExecution.get h.master = some ⟨i, false⟩) (turn : waitsTurn h i s = false) (quiet : NothingWaits s)
    (always : servedInvalid i = true) {checks : State → List Check} {taken : State → Verdict}
    (x : exec i s = .next (carry h i (fun s => judge (checks s) s (taken s)) s)) (unnamed : namedPosition i = .absent)
    (passed : ∀ c ∈ checks s, c.pass = true) {v : Verdict} (hv : taken s = v) (now : v.answered = true) :
    exec i s = .next (respond h ((requestKind i).getD 0) v.code v.masked v.fields v.state) := by
  have open' : shutOut i s = false := by simp [shutOut, always]
  have handed : handed h i s = some s := by simp [handed, up, here]
  rw [x, carry, handed]
  simp only [open', turn, somethingWaits_eq_false.mpr quiet, restartNamed_none i unnamed, Bool.false_eq_true, if_false]
  rw [judge_taken _ _ (firstFailure_eq_none.mpr passed), hv, settle, if_pos now]

/-! ### What an enquiry may tell (R15) -/

/-- A field kept from a station master while the day is CLOSING and the drawer not CLOSED. -/
theorem unlessBlind_eq (h : ReqHead) (s : State) (n : DrawerNo) (l : List Item) : unlessBlind h s n l =
    if h.master ≠ officerMaster ∧ s.store.day.state = .closing ∧ (s.store.drawers.get n).state ≠ .closed then none
    else some l := by
  simp [unlessBlind, isOfficer, blind]

/-! ### Records read with their checks (R83, R187) -/

/-- The state after records have been read: their faults captured and told. -/
def afterChecks (s : State) (l : List Record) : State :=
  { s with port := { s.port with
    fault := faultAfterChecks s l
    windows := notify (checkNotices l) s.port.windows } }

@[simp] theorem afterChecks_power (s : State) (l : List Record) : (afterChecks s l).power = s.power := by
  rw [afterChecks]

theorem captureFailed_up (r : Record) {s : State} (up : s.power = .up) : captureFailed s r = afterChecks s [r] := by
  unfold captureFailed
  split
  · rename_i ok
    simp [afterChecks, faultAfterChecks, checkNotices, ok]
  · rename_i bad
    rw [storeCheckFault, captureFault]
    dsimp only
    rw [raiseOfficer_up _ (by exact up)]
    cases held : s.port.fault.held <;>
      simp [afterChecks, faultAfterChecks, checkNotices, bad, held, notified]

/-- Records read after others add to what these left. -/
theorem afterChecks_cons (s : State) (r : Record) (l : List Record) :
    afterChecks (afterChecks s [r]) l = afterChecks s (r :: l) := by
  have notices : checkNotices (r :: l) = checkNotices [r] ++ checkNotices l := by
    simp only [checkNotices, ← List.map_append, ← List.filter_append]; rfl
  have fault : faultAfterChecks (afterChecks s [r]) l = faultAfterChecks s (r :: l) := by
    cases ok : r.checkOk
    · cases held : s.port.fault.held <;> cases rest : l.filter fun x => !x.checkOk <;>
        simp [afterChecks, faultAfterChecks, ok, held, rest]
      omega
    · simp [afterChecks, faultAfterChecks, ok]
  simp only [afterChecks, notices, notify_append] at fault ⊢
  rw [fault]

theorem foldl_captureFailed (l : List Record) {s : State} (up : s.power = .up) :
    l.foldl captureFailed s = afterChecks s l := by
  induction l generalizing s with
  | nil => simp [afterChecks, faultAfterChecks, checkNotices]
  | cons r rest ih =>
    rw [List.foldl_cons, captureFailed_up r up, ih ((afterChecks_power s [r]).trans up), afterChecks_cons]

/-! ### Record images (R192) -/

theorem presenceMask_eq_sum {α : Type} (l : List (Option α)) :
    presenceMask l = ((List.range l.length).map fun i => if (l[i]?.getD none).isSome = true then 2 ^ i else 0).sum := by
  induction l with
  | nil => rfl
  | cons f rest ih =>
    have tail (i : Nat) : (if (((f :: rest)[i + 1]?).getD none).isSome = true then 2 ^ (i + 1) else 0) =
        2 * (if ((rest[i]?).getD none).isSome = true then 2 ^ i else 0) := by
      rw [List.getElem?_cons_succ]; split <;> simp [Nat.pow_succ, Nat.mul_comm]
    rw [presenceMask, ih, List.length_cons, List.range_succ_eq_map, List.map_cons, List.sum_cons, List.map_map]
    simp only [Function.comp_def, tail, List.sum_map_mul_left]
    cases f <;> simp

theorem presenceMask_map {α β : Type} (f : α → β) (l : List (Option α)) :
    presenceMask (l.map (Option.map f)) = presenceMask l := by
  induction l with
  | nil => rfl
  | cons a rest ih => simp [presenceMask, ih]

theorem exchangeBytes_board (c : Foreign) (e : BoardEntry) (life gen : Nat) : (ExchangePart.board c e life gen).bytes =
    bytesOf 1 (c.val + 1) ++ bytesOf 4 (e.rates.getD (0, 0)).1 ++ bytesOf 4 (e.rates.getD (0, 0)).2 ++
      ([e.buyFee, e.sellFee].flatMap fun x => bytesOf 1 x.perMille ++ bytesOf 6 x.minimum ++ bytesOf 6 x.maximum) ++
      bytesOf 2 life ++ bytesOf 2 gen := by
  cases h : e.rates <;> simp [ExchangePart.bytes, feeBytes, h]

/-- The image of a record is laid out as the table of the Formats chapter says. -/
theorem image_eq_laidOut (r : Record) : r.image false = laidOut r := by
  have mask : presenceMask [r.position.map fun _ => (), r.teller.map fun _ => (), r.drawer.map fun _ => (),
      r.second.map fun _ => (), r.account.map fun _ => (), r.postKind.map fun _ => (), r.homeAmount.map fun _ => (),
      r.exchange.map fun _ => (), r.narrative.map fun _ => (), r.balance.map fun _ => (), r.reverses.map fun _ => ()] =
      ((List.range 11).map fun i => if ((imageFields r)[i]?.getD none).isSome = true then 2 ^ i else 0).sum := by
    rw [show 11 = (imageFields r).length from rfl, ← presenceMask_eq_sum, ← presenceMask_map (fun _ : List Byte => ()) (imageFields r)]
    simp only [imageFields, List.map_cons, List.map_nil, Option.map_map, Function.comp_def]
  have exchange : optBytes ExchangePart.bytes r.exchange = ((imageFields r)[7]?.getD none).getD [] := by
    cases e : r.exchange with
    | none => simp [optBytes, imageFields, e]
    | some x =>
      cases x with
      | conversion v q => simp [optBytes, imageFields, e, ExchangePart.bytes]
      | board c b life gen => simp only [optBytes, imageFields, e, Option.map, exchangeBytes_board]; rfl
  have fields : (imageFields r).flatMap (fun f => f.getD []) =
      optBytes (fun p => bytesOf 1 p.val) r.position ++ optBytes (bytesOf 2) r.teller ++
      optBytes (fun d => bytesOf 1 d.val) r.drawer ++ optBytes (fun d => bytesOf 1 d.val) r.second ++
      optBytes (packedDigits 6) r.account ++ optBytes (fun k => bytesOf 1 (postKindPlace k)) r.postKind ++
      optBytes amountBytes r.homeAmount ++ optBytes ExchangePart.bytes r.exchange ++
      optBytes (bytesOf 1) r.narrative ++ optBytes amountBytes r.balance ++ optBytes (bytesOf 2) r.reverses := by
    rw [exchange]; simp [imageFields, optBytes]
  have applied : r.applied.toNat = if r.applied = true then 1 else 0 := by cases r.applied <;> rfl
  have tender : (r.tender.flatMap fun e => bytesOf 1 (64 * (e.1.val / 12) + e.1.val % 12) ++ countBytes e.2) =
      r.tender.flatMap tenderBytes :=
    congrArg (fun f => r.tender.flatMap f) (funext fun e => by simp [tenderBytes, bytesOf])
  rw [laidOut]
  rw [← mask, fields, ← applied, tender, Record.image, Record.imageBody]
  simp only [List.append_assoc]
  cases r.disposition <;> rfl

theorem image_withheld (r : Record) : r.image true = laidOut { r with homeAmount := none, tender := [] } :=
  image_eq_laidOut { r with homeAmount := none, tender := [] }

theorem withheld_iff (h : ReqHead) (s : State) (r : Record) : withheld h s r = true ↔ KeptBack h s r := by
  simp only [withheld, KeptBack, namesOpenDrawer, isOfficer, dayIs]
  simp [and_assoc, or_and_right, exists_or]

theorem recordWords_told (h : ReqHead) (s : State) (r : Record) : RecordTold h s r (recordWords h s r) := by
  have length (image : List Byte) (w : Bool) : image.length + 32768 * (!r.checkOk).toNat + 16384 * w.toNat =
      image.length + (if r.checkOk = true then 0 else 32768) + if w = true then 16384 else 0 := by
    cases r.checkOk <;> cases w <;> rfl
  simp only [RecordTold, ← withheld_iff, recordWords, length]
  refine ⟨fun kept => ?_, fun told => ?_⟩
  · simp [kept, image_withheld]
  · simp [told, image_eq_laidOut]

end Sys2Proof.Machine

open Sys2Proof Sys2Proof.Machine

/-- Settles O40: each enquiry passes its checks and is answered with what its part reads; JOURNAL.READ besides leaves the
faults of the records it read, and SCREEN.ACTIVITY the restarted count. -/
theorem enquiriesTellWhatTheRecordsHold : Obligations.EnquiriesTellWhatTheRecordsHold := by
  unfold Obligations.EnquiriesTellWhatTheRecordsHold
  intro h s Tells
  have tells {i : Instr} (here : s.port.inExecution.get h.master = some ⟨i, false⟩) {kind : Nat}
      (number : requestKind i = some kind) {masked : Bool} {fields : List (Option (List Item))}
      (x : exec i s = .next (respond h ((requestKind i).getD 0) .done masked fields s)) : Tells i kind masked fields := by
    rw [number] at x
    exact ⟨_, x, respond_unchangedBut (.refl [] s) h _ _ _ _ (by decide) (by decide), respond_answered here rfl _ _ _ _⟩
  refine ⟨?_, ?_, ?_, ?_, ?_, ?_⟩
  case refine_1 =>
    intro n i d seen counts money served may
    have number : inRange 0 12 (.value n.val) = true := inRange_val n
    have passed : ∀ c ∈ drawerEnquireChecks h (.value n.val) s, c.pass = true := by
      simp only [drawerEnquireChecks, drawerOf_val, List.forall_mem_cons]
      exact ⟨by simp [may.1, number], forDrawer_pass may⟩
    refine tells served.here rfl (exec_taken (v := takeMasked s _) served rfl (restartNamed_none i rfl s) passed ?_ rfl)
    simp only [drawerEnquireTaken, drawerOf_val, unlessBlind_eq]
    rfl
  case refine_2 =>
    intro a first i served any digits range head
    have passed : ∀ c ∈ passbookEnquireChecks h ⟨.value a, .value first⟩, c.pass = true := by
      have number : inRange 0 23 (.value first) = true := (inRange_value ..).mpr ⟨Nat.zero_le _, range⟩
      simp only [passbookEnquireChecks, List.forall_mem_append, List.forall_mem_cons]
      refine ⟨anyMaster_pass any, ?_, by simp⟩
      simp [any.1, number, isDigits12, Fld.required, fitsDigits, digits]
    have told (fields : List (Option (List Item))) (v : passbookEnquireTaken ⟨.value a, .value first⟩ s = takeMasked s fields) :
        Tells i 97 true fields :=
      tells served.here rfl (exec_taken (v := takeMasked s fields) served rfl (restartNamed_none i rfl s) passed v rfl)
    refine ⟨fun absent => told _ ?_, fun j e found => told _ ?_⟩
    · have slot : accountSlot s a = none :=
        Table.findSome_entries_none (p := fun e : Account => e.number == a) fun j e here => by simpa using absent j e here
      simp only [passbookEnquireTaken, Fld.nat, Fld.getD, slot]
      rfl
    · have slot : accountSlot s a = some (j, e) :=
        Table.findSome_entries_first (p := fun e : Account => e.number == a) (by simpa using found)
      simp only [passbookEnquireTaken, Fld.nat, Fld.getD, slot]
      rfl
  case refine_3 =>
    intro sequence count i served any low high low' high' used records
    have passed : ∀ c ∈ journalReadChecks h ⟨.value sequence, .value count⟩ s, c.pass = true := by
      have n : inRange 1 8 (.value count) = true := (inRange_value ..).mpr ⟨low, high⟩
      have from' : inRange 1 16384 (.value sequence) = true := (inRange_value ..).mpr ⟨low', high'⟩
      simp only [journalReadChecks, List.forall_mem_append, List.forall_mem_cons]
      refine ⟨anyMaster_pass any, ?_, by simp⟩
      simp only [any.1, n, from', Bool.not_false, Bool.true_and]
      exact decide_eq_true used
    have taken : journalReadTaken h ⟨.value sequence, .value count⟩ s = take (afterChecks s records)
        [numField s.store.day.used, [.date (businessDate s)], numField s.store.header.readGeneration,
          [.words (records.flatMap (recordWords h s))]] := by
      rw [← foldl_captureFailed records served.up]; rfl
    have frame := journalRead_state_frame h ⟨.value sequence, .value count⟩ s
    rw [taken] at frame
    refine ⟨_, records.map (recordWords h s), exec_taken served rfl (restartNamed_none i rfl s) passed taken rfl,
      respond_unchangedBut frame h _ _ _ _ (by decide) (by decide), rfl, ?_, ?_⟩
    · rw [List.forall₂_map_right_iff, List.forall₂_same]
      exact fun r _ => recordWords_told h s r
    · rw [← List.flatMap_def]
      exact answered_of_frame served frame (by simp [i, unitOf, requestKind]) (by decide) rfl _ _ _ _
  case refine_4 =>
    intro any up here turn quiet f
    have passed : ∀ c ∈ faultReadChecks h, c.pass = true := by
      simp only [faultReadChecks, List.forall_mem_append, List.forall_mem_cons]
      exact ⟨anyMaster_pass any, by simp [bodyCheck, any.1], by simp⟩
    exact tells here rfl (exec_taken_always up here turn quiet rfl rfl rfl passed rfl rfl)
  case refine_5 =>
    intro any up here turn quiet day
    have passed : ∀ c ∈ partStatusChecks h, c.pass = true := by
      simp only [partStatusChecks, List.forall_mem_append, List.forall_mem_cons]
      exact ⟨anyMaster_pass any, by simp [bodyCheck, any.1], by simp⟩
    refine tells here rfl (exec_taken_always (v := takeMasked s _) up here turn quiet rfl rfl rfl passed ?_ rfl)
    have reference : statusReference s = if day.state = .delivered ∨ day.state = .noDay then
        day.reference.map fun l => [.text (l.map BitVec.toNat)] else none := by
      simp [statusReference, dayIs, day]
    rw [partStatusTaken, reference]
    rfl
  case refine_6 =>
    intro p i served may
    let s1 : State := { s with scu := restartedScu s p }
    have passed : ∀ c ∈ screenActivityChecks h (.value p.val) s1, c.pass = true := by
      have authority : ∀ c ∈ forPosition h s1 p, c.pass = true := forPosition_pass may
      have number : inRange 0 11 (.value p.val) = true := inRange_val p
      simp only [screenActivityChecks, positionOf_val, List.forall_mem_cons]
      exact ⟨by simp [may.1, number], authority⟩
    have state : screenState ((restartedScu s p).screens.get p) = screenState (s.scu.screens.get p) := by
      unfold restartedScu
      split
      · rw [Table.get_modify_self]; rfl
      · rfl
    have taken : screenActivityTaken (.value p.val) s1 = takeMasked s1
        [some [.num (screenState (s.scu.screens.get p)).place],
          ((restartedScu s p).screens.get p).idle.map fun n => [.num n]] := by
      rw [screenActivityTaken, positionOf_val, ← state]; rfl
    exact ⟨_, exec_taken served rfl (restartNamed_named i p rfl s) passed taken rfl,
      respond_unchangedBut (restartedScu_frame p s) h _ _ _ _ (by decide) (by decide), rfl,
      respond_answered served.here rfl _ _ _ _⟩
end

section
/-! SUPPORT. CASH.POST: its fields and checks by the posting's kind (R23 to R27), and the line intake as it is taken on a
state on the way to the commit (R34, R101). -/

namespace Sys2Proof.Machine

/-! ### The fields of a posting by its kind (R23) -/

/-- Kinds that cite a quote. -/
def citesQuote (k : PostKind) : Bool := k = .exchangeBuy ∨ k = .exchangeSell

/-- The home amount by the kind (R32). -/
def kindAmount (k : PostKind) (amount : Nat) (v : Conversion) : Int :=
  match k with
  | .deposit => amount
  | .withdrawal => -amount
  | .exchangeBuy => -v.cash
  | .exchangeSell => v.cash
  | .change => 0

theorem directionOf_eq (k : PostKind) : directionOf k =
    if citesQuote k = true then some (if k = .exchangeBuy then .buy else .sell) else none := by
  cases k <;> rfl

section
variable {k : PostKind} {r : PostReq} {account amount number : Nat} (h : PostFields k r account amount number)
include h

theorem kindFieldsOk_eq : kindFieldsOk r k = true := by
  cases k with
  | deposit | withdrawal =>
    obtain ⟨a, digits, n, low, -, q, b⟩ := h
    rcases b with b | ⟨x, b, -⟩ <;>
      simp [kindFieldsOk, a, n, q, b, isDigits12, Fld.required, fitsDigits, digits, amountGiven, isAbsent, Fld.optional] <;> omega
  | exchangeBuy | exchangeSell =>
    obtain ⟨a, n, q, low, high, b⟩ := h
    have range : inRange 1 65535 r.quote = true := by rw [q, inRange_value]; exact ⟨low, high⟩
    rcases a with a | ⟨a, digits⟩ <;> simp_all [kindFieldsOk, isAbsent, Fld.optional, fitsDigits]
  | change =>
    obtain ⟨a, n, q, b⟩ := h
    simp [kindFieldsOk, a, n, q, b, isAbsent, Fld.optional]

theorem postAmountsOk_eq : postAmountsOk r = true := by
  cases k with
  | deposit | withdrawal =>
    obtain ⟨-, -, n, -, high, -, b⟩ := h
    rcases b with b | ⟨x, b, small⟩ <;> simp [postAmountsOk, n, b, Fld.int, Fld.getD, Config.amountLimit] <;> omega
  | exchangeBuy | exchangeSell =>
    obtain ⟨-, n, -, -, -, b⟩ := h
    simp [postAmountsOk, n, b, Fld.int, Fld.getD, Config.amountLimit]
  | change =>
    obtain ⟨-, n, -, b⟩ := h
    simp [postAmountsOk, n, b, Fld.int, Fld.getD, Config.amountLimit]

/-- What the checks ask of a currency's net is what R26 requires of it. -/
theorem expectedNet_eq (kind : postKindOf r = k) {v : Conversion} {cited : Option Conversion}
    (quoted : cited = if citesQuote k = true then some v else none) (c : Currency) :
    expectedNet r cited c = requiredNet k amount v c := by
  subst quoted
  cases k with
  | deposit | withdrawal => obtain ⟨-, -, n, -⟩ := h; simp [expectedNet, requiredNet, kind, n, Fld.int, Fld.getD]
  | exchangeBuy | exchangeSell => simp [expectedNet, requiredNet, kind, citesQuote]
  | change => simp [expectedNet, requiredNet, kind]

/-- The home amount of the record by the posting's kind (R32). -/
theorem homeAmountOf_eq (kind : postKindOf r = k) {v : Conversion} {cited : Option Conversion}
    (quoted : cited = if citesQuote k = true then some v else none) : homeAmountOf r cited = kindAmount k amount v := by
  subst quoted
  cases k with
  | deposit | withdrawal => obtain ⟨-, -, n, -⟩ := h; simp [homeAmountOf, kindAmount, kind, n, Fld.int, Fld.getD]
  | exchangeBuy | exchangeSell => simp [homeAmountOf, kindAmount, kind, citesQuote]
  | change => simp [homeAmountOf, kindAmount, kind]

theorem quote_nat (cites : citesQuote k = true) : r.quote = .value number := by
  cases k with
  | deposit | withdrawal | change => simp [citesQuote] at cites
  | exchangeBuy | exchangeSell => obtain ⟨-, -, q, -⟩ := h; exact q

end

/-! ### The tender (R26) and the count checks (R4) -/

theorem deltaEntries_eq (t : Deltas) :
    deltaEntries t = (denoms.filter fun x => t.get x != 0).map fun x => (x, t.get x) := by
  rw [deltaEntries, Table.entries, List.filter_map]
  refine congrArg _ (List.filter_congr fun x _ => ?_)
  simp [bne, Bool.beq_eq_decide_eq]

theorem deltaEntries_isEmpty_false {t : Deltas} (h : ∃ x, t.get x ≠ 0) : (deltaEntries t).isEmpty = false := by
  obtain ⟨x, hx⟩ := h
  rw [List.isEmpty_eq_false_iff_exists_mem, deltaEntries_eq]
  exact ⟨(x, t.get x), List.mem_map.mpr ⟨x, by simp [denoms, hx], rfl⟩⟩

theorem countChecks_pass {d : Drawer} {t : Deltas} (h : FitsDrawer d t) : ∀ c ∈ countChecks d t, c.pass = true := by
  have short : shortSlot d t = none := by
    rw [shortSlot, List.find?_eq_none]
    intro x _ below
    obtain ⟨moved, below⟩ := of_decide_eq_true below
    have := (h x moved).1
    omega
  have high : overSlot d t = none := by
    rw [overSlot, List.find?_eq_none]
    intro x _ above
    obtain ⟨moved, above⟩ := of_decide_eq_true above
    have := (h x moved).2
    simp only [Config.countMax] at above
    omega
  simp [countChecks, short, high]

/-! ### The line intake (R101) -/

/-- What the Passbook Line Unit reads of a state at an intake is as in `s`. -/
structure SameLines (s u : State) : Prop where
  accounts : u.store.accounts = s.store.accounts
  classes : u.store.classes = s.store.classes
  lastTaken : u.store.lastTaken = s.store.lastTaken
  date : u.store.day.date = s.store.day.date
  clock : u.clock = s.clock

/-- A state with the lines of another, and the notices of the handover raised. -/
def withLines (lines : State) (l : List (Master × Detail)) (u : State) : State :=
  notified l { u with store := { u.store with
    accounts := lines.store.accounts
    lastTaken := lines.store.lastTaken } }

theorem withLines_self {s u : State} (h : SameLines s u) : withLines s [] u = u := by
  unfold withLines
  rw [← h.accounts, ← h.lastTaken]
  rfl

section
variable {s u : State} (h : SameLines s u)
include h

theorem SameLines.accountSlot (a : Nat) : accountSlot u a = Machine.accountSlot s a := by
  simp only [Machine.accountSlot, h.accounts]

theorem SameLines.isPassbook (a : Nat) : isPassbook u a = Machine.isPassbook s a := by
  simp only [Machine.isPassbook, classOf, h.classes]

theorem SameLines.entryFor (a : Nat) : entryFor u a = Machine.entryFor s a := by
  simp only [Machine.entryFor, h.accountSlot, entryToTake, oldestReclaimable, h.accounts, touch, h.clock]

theorem SameLines.recordKey (q : Nat) : recordKey u q = Machine.recordKey s q := by
  simp only [Machine.recordKey, businessDate, h.date]

theorem SameLines.alreadyTaken (k : Key) : alreadyTaken u k = Machine.alreadyTaken s k := by
  simp only [Machine.alreadyTaken, h.lastTaken]

theorem SameLines.earlierDisposition (a : Nat) (k : Key) : earlierDisposition a k u = Machine.earlierDisposition a k s := by
  unfold Machine.earlierDisposition holdsLine
  rw [h.accountSlot, h.isPassbook]

/-- Steps 2 to 5 of R101 on a state on the way to the commit, and the key they set. -/
theorem takeLine_withLines (up : u.power = .up) (a : Nat) (l : Line) (k : Key) :
    (setLastTaken k (takeLine a l u).1, (takeLine a l u).2) =
      (withLines (setLastTaken k (takeLine a l s).1)
        (if (takeLine a l s).2 = .notHeld then [(officerMaster, .passbookFull a)] else []) u, (takeLine a l s).2) := by
  unfold takeLine placeLine
  simp only [h.accountSlot, h.isPassbook, h.entryFor]
  split
  · simp [withLines, setLastTaken, ← h.accounts]
  · cases Machine.entryFor s a with
    | some e => simp [withLines, setLastTaken, setAccount, h.accounts, touch, h.clock]
    | none =>
      have full : raiseFull a u = notified [(officerMaster, .passbookFull a)] u := raiseOfficer_up _ up
      have accounts : (raiseFull a s).store.accounts = u.store.accounts := by simp [raiseFull, raiseOfficer, h.accounts]
      simp only [full, withLines, setLastTaken, accounts]
      rfl

/-- An intake on a state on the way to the commit does to it what it does to the state before. -/
theorem intakeLine_withLines (up : u.power = .up) (r : Record) :
    intakeLine r u = (withLines (intakeLine r s).1 (fullNotice s r (intakeLine r s).2) u, (intakeLine r s).2) := by
  unfold intakeLine
  dsimp only
  rw [h.recordKey, h.alreadyTaken, h.earlierDisposition]
  by_cases taken : Machine.alreadyTaken s (Machine.recordKey s r.sequence) = true
  · simp only [taken, if_true, fullNotice, Bool.true_eq_false, and_false, if_false, withLines_self h]
  · simp only [taken, Bool.false_eq_true, if_false, fullNotice, and_true]
    exact takeLine_withLines h up _ _ _

end

/-! ### The quote cited (R24 step 5, R31) -/

theorem quoteSlot_first {u : Exu} {number : Nat} {j : Fin 16} {q : Quote}
    (h : FirstWith u.quotes (fun x => x.number = number) j q) : quoteSlot u number = some (j, q) :=
  Table.findSome_entries_first (p := fun x : Quote => x.number == number) (by simpa using h)

/-- The quote an exchange cites: the first of its number, HELD, of the position and of the kind's direction. -/
def CitesHeld (k : PostKind) (p : Position) (number : Nat) (j : Fin 16) (q : Quote) (u : Exu) : Prop :=
  citesQuote k = true → FirstWith u.quotes (fun x => x.number = number) j q ∧ q.state = .held ∧ q.position = p ∧
    q.direction = if k = .exchangeBuy then .buy else .sell

section
variable {k : PostKind} {r : PostReq} {p : Position} {account amount number : Nat} {j : Fin 16} {q : Quote} {s : State}
variable (kind : postKindOf r = k) (fields : PostFields k r account amount number) (cites : CitesHeld k p number j q s.exu)
include kind fields cites

theorem citedValues_eq : citedValues s r = if citesQuote k = true then some q.values else none := by
  rw [citedValues, kind, directionOf_eq]
  split
  · rename_i exchange
    rw [quote_nat fields exchange, Fld.nat, Fld.getD, quoteSlot_first (cites exchange).1]
    rfl
  · rfl

theorem quoteCitedOk_eq (position : r.position = .value p.val) : quoteCitedOk s r = true := by
  rw [quoteCitedOk, kind, directionOf_eq]
  split
  · rename_i exchange
    obtain ⟨first, held, own, direction⟩ := cites exchange
    rw [Option.elim, quoteUsable, quote_nat fields exchange, Fld.nat, Fld.getD, quoteSlot_first first]
    simp [isHeld, held, position, own, direction]
  · rfl

/-- The use of the quote cited: it is USED, and reported. -/
theorem useCited_eq : useCited r s = if citesQuote k = true then
    report [.quoteLeft q.position] (setQuote j { q with state := .used } s) else s := by
  rw [useCited, kind, directionOf_eq]
  split
  · rename_i exchange
    rw [Option.isSome_some, if_pos rfl, useQuote, quote_nat fields exchange, Fld.nat, Fld.getD,
      quoteSlot_first (cites exchange).1]
  · rfl

end

/-! ### The tender meets its kind (R26) -/

theorem mismatch_eq_none {k : PostKind} {r : PostReq} {account amount number : Nat} {v : Conversion} {s : State}
    {l : List PostEntry} (kind : postKindOf r = k) (fields : PostFields k r account amount number)
    (tender : r.tender = .value l) (quoted : citedValues s r = if citesQuote k = true then some v else none)
    (meets : ∀ c, match requiredNet k amount v c with
      | some x => deltaValue s c (netDeltas l) = x
      | none => ∀ e ∈ l, e.currency ≠ c.val)
    (changes : k = .change → ∃ x, (netDeltas l).get x ≠ 0) : mismatch s r = none := by
  have list : postTender r = l := by rw [postTender, tender]; rfl
  have deltas : postDeltas r = netDeltas l := by rw [postDeltas, list]
  have all : currencies.find? (fun c => !netMeets s r (citedValues s r) c) = none := by
    rw [List.find?_eq_none]
    intro c _
    have required := meets c
    rw [netMeets, expectedNet_eq fields kind quoted c, deltas, list]
    cases net : requiredNet k amount v c with
    | some x => simpa [net] using required
    | none => simpa [net, namesCurrency] using required
  have left : leavesNothing r = false := by
    rw [leavesNothing, kind, deltas]
    by_cases change : k = .change
    · simp [deltaEntries_isEmpty_false (changes change)]
    · simp [change]
  rw [mismatch, all, left]
  rfl

/-! ### The checks of CASH.POST (R24) -/

@[simp] theorem restartedScu_lockHeld (s : State) (p x : Position) :
    ((restartedScu s p).screens.get x).lockHeld = (s.scu.screens.get x).lockHeld := by
  unfold restartedScu
  split
  · rw [Table.get_modify]; split <;> simp_all
  · rfl

section
variable {h : ReqHead} {r : PostReq} {k : PostKind} {p : Position} {n : DrawerNo} {account amount number narrative : Nat}
  {l : List PostEntry} {j : Fin 16} {q : Quote} {s : State}
variable (position : r.position = .value p.val) (kind : r.kind = .value k) (bound : (s.store.positions.get p).drawer = some n)
include position

theorem drawerAt_eq (bound : (s.store.positions.get p).drawer = some n) : drawerAt s r.position = n := by
  rw [drawerAt, position, positionOf_val, boundDrawer, bound]; rfl

theorem counterChecks_pass (may : MayActFor h s p) (opened : s.store.day.state = .opened)
    (bound : (s.store.positions.get p).drawer = some n) (unlocked : (s.scu.screens.get p).lockHeld = false) :
    ∀ c ∈ counterChecks h s r.position, c.pass = true := by
  have authority := positionChecks_pass may
  simp only [counterChecks, position, positionOf_val, List.forall_mem_append, List.forall_mem_cons]
  exact ⟨authority, by simp [dayIs, opened], by simp [boundDrawer, bound], by simp [isLocked, unlocked], by simp⟩

end

section
variable {h : ReqHead} {r : PostReq} {k : PostKind} {account amount number narrative : Nat} {l : List PostEntry} {s : State}

theorem postFieldsOk_eq (spare : h.spare = false) (kind : r.kind = .value k) (fields : PostFields k r account amount number)
    (narr : r.narrative = .value narrative) (text : narrative ≤ 63) (tender : r.tender = .value l) (low : 1 ≤ l.length)
    (high : l.length ≤ 12) (entries : ∀ e ∈ l, namesDenom s e.currency e.index = true ∧ e.countIn ≤ 65535 ∧
      e.countOut ≤ 65535 ∧ (0 < e.countIn ∨ 0 < e.countOut)) : postFieldsOk h r s = true := by
  have kindOf : postKindOf r = k := by rw [postKindOf, kind]; rfl
  have words : inRange 0 63 r.narrative = true := by rw [narr, inRange_value]; exact ⟨Nat.zero_le _, text⟩
  have length : lengthOk l = true := by simp [lengthOk, between, low, high]
  have all : l.all (postEntryOk s) = true := by
    rw [List.all_eq_true]
    intro e he
    obtain ⟨names, countIn, countOut, some⟩ := entries e he
    simp [postEntryOk, names, Config.countMax, countIn, countOut, some]
  simp [postFieldsOk, spare, kind, kindOf, kindFieldsOk_eq fields, words, tender, Fld.required, length, all]

end

/-! ### The commit of a posting (R30 to R35) -/

theorem handLine_eq_lineOf {r : Record} {k : PostKind} (kind : r.postKind = some k) (u : State) :
    handLine r u = lineOf k r u := by
  have makes : makesLine (some k) = true ↔ k = .deposit ∨ k = .withdrawal := by simp [makesLine]
  unfold handLine lineOf
  simp only [kind, makes]

theorem lineOf_withLines {s u : State} (h : SameLines s u) (up : u.power = .up) (k : PostKind) (r : Record) :
    lineOf k r u = (withLines (lineOf k r s).1 (fullNotice s r (lineOf k r s).2) u, (lineOf k r s).2) := by
  unfold lineOf
  split
  · exact intakeLine_withLines h up r
  · simp [fullNotice, withLines_self h]

section
variable {s t : State} (drawers : t.store.drawers = s.store.drawers) (currencies : t.store.currencies = s.store.currencies)
include drawers currencies

theorem markAfter_congr (n : DrawerNo) (c : Counts) : markAfter t n c = markAfter s n c := by
  simp only [markAfter, drawers, valueOf_congr currencies]

/-- What a cash change makes of a drawer depends on the drawers and the currencies alone. -/
theorem afterCash_congr (n : DrawerNo) (deltas : Deltas) (q : Nat) (r : Int) :
    afterCash t n deltas q r = afterCash s n deltas q r := by
  simp only [afterCash, markAfter_congr drawers currencies, drawers, inflow, outflow, faceOf, currencies]

theorem cashNotices_congr (positions : t.store.positions = s.store.positions)
    (day : t.store.day.state = s.store.day.state) (n : DrawerNo) (c : Counts) :
    cashNotices t n c = cashNotices s n c := by
  have alert (e : AlertEvent) (total : Nat) : alertNotices t n e total = alertNotices s n e total :=
    alertNotices_congr (by rw [drawers]) (by rw [drawers]) day positions e total
  simp only [cashNotices, markNotices, markAfter_congr drawers currencies, alert, homeTotal_congr currencies,
    valueOf_congr currencies, drawers]

end

/-- The state a posting leaves before its record is marked, `x` being the one after the quote's use: the record appended,
the cash changed and the line handed over. -/
def postedState (k : PostKind) (r : Record) (n : DrawerNo) (deltas : Deltas) (s x : State) : State :=
  withLines (lineOf k r s).1 (fullNotice s r (lineOf k r s).2)
    (cashChange n deltas (s.store.day.used + 1) (remainderOf r) (notified (highNotice s) (writeAppend r x)))

section
variable {k : PostKind} {r : Record} {n : DrawerNo} {deltas : Deltas} {s x : State}

theorem postedState_store (store : x.store = s.store) (clock : x.clock = s.clock) :
    (postedState k r n deltas s x).store = { (writeAppend r s).store with
      drawers := s.store.drawers.set n (afterCash s n deltas (s.store.day.used + 1) (remainderOf r))
      accounts := (lineOf k r s).1.store.accounts
      lastTaken := (lineOf k r s).1.store.lastTaken } := by
  have append : (writeAppend r x).store = (writeAppend r s).store := by
    simp only [writeAppend, stampRecord, nextSequence, store, clock]
  have after : afterCash (notified (highNotice s) (writeAppend r x)) n deltas (s.store.day.used + 1) (remainderOf r) =
      afterCash s n deltas (s.store.day.used + 1) (remainderOf r) :=
    afterCash_congr (by rw [notified_store, append]; rfl) (by rw [notified_store, append]; rfl) _ _ _ _
  rw [postedState, withLines, notified_store]
  simp only [cashChange_store, after, notified_store, append]
  rfl

theorem postedState_windows (store : x.store = s.store) (up : x.power = .up) (windows : x.port.windows = s.port.windows) :
    (postedState k r n deltas s x).port.windows = notify (highNotice s ++ cashNotices s n
      (applyDeltas (s.store.drawers.get n).current deltas) ++ fullNotice s r (lineOf k r s).2) s.port.windows := by
  let v : State := notified (highNotice s) (writeAppend r x)
  have drawers : v.store.drawers = s.store.drawers := by rw [← store]; rfl
  have notices (c : Counts) : cashNotices v n c = cashNotices s n c :=
    cashNotices_congr drawers (by rw [← store]; rfl) (by rw [← store]; rfl) (by rw [← store]; rfl) n c
  rw [postedState, withLines, notified_windows]
  change notify _ (cashChange n deltas _ _ v).port.windows = _
  rw [cashChange_windows _ _ _ _ (by exact up), notices, drawers, notified_windows, writeAppend_port, windows,
    notify_append, notify_append]

theorem postedState_exu : (postedState k r n deltas s x).exu = x.exu :=
  (cashChange_frame n deltas (s.store.day.used + 1) (remainderOf r) (notified (highNotice s) (writeAppend r x))).get .exu
    (by decide)

theorem postedState_rendered (h : Rendered s.scu x.scu) : Rendered s.scu (postedState k r n deltas s x).scu :=
  h.trans (cashChange_rendered n deltas _ _ (notified _ (writeAppend r x)))

end

/-- The record of a posting, with its sequence. -/
def postedRecord (s : State) (r : PostReq) : Record := { postRecord s r with sequence := s.store.day.used + 1 }

section
variable {k : PostKind} {r : PostReq} {n : DrawerNo} {s : State}

theorem useCited_store (r : PostReq) (s : State) : (useCited r s).store = s.store := by
  unfold useCited useQuote
  split
  · split <;> simp [setQuote]
  · rfl

theorem useCited_rendered (r : PostReq) (s : State) : Rendered s.scu (useCited r s).scu := by
  unfold useCited useQuote
  split
  · split
    · exact report_rendered _ (setQuote _ _ s)
    · exact .refl _
  · exact .refl _

theorem commitPost_eq (up : s.power = .up) (drawer : drawerAt s r.position = n) (kind : postKindOf r = k) :
    commitPost r s =
      (setApplied (s.store.day.used + 1) (lineOf k (postedRecord s r) s).2
        (postedState k (postedRecord s r) n (postDeltas r) s (useCited r s)), (lineOf k (postedRecord s r) s).2) := by
  let x := useCited r s
  let v : State := notified (highNotice s) (writeAppend (postedRecord s r) x)
  let w : State := cashChange n (postDeltas r) (s.store.day.used + 1) (remainderOf (postedRecord s r)) v
  have store : x.store = s.store := useCited_store r s
  have frame : UnchangedBut [.drawers, .windows, .buffers, .screens, .inExecution] v w :=
    cashChange_frame _ _ _ _ v
  have power : x.power = .up := ((useCited_frame r s).get .power (by decide)).trans up
  have clock : x.clock = s.clock := (useCited_frame r s).get .clock (by decide)
  have appended : appendRecord (postedRecord s r) x = v := by
    rw [appendRecord_up _ power, highNotice, store]; rfl
  have same : SameLines s w := by
    refine ⟨?_, ?_, ?_, ?_, ?_⟩
    · exact (frame.get .accounts (by decide)).trans (by rw [← store]; rfl)
    · exact (frame.get .classes (by decide)).trans (by rw [← store]; rfl)
    · exact (frame.get .lastTaken (by decide)).1.trans (by rw [← store]; rfl)
    · exact (congrArg DayRecord.date (frame.get .day (by decide))).trans (by rw [← store]; rfl)
    · exact (frame.get .clock (by decide)).trans clock
  have made : (postedRecord s r).postKind = some k := by rw [← kind]; rfl
  have handed := lineOf_withLines same ((frame.get .power (by decide)).trans power) k (postedRecord s r)
  have here : drawerAt v r.position = n := by
    rw [← drawer, drawerAt, drawerAt, boundDrawer, boundDrawer, ← store]; rfl
  have commit (m : State) (e : appendRecord (postedRecord s r) x = m) :
      let y := handLine (postedRecord s r) (cashChange (drawerAt m r.position) (postDeltas r) (s.store.day.used + 1)
        (remainderOf (postedRecord s r)) m)
      commitPost r s = (setApplied (s.store.day.used + 1) y.2 y.1, y.2) := by subst e; rfl
  rw [commit v appended, here, handLine_eq_lineOf made, handed]
  rfl

/-- The record of a posting, field by field, as R32 gives it. -/
theorem postedRecord_eq {p : Position} {account amount number narrative : Nat} {l : List PostEntry} {j : Fin 16} {q : Quote}
    (position : r.position = .value p.val) (kind : r.kind = .value k) (fields : PostFields k r account amount number)
    (narr : r.narrative = .value narrative) (tender : r.tender = .value l)
    (bound : (s.store.positions.get p).drawer = some n) (cites : CitesHeld k p number j q s.exu) :
    postedRecord s r = { emptyRecord .posting with
      sequence := s.store.day.used + 1
      position := some p
      teller := (s.store.positions.get p).teller
      drawer := some n
      account := r.account.toOption
      postKind := some k
      homeAmount := some (kindAmount k amount q.values)
      exchange := if citesQuote k = true then some (.conversion q.values number) else none
      tender := (denoms.filter fun x => (netDeltas l).get x != 0).map fun x => (x, (netDeltas l).get x)
      narrative := some narrative
      balance := r.balance.toOption } := by
  have kindOf : postKindOf r = k := by rw [postKindOf, kind]; rfl
  have quoted := citedValues_eq kindOf fields cites
  have deltas : postDeltas r = netDeltas l := by rw [postDeltas, postTender, tender]; rfl
  have drawer := drawerAt_eq position bound
  rw [position] at drawer
  have exchange : ((if citesQuote k = true then some q.values else none).map fun v => ExchangePart.conversion v r.quote.nat) =
      if citesQuote k = true then some (.conversion q.values number) else none := by
    split
    · rename_i cited; rw [quote_nat fields cited]; rfl
    · rfl
  simp only [postedRecord, postRecord, homeAmountOf_eq fields kindOf quoted]
  simp only [quoted, exchange, deltas, deltaEntries_eq, position, drawer, kindOf, positionOf_val, narr, tellerAt]
  rfl

end

end Sys2Proof.Machine

open Sys2Proof Sys2Proof.Machine

/-- Settles O32: the checks pass on the state with the idle count restarted, and the commit is `postedState` with its
record marked. -/
theorem postingsCommitRecordDrawerQuoteAndLine : Obligations.PostingsCommitRecordDrawerQuoteAndLine := by
  unfold Obligations.PostingsCommitRecordDrawerQuoteAndLine
  intro h r k p n account amount number narrative l j q s i exchange d deltas v sequence served may whole opened bound
    unlocked position kind narr text tender fields low high entries quote meets changes restricted fits room record line
    after
  let s1 : State := { s with scu := restartedScu s p }
  have restarted : restartNamed i s = s1 := restartNamed_named i p position s
  have kindOf : postKindOf r = k := by rw [postKindOf, kind]; rfl
  have cites : CitesHeld k p number j q s1.exu := quote
  have quoted : citedValues s1 r = if exchange = true then some v else none := citedValues_eq kindOf fields cites
  have net : postDeltas r = deltas := by rw [postDeltas, postTender, tender]; rfl
  have drawer : drawerAt s1 r.position = n := drawerAt_eq position bound
  have posted : postedRecord s1 r = record := by
    rw [postedRecord_eq (s := s1) position kind fields narr tender bound cites]
    simp only [record]
    congr 1
    · cases r.account <;> rfl
    · cases r.balance <;> rfl
  have remainder : remainderOf record = if exchange then (v.remainder : Int) else 0 := by
    by_cases cited : exchange = true
    · simp [remainderOf, record, cited, emptyRecord]
    · simp [remainderOf, record, cited]
  have passed : ∀ c ∈ cashPostChecks h r s1, c.pass = true := by
    have mark : (raisesHome k && d.excess) = false := by
      cases k <;> simp_all [raisesHome]
    simp only [cashPostChecks, drawer, net, kindOf, List.forall_mem_append, List.forall_mem_cons]
    refine ⟨⟨⟨counterChecks_pass position may opened bound (by simpa [s1] using unlocked), ?_⟩, countChecks_pass fits⟩, ?_⟩
    · exact ⟨postFieldsOk_eq may.1 kind fields narr text tender low high entries, postAmountsOk_eq fields,
        quoteCitedOk_eq kindOf fields cites position,
        by rw [mismatch_eq_none kindOf fields tender quoted meets changes]; rfl, by rw [show (s1.store.drawers.get n).excess = d.excess from rfl, mark]; rfl, by simp⟩
    · simpa [roomFor, holdLimit, Config.ordinaryLimit, s1] using room
  have lines := lineOf_withLines (s := s) (u := s1) ⟨rfl, rfl, rfl, rfl, rfl⟩ served.up k record
  have found : (lineOf k record s1).2 = line.2 := by rw [lines]
  let x : State := useCited r s1
  let u : State := postedState k record n deltas s1 x
  have store : x.store = s1.store := useCited_store r s1
  have exu : x.exu = if exchange then { s.exu with quotes := s.exu.quotes.set j (some { q with state := .used }) } else s.exu := by
    simp only [x, useCited_eq kindOf fields cites]
    change (if exchange = true then _ else s1 : State).exu = _
    split
    · rw [report_exu]; rfl
    · rfl
  have commit : commitPost r s1 = (setApplied sequence line.2 u, line.2) := by
    rw [commitPost_eq (s := s1) served.up drawer kindOf, posted, net, found]
  have clock : x.clock = s1.clock := (useCited_frame r s1).get .clock (by decide)
  have power : x.power = .up := ((useCited_frame r s1).get .power (by decide)).trans served.up
  have uStore := postedState_store (k := k) (r := record) (n := n) (deltas := deltas) store clock
  have drawers : u.store.drawers = s.store.drawers.set n after := by
    rw [uStore, remainder]; rfl
  have taken : cashPostTaken r s1 = takeMasked (setApplied sequence line.2 u)
      [some [.num sequence], some [.num n.val], some [.amount (homeTotal s after)], some [.flag after.excess],
        some [.num line.2.place],
        if exchange then some [.amount v.amount, .amount v.cash, .amount v.remainder, .num number] else none] := by
    have values : exchangeFields (citedValues s1 r) r.quote.nat =
        [if exchange then some [.amount v.amount, .amount v.cash, .amount v.remainder, .num number] else none] := by
      rw [quoted]
      split
      · rename_i cited; rw [quote_nat fields cited]; rfl
      · rfl
    have home : homeTotal (setApplied sequence line.2 u) after = homeTotal s after :=
      homeTotal_congr (by rw [setApplied_store_currencies, uStore]; rfl) after
    simp only [cashPostTaken, commit, drawer, values, setApplied_store_drawers, drawers, Table.get_set_self, home]
    rfl
  have frame : UnchangedBut [.screens, .idles, .journal, .day, .windows, .exu, .drawers, .accounts, .lastTaken, .buffers,
      .inExecution] s (setApplied sequence line.2 u) := by
    have own := cashPost_state_frame r s1
    rw [taken] at own
    exact ((restartedScu_frame p s).mono (by decide)).trans (own.mono (by decide))
  have windows : (setApplied sequence line.2 u).port.windows =
      notify (highNotice s ++ cashNotices s n after.current ++ fullNotice s record line.2) s.port.windows := by
    have own := postedState_windows (k := k) (r := record) (n := n) (deltas := deltas) store power
      ((useCited_frame r s1).get .windows (by decide))
    rw [lines] at own
    exact own
  refine ⟨_, exec_taken served rfl restarted passed taken rfl, respond_unchangedBut frame h _ _ _ _ (by decide) (by decide),
    ?_, ?_, drawers, ?_, ?_, ?_, ?_, answered_of_frame served frame (by simp [i, unitOf, requestKind]) (by decide) windows _ _ _ _⟩
  · exact postedState_rendered (k := k) (s := s1) (useCited_rendered r s1)
  · exact (setApplied_committed whole (by rw [uStore]; rfl) (by rw [uStore]; rfl) :)
  · exact (postedState_exu (k := k)).trans exu
  · exact (congrArg Store.accounts uStore).trans (by rw [lines]; rfl)
  · exact (congrArg Store.lastTaken uStore).trans (by rw [lines]; rfl)
  · exact (congrArg Store.lastAnswer uStore :)
end

section
/-! SUPPORT. Jobs ended (R117) and cancelled in turn at the day's seal (R136). -/

namespace Sys2Proof.Table

/-- Where some slot has a property, there is a first such slot. -/
theorem exists_firstWith {α : Type} {n : Nat} {u : Table (Option α) n} {p : α → Prop}
    (h : ∃ i a, u.get i = some a ∧ p a) : ∃ i a, Machine.FirstWith u p i a := by
  obtain ⟨i, ⟨a, here, has⟩, least⟩ :=
    (wellFounded_lt : WellFounded fun i j : Fin n => i < j).has_min {i | ∃ a, u.get i = some a ∧ p a} h
  exact ⟨i, a, here, has, fun j hj b slot is => least j ⟨b, slot, is⟩ hj⟩

/-- A search through the slots finds the first filled slot with a property, and nothing else. -/
theorem findSome_entries_iff {α : Type} {n : Nat} {u : Table (Option α) n} {p : α → Bool} {i : Fin n} {a : α} :
    (u.entries.findSome? fun e => e.2.bind fun x => if p x then some (e.1, x) else none) = some (i, a) ↔
      Machine.FirstWith u (fun x => p x = true) i a := by
  refine ⟨fun h => ?_, findSome_entries_first⟩
  have some' : ∃ j b, u.get j = some b ∧ p b = true := by
    by_contra none
    have := findSome_entries_none (u := u) (p := p) fun j b slot => Bool.eq_false_iff.mpr fun is => none ⟨j, b, slot, is⟩
    exact Option.some_ne_none _ (h.symm.trans this)
  obtain ⟨j, b, first⟩ := exists_firstWith some'
  obtain ⟨rfl, rfl⟩ := Prod.mk.inj (Option.some.inj ((findSome_entries_first first).symm.trans h))
  exact first

end Sys2Proof.Table

namespace Sys2Proof.Machine

/-! ### The account of a number -/

theorem accountSlot_eq_some {s : State} {number : Nat} {k : Fin 64} {a : Account} :
    accountSlot s number = some (k, a) ↔ FirstWith s.store.accounts (fun e => e.number = number) k a :=
  (Table.findSome_entries_iff (p := fun e : Account => e.number == number)).trans (by simp)

theorem jobSlot_eq_some {s : State} {id : Nat} {i : Fin 16} {j : Job} :
    jobSlot s id = some (i, j) ↔ FirstWith s.pru.jobs (fun x => x.id = id) i j :=
  (Table.findSome_entries_iff (p := fun x : Job => x.id == id)).trans (by simp)

/-- An account's entry put back changed, under the same number, is still the account's entry. -/
theorem accountSlot_setAccount {s : State} {number : Nat} {k : Fin 64} {a b : Account}
    (h : accountSlot s number = some (k, a)) (same : b.number = a.number) :
    accountSlot (setAccount k b s) number = some (k, b) := by
  obtain ⟨here, is, before⟩ := accountSlot_eq_some.mp h
  refine accountSlot_eq_some.mpr ⟨Table.get_set_self _ _ _, same.trans is, fun j hj e slot => ?_⟩
  rw [setAccount, Table.get_set, if_neg (Fin.ne_of_gt hj)] at slot
  exact before j hj e slot

theorem endAtPlu_eq (j : Job) (s : State) :
    endAtPlu j s = { s with store := { s.store with accounts := accountsAfterJob s j } } := by
  unfold endAtPlu endJobReference releaseSnapshot accountsAfterJob changeAccount
  cases slot : accountSlot s j.account with
  | none => simp [slot]
  | some e =>
    obtain ⟨k, a⟩ := e
    by_cases empty : j.snapshot.getD [] = []
    · simp [slot, empty, setAccount, touch]
    · have again := accountSlot_setAccount (b := touch s (releaseEntry a)) slot rfl
      simp only [List.isEmpty_iff, empty, if_false, again]
      simp [setAccount, touch]

/-! ### A job ended (R117) -/

theorem setNote_pru (j : Job) (status : NoteStatus) (s : State) :
    (setNote j status s).pru = { s.pru with notes := notedAs s j status } := by
  unfold setNote notedAs
  cases note : s.pru.notes.get j.position with
  | none => simp
  | some n =>
    by_cases own : n.id = j.id
    · simp [own]
    · simp [own]

theorem setNote_rendered (j : Job) (status : NoteStatus) (s : State) : Rendered s.scu (setNote j status s).scu := by
  have reported (x : Pru) (rs : List Report) : Rendered s.scu (report rs { s with pru := x }).scu :=
    report_rendered rs { s with pru := x }
  unfold setNote
  split
  · split
    · exact reported _ _
    · exact .refl _
  · exact .refl _

/-- The state after steps 1 to 5 of R117. -/
def endedState (i : Fin 16) (j : Job) (o : JobEnd) (s : State) : State :=
  raiseAt j.position (.printDone j.id j.printer o) (setNote j (.ended o) (removeJob i j (endAtPlu j s)))

section
variable (i : Fin 16) (j : Job) (o : JobEnd) (s : State)

theorem endedState_frame :
    UnchangedBut [.accounts, .pru, .buffers, .screens, .windows, .inExecution] s (endedState i j o s) :=
  raiseAt_unchanged _ _ (by decide) (setNote_unchanged _ _ (by decide) (removeJob_unchanged _ _ (by decide)
    ((endAtPlu_frame j s).mono (by decide))))

theorem endJob_eq : endJob i j o s = freePrinter j (endedState i j o s) := rfl

end

section
variable {i : Fin 16} {j : Job} {o : JobEnd} {s : State} (up : s.power = .up)
include up

/-- Steps 1 to 5 of R117, up to the engine. -/
theorem endedState_jobEnded : JobEnded s (endedState i j o s) i j o
    { s.pru.engines.get j.printer with queue := (s.pru.engines.get j.printer).queue.filter (· != j.id) } := by
  let u : State := setNote j (.ended o) (removeJob i j (endAtPlu j s))
  have frame : UnchangedBut [.accounts, .pru, .buffers, .screens, .inExecution] s u :=
    setNote_unchanged _ _ (by decide) (removeJob_unchanged _ _ (by decide) ((endAtPlu_frame j s).mono (by decide)))
  have raised : endedState i j o s = notified [(servingMaster s j.position, .printDone j.id j.printer o)] u := by
    rw [endedState, raiseAt_up _ _ ((frame.get .power (by decide)).trans up), servingMaster,
      show u.store.positions = s.store.positions from frame.get .positions (by decide)]
    rfl
  refine ⟨endedState_frame i j o s, ?_, ?_, ?_, ?_⟩
  · rw [raised]
    exact (Rendered.of_eq (by rw [endAtPlu_eq]; rfl)).trans (setNote_rendered j _ (removeJob i j (endAtPlu j s)))
  · rw [raised]
    exact ((setNote_frame j (.ended o) (removeJob i j (endAtPlu j s))).get .accounts (by decide)).trans
      (by rw [endAtPlu_eq]; rfl)
  · rw [raised, notified_pru, setNote_pru, endAtPlu_eq]
    rfl
  · rw [raised, notified_windows, show u.port.windows = s.port.windows from frame.get .windows (by decide)]

/-- Step 6 of R117 where the printer is BUSY with the job. -/
theorem endedState_freed : JobEnded s (modifyEngine j.printer (fun e => { e with state := .idle, current := none })
    (endedState i j o s)) i j o (freedEngine (s.pru.engines.get j.printer) j) := by
  obtain ⟨frame, rendered, accounts, pru, windows⟩ := endedState_jobEnded (i := i) (j := j) (o := o) up
  refine ⟨modifyEngine_unchanged _ _ (by decide) frame, rendered, accounts, ?_, windows⟩
  simp only [modifyEngine, pru, withJob, Table.modify]
  simp [freedEngine]

end

/-! ### Cancellations at the seal (R136) -/

theorem cancelForSeal_none {s : State} {i : Fin 16} (h : s.pru.jobs.get i = none) : cancelForSeal s i = s := by
  rw [cancelForSeal, h]

theorem cancelForSeal_some {s : State} {i : Fin 16} {j : Job} (h : s.pru.jobs.get i = some j) :
    cancelForSeal s i = freePrinter j (endedState i j (.cancelled .daySeal) s) := by
  rw [cancelForSeal, h]; rfl

/-- Whether the printer is BUSY with a job is as it was, once the job is out of the queue. -/
theorem endedState_busy {i : Fin 16} {j : Job} {o : JobEnd} {s : State} (up : s.power = .up) :
    freePrinter j (endedState i j o s) =
      if (s.pru.engines.get j.printer).current = some j.id ∧ (s.pru.engines.get j.printer).state = .busy then
        startNext j.printer (modifyEngine j.printer (fun e => { e with state := .idle, current := none })
          (endedState i j o s))
      else endedState i j o s := by
  obtain ⟨-, -, -, pru, -⟩ := endedState_jobEnded (i := i) (j := j) (o := o) up
  simp only [freePrinter, engineOf, pru, withJob, Table.get_set_self]

theorem foldl_cancelForSeal {s : State} (up : s.power = .up) (l : List (Fin 16)) :
    CancelledInTurn s (l.foldl cancelForSeal s) l := by
  induction l generalizing s with
  | nil => rfl
  | cons i rest ih =>
    have stays : (cancelForSeal s i).power = .up := ((cancelForSeal_frame i s).get .power (by decide)).trans up
    have rest' := ih stays
    rw [List.foldl_cons, CancelledInTurn]
    cases slot : s.pru.jobs.get i with
    | none =>
      rw [cancelForSeal_none slot] at rest' ⊢
      exact rest'
    | some j =>
      rw [cancelForSeal_some slot, endedState_busy up] at rest' ⊢
      dsimp only
      split
      · rename_i busy
        rw [if_pos busy] at rest'
        exact ⟨_, endedState_freed up, rest'⟩
      · rename_i idle
        rw [if_neg idle] at rest'
        exact ⟨_, endedState_jobEnded up, rest'⟩

/-! ### What is left after the cancellations -/

/-- What a job holds: its account and its snapshot. -/
def holding (o : Option Job) : Option (Nat × Option (List PrintItem)) := o.map fun j => (j.account, j.snapshot)

theorem startNext_holding (p : PrinterNo) (s : State) (k : Fin 16) :
    holding ((startNext p s).pru.jobs.get k) = holding (s.pru.jobs.get k) := by
  unfold startNext
  split
  · split
    · rename_i id rest _ _ i j slot
      have pru (x : State) (c : PrintCondition) : (raiseAttention c j x).pru = x.pru :=
        (raiseAttention_frame c j x).get .pru (by decide)
      rw [pru, moveJob, setNote_pru]
      have here := (jobSlot_eq_some.mp slot).1
      simp only [setJob, modifyEngine_pru_jobs, Table.get_set]
      split
      · rename_i own
        subst own
        rw [here]; rfl
      · rfl
    · rfl
  · rfl

theorem cancelForSeal_holding {s : State} (up : s.power = .up) (i k : Fin 16) :
    holding ((cancelForSeal s i).pru.jobs.get k) = if k = i then none else holding (s.pru.jobs.get k) := by
  cases slot : s.pru.jobs.get i with
  | none =>
    rw [cancelForSeal_none slot]
    split
    · rename_i own; subst own; rw [slot]; rfl
    · rfl
  | some j =>
    have ended : holding ((endedState i j (.cancelled .daySeal) s).pru.jobs.get k) =
        if k = i then none else holding (s.pru.jobs.get k) := by
      obtain ⟨-, -, -, pru, -⟩ := endedState_jobEnded (i := i) (j := j) (o := .cancelled .daySeal) up
      rw [pru]
      simp only [withJob, Table.get_set, eq_comm (a := i)]
      split <;> rfl
    rw [cancelForSeal_some slot, endedState_busy up]
    split
    · rw [startNext_holding]; exact ended
    · exact ended

theorem cancelForSeal_accounts {s : State} (up : s.power = .up) {i : Fin 16} {j : Job} (h : s.pru.jobs.get i = some j) :
    (cancelForSeal s i).store.accounts = accountsAfterJob s j := by
  obtain ⟨-, -, accounts, -, -⟩ := endedState_jobEnded (i := i) (j := j) (o := .cancelled .daySeal) up
  rw [cancelForSeal_some h]
  exact ((freePrinter_frame j _).get .accounts (by decide)).trans accounts

/-- The account has lines in a snapshot or a summary taken into one. -/
def InSnapshot (a : Account) : Prop := a.taken.isSome = true ∨ ∃ l ∈ a.lines, l.inSnapshot = true

/-- Every snapshot that stands is held by a job with items. -/
def SnapshotsHeld (s : State) : Prop :=
  ∀ k a, s.store.accounts.get k = some a → InSnapshot a →
    ∃ n j, s.pru.jobs.get n = some j ∧ j.snapshot.getD [] ≠ [] ∧
      FirstWith s.store.accounts (fun x => x.number = j.account) k a

/-- A first account of a number stays the first where an entry is replaced under its number. -/
theorem firstWith_set {u : Table (Option Account) 64} {number : Nat} {k i : Fin 64} {a b c : Account}
    (h : FirstWith u (fun x => x.number = number) k a) (old : u.get i = some b) (same : c.number = b.number) :
    FirstWith (u.set i (some c)) (fun x => x.number = number) k (if i = k then c else a) := by
  obtain ⟨here, is, before⟩ := h
  refine ⟨?_, ?_, fun j hj e slot => ?_⟩
  · rw [Table.get_set]; split <;> simp_all
  · split <;> simp_all
  · rw [Table.get_set] at slot
    split at slot
    · rename_i own
      subst own
      obtain rfl := Option.some.inj slot
      exact fun is => before i hj b old (same.symm.trans is)
    · exact before j hj e slot

theorem cancelForSeal_snapshotsHeld {s : State} (up : s.power = .up) (h : SnapshotsHeld s) (i : Fin 16) :
    SnapshotsHeld (cancelForSeal s i) := by
  cases slot : s.pru.jobs.get i with
  | none => rw [cancelForSeal_none slot]; exact h
  | some j =>
    have goes {n : Fin 16} {x : Job} (here : s.pru.jobs.get n = some x) (other : n ≠ i) :
        ∃ y, (cancelForSeal s i).pru.jobs.get n = some y ∧ y.account = x.account ∧ y.snapshot = x.snapshot := by
      have same := cancelForSeal_holding up i n
      rw [if_neg other, here] at same
      obtain ⟨y, hy, is⟩ := Option.map_eq_some_iff.mp same
      obtain ⟨account, snapshot⟩ := Prod.mk.inj is
      exact ⟨y, hy, account, snapshot⟩
    intro k b here stands
    rw [cancelForSeal_accounts up slot] at here ⊢
    cases entry : accountSlot s j.account with
    | none =>
      have same : accountsAfterJob s j = s.store.accounts := by simp only [accountsAfterJob, entry]
      rw [same] at here ⊢
      obtain ⟨n, x, job, items, first⟩ := h k b here stands
      have other : n ≠ i := by
        rintro rfl
        obtain rfl := Option.some.inj (slot.symm.trans job)
        exact Option.some_ne_none _ ((accountSlot_eq_some.mpr first).symm.trans entry)
      obtain ⟨y, there, account, snapshot⟩ := goes job other
      exact ⟨n, y, there, snapshot ▸ items, account ▸ first⟩
    | some e =>
      obtain ⟨k0, a⟩ := e
      have found := accountSlot_eq_some.mp entry
      let c : Account := { (if j.snapshot.getD [] = [] then a else releaseEntry a) with
        jobRef := false, activeDay := s.clock.day, activeSecond := s.clock.seconds }
      have number : c.number = a.number := by simp only [c]; split <;> rfl
      have set : accountsAfterJob s j = s.store.accounts.set k0 (some c) := by simp only [accountsAfterJob, entry, c]
      rw [set] at here ⊢
      by_cases own : k0 = k
      · subst own
        obtain rfl := Option.some.inj ((Table.get_set_self ..).symm.trans here)
        by_cases empty : j.snapshot.getD [] = []
        · have before : InSnapshot a := by simpa [InSnapshot, c, empty] using stands
          obtain ⟨n, x, job, items, first⟩ := h k0 a found.1 before
          have other : n ≠ i := by
            rintro rfl
            obtain rfl := Option.some.inj (slot.symm.trans job)
            exact items empty
          obtain ⟨y, there, account, snapshot⟩ := goes job other
          have first := firstWith_set first found.1 number
          rw [if_pos rfl] at first
          exact ⟨n, y, there, snapshot ▸ items, account ▸ first⟩
        · have released : ¬InSnapshot c := by simp [InSnapshot, c, empty, releaseEntry]
          exact absurd stands released
      · rw [Table.get_set, if_neg own] at here
        obtain ⟨n, x, job, items, first⟩ := h k b here stands
        have other : n ≠ i := by
          rintro rfl
          obtain rfl := Option.some.inj (slot.symm.trans job)
          have twice := (accountSlot_eq_some.mpr first).symm.trans entry
          exact own (Prod.mk.inj (Option.some.inj twice)).1.symm
        obtain ⟨y, there, account, snapshot⟩ := goes job other
        have first := firstWith_set first found.1 number
        rw [if_neg own] at first
        exact ⟨n, y, there, snapshot ▸ items, account ▸ first⟩

/-- After the cancellations of the slots listed, in a part that is up: none of these slots is filled, no other has become
so, and every snapshot that stands is held. -/
theorem foldl_cancelForSeal_left {s : State} (up : s.power = .up) (h : SnapshotsHeld s) (l : List (Fin 16)) :
    SnapshotsHeld (l.foldl cancelForSeal s) ∧ ∀ k, s.pru.jobs.get k = none ∨ k ∈ l →
      (l.foldl cancelForSeal s).pru.jobs.get k = none := by
  induction l generalizing s with
  | nil => exact ⟨h, fun k hk => by simpa using hk⟩
  | cons i rest ih =>
    have stays : (cancelForSeal s i).power = .up := ((cancelForSeal_frame i s).get .power (by decide)).trans up
    obtain ⟨held, empty⟩ := ih stays (cancelForSeal_snapshotsHeld up h i)
    refine ⟨held, fun k hk => empty k ?_⟩
    have jobs := cancelForSeal_holding up i k
    rcases hk with none | mem
    · rw [none] at jobs
      exact .inl (Option.map_eq_none_iff.mp (jobs.trans (by split <;> rfl)))
    · rcases List.mem_cons.mp mem with rfl | later
      · exact .inl (Option.map_eq_none_iff.mp (jobs.trans (if_pos rfl)))
      · exact .inr later

/-- With no job left, no snapshot is. -/
theorem SnapshotsHeld.none {s : State} (h : SnapshotsHeld s) (empty : ∀ k, s.pru.jobs.get k = none) (k : Fin 64)
    (a : Account) (here : s.store.accounts.get k = some a) : a.taken = none ∧ ∀ l ∈ a.lines, l.inSnapshot = false := by
  have free : ¬InSnapshot a := fun stands => by
    obtain ⟨n, j, job, -, -⟩ := h k a here stands
    exact Option.some_ne_none _ (job.symm.trans (empty n))
  simpa [InSnapshot] using free

end Sys2Proof.Machine
end

section
/-! SUPPORT. The day sealed, sent and cleared: the printers' books, the carry count, the first CALL and the end of every
binding (R12, R96, R113, R119, R136, R153, R163 to R166, R171). -/

namespace Sys2Proof.Machine

/-! ### Answers on a state on the way -/

/-- The answer to a request in execution on a state `v` with nothing standing at the Screen Unit, after a part from `v` on
that left every turn: of `v`'s windows nothing has changed but the notices raised and the response. -/
theorem answered_of_turns {h : ReqHead} {i : Instr} {v u : State}
    (here : v.port.inExecution.get h.master = some ⟨i, false⟩) (free : NoneStandsAt v .scu) (turns : TurnsStand v u)
    {l : List (Master × Detail)} (w : u.port.windows = notify l v.port.windows) (k : Nat) (c : Code)
    (b : Bool) (fields : List (Option (List Item))) : Answered h k c b fields l v (respond h k c b fields u) := by
  obtain ⟨inExecution, -, order⟩ := turns
  exact ⟨by rw [respond_windows h k c b fields (inExecution ▸ here), w], by rw [respond_port_inExecution, inExecution],
    by rw [respond_port_order, order free]⟩

/-! ### Books cleared (R119, R130) -/

/-- An engine in service with a book in its feed carries it back. -/
def clearedEngine (e : Engine) : Engine :=
  { e with motion := if e.inFeed = true ∧ e.state ≠ .outOfService then .eject .clearing else e.motion }

theorem clearServed_eq (p : PrinterNo) (s : State) : clearServed p s = modifyEngine p clearedEngine s := by
  have same (h : ¬((s.pru.engines.get p).inFeed = true ∧ (s.pru.engines.get p).state ≠ .outOfService)) :
      modifyEngine p clearedEngine s = s := by
    rw [modifyEngine, Table.modify_eq_self (by simp [clearedEngine, h])]
  unfold clearServed clearBook engineOf
  split
  · rename_i out; exact (same fun h => h.2 out).symm
  · rename_i served
    split
    · rename_i feed
      simp [setMotion, modifyEngine, Table.modify, clearedEngine, feed, served]
    · rename_i feed; exact (same fun h => feed h.1).symm

theorem clearBooks_engine (s : State) (p : PrinterNo) :
    (clearBooks s).pru.engines.get p = clearedEngine (s.pru.engines.get p) := by
  rw [clearBooks, clearServed_eq, clearServed_eq]
  simp only [modifyEngine_pru_engines, Table.get_modify]
  have two : ∀ q : PrinterNo, q = 0 ∨ q = 1 := by decide
  rcases two p with rfl | rfl
  · rfl
  · rfl

theorem clearBooks_pru (s : State) : { (clearBooks s).pru with engines := s.pru.engines } = s.pru := by
  rw [clearBooks, clearServed_eq, clearServed_eq]; rfl

/-! ### The carry-over set (R113) -/

/-- The carry-over records of an account: its summary and its lines that are not void. -/
def carriedRecords (a : Account) : Nat :=
  (if a.summary.isSome = true then 1 else 0) + (a.lines.filter fun l => !l.void).length

theorem carrySet_length (s : State) :
    (carrySet s).length = ((s.store.accounts.list.filterMap id).map carriedRecords).sum := by
  have one (a : Account) : (carryOf a).length = carriedRecords a := by
    cases h : a.summary <;> simp [carryOf, snapshotItems, carriedRecords, h, Nat.add_comm]
  have order : (accountsByNumber s).Perm (s.store.accounts.list.filterMap id) := List.perm_insertionSort _ _
  rw [carrySet, List.length_flatMap, List.map_congr_left fun a _ => one a]
  exact (order.map _).sum_eq

/-- With nothing in a snapshot the freeze is not busy (R113). -/
theorem freezeBusy_eq_false {s : State} (h : ∀ k a, s.store.accounts.get k = some a →
    a.taken = none ∧ ∀ l ∈ a.lines, l.inSnapshot = false) : freezeBusy s = false := by
  rw [freezeBusy, List.any_eq_false]
  intro a ha
  obtain ⟨_, mem, rfl⟩ := List.mem_filterMap.mp ((List.perm_insertionSort _ _).mem_iff.mp ha)
  obtain ⟨k, hk, get⟩ := List.getElem_of_mem mem
  obtain ⟨taken, lines⟩ := h ⟨k, s.store.accounts.len ▸ hk⟩ a get
  simpa [taken] using lines

/-! ### The checks of the seal (R163) -/

theorem mem_jobsOf {s : State} {i : Fin 16} {j : Job} : (i, j) ∈ jobsOf s ↔ s.pru.jobs.get i = some j := by
  simp [jobsOf, Table.entries]

theorem sealable_iff (j : Job) : sealable j = true ↔ j.state = .queued ∨ j.state = .awaitingBook := by
  simp [sealable]

theorem printersBusy_iff (s : State) : printersBusy s = true ↔
    ∃ k j, s.pru.jobs.get k = some j ∧ j.state ≠ .queued ∧ j.state ≠ .awaitingBook := by
  rw [printersBusy, List.any_eq_true]
  constructor
  · rintro ⟨⟨k, j⟩, mem, busy⟩
    refine ⟨k, j, mem_jobsOf.mp mem, ?_⟩
    rw [Bool.not_eq_true', Bool.eq_false_iff, ne_eq, sealable_iff, not_or] at busy
    exact busy
  · rintro ⟨k, j, here, busy⟩
    refine ⟨(k, j), mem_jobsOf.mpr here, ?_⟩
    rw [Bool.not_eq_true', Bool.eq_false_iff, ne_eq, sealable_iff, not_or]
    exact busy

theorem offeredSlots_eq_nil {s : State} (h : ∀ j a, s.store.transfers.get j = some a → a.state ≠ .offered) :
    offeredSlots s = [] := by
  rw [← List.map_eq_nil_iff (f := Prod.snd), offeredSlots_map_snd, List.filter_eq_nil_iff]
  intro a ha
  obtain ⟨_, mem, rfl⟩ := List.mem_filterMap.mp ha
  obtain ⟨k, hk, get⟩ := List.getElem_of_mem mem
  simpa [isOffered] using h ⟨k, s.store.transfers.len ▸ hk⟩ a get

/-! ### The seal's commit (R136, R164) -/

/-- What the seal commits, on the printers' state `u`: the day's record, the state SEALED and the carry count. -/
def sealing (u : State) : State :=
  let x := appendDay .daySeal none (fun d => { d with state := .sealed }) u
  { x with store := { x.store with carryCount := (carrySet u).length } }

theorem carryCount_frame (m : Nat) (s : State) :
    UnchangedBut [.carryCount] s { s with store := { s.store with carryCount := m } } := fun p hp => by
  cases p <;> first
    | exact absurd (by decide) hp
    | exact rfl | exact fun _ => rfl | exact ⟨rfl, rfl⟩ | exact ⟨rfl, rfl, fun _ => rfl⟩ | exact fun _ => ⟨rfl, rfl⟩
    | exact fun _ => ⟨rfl, rfl, rfl, rfl, rfl⟩

theorem sealing_frame (u : State) : UnchangedBut [.journal, .day, .windows, .carryCount] u (sealing u) :=
  UnchangedBut.trans ((appendDay_frame .daySeal none _ u).mono (by decide)) ((carryCount_frame _ _).mono (by decide))

theorem sealing_scu {u : State} (up : u.power = .up) : (sealing u).scu = u.scu := by
  have append := appendDay_up .daySeal none (fun d => { d with state := .sealed }) up
  simp only [sealing, append]
  rfl

theorem commitSeal_eq {u : State} (up : u.power = .up) : commitSeal u = dayCommitted .sealed u (sealing u) :=
  dayCommitted_eq (((sealing_frame u).get .power (by decide)).trans up)

/-- The printers' state at the seal: every job ended, books in a feed carried back, the flag set (R136). -/
def sealedPrinters (v : State) : State :=
  { clearBooks v with pru := { (clearBooks v).pru with sealAnswered := true } }

theorem sealedPrinters_eq (v : State) : sealedPrinters v = { v with pru := (sealedPrinters v).pru } := by
  simp only [sealedPrinters, clearBooks, clearServed_eq]; rfl

theorem sealedPrinters_frame (v : State) : UnchangedBut [.pru] v (sealedPrinters v) :=
  (clearBooks_frame v).trans (sealAnswered_frame true _)

theorem sealedPrinters_pru (v : State) :
    { (sealedPrinters v).pru with engines := v.pru.engines } = { v.pru with sealAnswered := true } :=
  congrArg (fun x : Pru => { x with sealAnswered := true }) (clearBooks_pru v)

/-- The day sealed on the state that the cancellations leave. -/
def daySealed (v : State) : State := commitSeal (sealedPrinters v)

theorem carrySet_sealedPrinters (v : State) : (carrySet (sealedPrinters v)).length = (carrySet v).length := by
  have accounts : (sealedPrinters v).store.accounts = v.store.accounts := (sealedPrinters_frame v).get .accounts (by decide)
  rw [carrySet_length, carrySet_length, accounts]

theorem daySealed_frame (v : State) :
    UnchangedBut [.journal, .day, .carryCount, .pru, .windows, .buffers, .screens, .inExecution] v (daySealed v) := by
  have sealing := (sealing_frame (sealedPrinters v)).mono (m := [.journal, .day, .windows, .carryCount, .pru]) (by decide)
  have before := ((sealedPrinters_frame v).mono (by decide)).trans sealing
  exact dayChanged_unchanged _ (by decide) (setApplied_unchanged (nextSequence (sealedPrinters v)) _ (by decide)
    (before.mono (by decide)))

section
variable {v : State} (up : v.power = .up)
include up

theorem daySealed_eq : daySealed v = dayCommitted .sealed (sealedPrinters v) (sealing (sealedPrinters v)) :=
  commitSeal_eq (((sealedPrinters_frame v).get .power (by decide)).trans up)

theorem daySealed_carryCount : (daySealed v).store.carryCount = (carrySet v).length := by
  rw [daySealed_eq up, dayCommitted, report_store, ← carrySet_sealedPrinters]; rfl

theorem daySealed_pru : (daySealed v).pru = (sealedPrinters v).pru := by
  have same : (sealing (sealedPrinters v)).pru = (sealedPrinters v).pru := (sealing_frame _).get .pru (by decide)
  rw [daySealed_eq up, dayCommitted, report_pru, notified_pru, setApplied_pru, same]

theorem daySealed_rendered : Rendered v.scu (daySealed v).scu := by
  have upThen : (sealedPrinters v).power = .up := by rw [sealedPrinters_eq]; exact up
  have scu : (sealedPrinters v).scu = v.scu := by rw [sealedPrinters_eq]
  rw [daySealed_eq up, ← scu]
  exact dayCommitted_rendered (.of_eq (sealing_scu upThen))

theorem daySealed_windows : (daySealed v).port.windows =
    notify (highNotice v ++ [(officerMaster, .dayChanged .sealed)]) v.port.windows := by
  have upThen : (sealedPrinters v).power = .up := by rw [sealedPrinters_eq]; exact up
  have notice : highNotice (sealedPrinters v) = highNotice v := by rw [sealedPrinters_eq]; rfl
  have port : (sealedPrinters v).port = v.port := by rw [sealedPrinters_eq]
  rw [daySealed_eq up, dayCommitted_windows (k := .daySeal) (date := none) (f := fun d => { d with state := .sealed })
      (u := sealing (sealedPrinters v)) upThen rfl,
    notice, port]

theorem daySealed_day (whole : JournalWhole v) :
    (daySealed v).store.day = { v.store.day with state := .sealed, used := v.store.day.used + 1 } := by
  have upThen : (sealedPrinters v).power = .up := by rw [sealedPrinters_eq]; exact up
  have wholeThen : JournalWhole (sealedPrinters v) := by rw [sealedPrinters_eq]; exact whole
  have day : (sealedPrinters v).store.day = v.store.day := by rw [sealedPrinters_eq]
  rw [daySealed_eq up, dayCommitted_day (k := .daySeal) (date := none) (f := fun d => { d with state := .sealed })
    (u := sealing (sealedPrinters v)) (e := { (sealedPrinters v).store.day with state := .sealed }) wholeThen upThen rfl (fun _ _ => rfl) rfl, day]

theorem daySealed_appended (whole : JournalWhole v) : Appended (emptyRecord .daySeal) .none v (daySealed v) := by
  have upThen : (sealedPrinters v).power = .up := by rw [sealedPrinters_eq]; exact up
  have wholeThen : JournalWhole (sealedPrinters v) := by rw [sealedPrinters_eq]; exact whole
  have appended := dayCommitted_appended (k := .daySeal) (date := none) (f := fun d => { d with state := .sealed })
    (x := .sealed) (u := sealing (sealedPrinters v)) wholeThen upThen rfl
  rw [← daySealed_eq up, Appended, sealedPrinters_eq] at appended
  exact appended

end

/-- The taking of the seal, where the freeze is not busy after the cancellations. -/
theorem daySealTaken_eq {s v : State} (cancelled : (List.finRange 16).foldl cancelForSeal s = v)
    (unfrozen : freezeBusy (sealedPrinters v) = false) : daySealTaken s = take (daySealed v)
      [numField (nextSequence (sealedPrinters v)), numField (journalCount (daySealed v)),
        numField (daySealed v).store.carryCount, numField (totalBlocks (daySealed v))] := by
  have clear : sealPrinters s = sealedPrinters v := by rw [← cancelled]; rfl
  simp only [daySealTaken, clear, unfrozen, Bool.false_eq_true, if_false]
  rfl

/-! ### The first CALL (R165, R171) -/

/-- The CALL of a day: branch, date, blocks and the block it asks to begin with (R171). -/
def callFrame (x : Store) : Frame :=
  ⟨1, bytesOf 2 (x.lineSettings.branch.getD 0) ++ packedDigits 4 (x.day.date.getD 0) ++
    bytesOf 2 (3 + (x.day.used + 31) / 32 + (x.carryCount + 31) / 32) ++ bytesOf 2 (x.day.ackThrough + 1)⟩

/-- Line ready raised and the first CALL sent, by a sender that begins. -/
def firstCall (w : State) : State := sendCall (setLineReady true { w with sender := freshSender })

section
variable (w : State)
theorem firstCall_store : (firstCall w).store = w.store := rfl
theorem firstCall_scu : (firstCall w).scu = w.scu := rfl
theorem firstCall_port : (firstCall w).port = w.port := rfl
theorem firstCall_sender :
    (firstCall w).sender = ⟨.waitReady, 1, none, [], 0, some w.store.lineSettings.timeout, 0, none⟩ := rfl
theorem firstCall_out :
    (firstCall w).out = { w.out with lineReady := true, line := w.out.line ++ [callFrame w.store] } := rfl
end

/-- What a change of the day leaves as it was, and tells. -/
theorem dayChanged_facts (x : DayState) {s : State} (up : s.power = .up) :
    (dayChanged x s).store = s.store ∧ (dayChanged x s).out = s.out ∧ Rendered s.scu (dayChanged x s).scu ∧
      (dayChanged x s).port.windows = notify [(officerMaster, .dayChanged x)] s.port.windows := by
  rw [dayChanged_up x up]
  exact ⟨by rw [report_store]; rfl, by rw [report_out]; rfl, report_rendered _ (notified _ s),
    by rw [report_port_windows]; rfl⟩

theorem daySendTaken_eq (s : State) : daySendTaken s =
    let w := dayChanged .sending (setDayState .sending s)
    take (firstCall w) [numField (totalBlocks w), numField (ackThrough w + 1)] := rfl

/-! ### Every binding ended (R12, R153) -/

theorem endScreenBinding_eq (p : Position) (s : State) : endScreenBinding p s =
    { s with scu := { s.scu with screens := s.scu.screens.modify p endedScreen } } := by
  simp only [endScreenBinding, endedScreen_eq]; rfl

/-- The screens after the ends of the bindings at the positions listed. -/
def endedScreens (u : Table Screen 12) (l : List Position) : Table Screen 12 :=
  l.foldl (fun u p => u.modify p endedScreen) u

theorem endedScreens_get {l : List Position} (distinct : l.Nodup) (u : Table Screen 12) (k : Position) :
    (endedScreens u l).get k = if k ∈ l then endedScreen (u.get k) else u.get k := by
  induction l generalizing u with
  | nil => rfl
  | cons p rest ih =>
    obtain ⟨fresh, distinct⟩ := List.nodup_cons.mp distinct
    rw [endedScreens, List.foldl_cons]
    refine (ih distinct _).trans ?_
    rw [Table.get_modify]
    by_cases own : p = k
    · subst own; simp [fresh]
    · simp [own, Ne.symm own]

/-- With nothing standing at the Screen Unit, the ends of bindings are taken there at once, one after another. -/
theorem foldl_bindScreen (l : List Position) {s : State} (free : NoneStandsAt s .scu) :
    l.foldl (fun t p => bindScreen p false t) s =
      { s with scu := { s.scu with screens := endedScreens s.scu.screens l } } := by
  induction l generalizing s with
  | nil => rfl
  | cons p rest ih =>
    have taken : bindScreen p false s = endScreenBinding p s := bindScreen_taken p false free
    rw [List.foldl_cons, taken, endScreenBinding_eq]
    exact ih (s := { s with scu := _ }) free

theorem Rendered.endBindings {u v : Scu} (h : Rendered u v) (l : List Position) :
    Rendered { u with screens := endedScreens u.screens l } { v with screens := endedScreens v.screens l } := by
  induction l generalizing u v with
  | nil => exact h
  | cons p rest ih => exact ih (h.endBinding p)

theorem mem_boundPositions (s : State) (p : Position) : p ∈ boundPositions s ↔
    (s.store.positions.get p).drawer.isSome = true ∨ (s.store.positions.get p).teller.isSome = true := by
  simp [boundPositions, boundDrawer, tellerAt]

theorem endedScreens_boundPositions (s : State) : endedScreens s.scu.screens (boundPositions s) =
    Table.ofFn fun p =>
      if (s.store.positions.get p).drawer.isSome = true ∨ (s.store.positions.get p).teller.isSome = true then
        endedScreen (s.scu.screens.get p)
      else s.scu.screens.get p :=
  Table.ext_get fun p => by
    have distinct : (boundPositions s).Nodup := (List.nodup_finRange 12).filter _
    rw [endedScreens_get distinct, Table.get_ofFn]
    simp only [mem_boundPositions]

/-! ### The day cleared (R96, R166) -/

theorem turnsStand_of_port {s t : State} (h : t.port = s.port) : TurnsStand s t := by
  refine ⟨by rw [h], ?_, fun _ => by rw [h]⟩
  unfold askedBesideReports; rw [h]

/-- The store, the sender and the seal's flag after DAY.CLEAR, and its reports. -/
def clearedState (s : State) : State :=
  report (clearReports s) { clearDay s with
    sender := { s.sender with state := .idle }
    pru := { s.pru with sealAnswered := false } }

/-- The state that DAY.CLEAR leaves before the change of the day is told. -/
def unboundState (s : State) : State :=
  { clearedState s with scu := { (clearedState s).scu with
    screens := endedScreens (clearedState s).scu.screens (boundPositions s) } }

section
variable (s : State)

theorem clearedState_turns : TurnsStand s (clearedState s) :=
  (turnsStand_of_port (t := { clearDay s with sender := _, pru := _ }) rfl).trans (report_turns _ _)

theorem dayClearTaken_eq (free : NoneStandsAt s .scu) :
    dayClearTaken s = take (dayChanged .noDay (unboundState s)) [[.date (businessDate s)]] := by
  have fold := foldl_bindScreen (boundPositions s) ((clearedState_turns s).screenFree free)
  exact congrArg (fun u => take (dayChanged .noDay u) [[.date (businessDate s)]]) fold

theorem unboundState_rendered : Rendered { s.scu with screens := endedScreens s.scu.screens (boundPositions s) }
    (unboundState s).scu :=
  Rendered.endBindings (u := s.scu) (v := (clearedState s).scu) (report_rendered _ { clearDay s with sender := _, pru := _ }) _

theorem unboundState_power : (unboundState s).power = s.power := report_power _ _

theorem unboundState_store : (unboundState s).store = (clearDay s).store := report_store _ _

theorem unboundState_sender : (unboundState s).sender = { s.sender with state := .idle } := report_sender _ _

theorem unboundState_pru : (unboundState s).pru = { s.pru with sealAnswered := false } := report_pru _ _

theorem unboundState_windows : (unboundState s).port.windows = s.port.windows := report_port_windows _ _

theorem unboundState_turns : TurnsStand s (unboundState s) :=
  (clearedState_turns s).trans (turnsStand_of_port rfl)

end

/-! ### The checks of the day's last requests -/

section
variable {h : ReqHead} {s : State} (officer : FromOfficer h)
include officer

/-- DAY.SEAL in CLOSING with room, every drawer CLOSED and no transfer OFFERED, hangs on the jobs alone, its last check. -/
theorem daySealChecks_split (closing : s.store.day.state = .closing) (room : s.store.day.used + s.jsu.holds + 1 ≤ 16384)
    (closed : ∀ n, (s.store.drawers.get n).state = .closed)
    (unoffered : ∀ j a, s.store.transfers.get j = some a → a.state ≠ .offered) :
    ∃ early : List Check, (∀ c ∈ early, c.pass = true) ∧
      daySealChecks h s = early ++ [⟨!printersBusy s, .wrongState, [some [.num 3]]⟩] := by
  have none : lowestOpen s = none := by
    rw [lowestOpen, List.find?_eq_none]
    intro n _; simp [closed n]
  refine ⟨officerOnly h ++ [bodyCheck h, ⟨dayIs s [.closing], .dayState, []⟩, ⟨roomFor s .seal 1, .journalFull, []⟩,
    ⟨(lowestOpen s).isNone, .wrongState, some [.num 1] :: drawerDetail (lowestOpen s)⟩,
    ⟨(offeredSlots s).isEmpty, .wrongState, [some [.num 2], some [.num (offeredSlots s).length]]⟩], ?_, by simp [daySealChecks]⟩
  simp only [List.forall_mem_append, List.forall_mem_cons, none, offeredSlots_eq_nil unoffered]
  refine ⟨officerOnly_pass officer, ?_, ?_, ?_, rfl, rfl, by simp⟩
  · simp [bodyCheck, officer.2]
  · simp [dayIs, closing]
  · simpa [roomFor, holdLimit, Config.sealLimit] using room

theorem daySendChecks_pass (sealed : s.store.day.state = .sealed) {branch : Nat}
    (set : s.store.lineSettings.branch = some branch) : ∀ c ∈ daySendChecks h s, c.pass = true := by
  simp only [daySendChecks, List.forall_mem_append, List.forall_mem_cons]
  refine ⟨officerOnly_pass officer, ?_, ?_, ?_, by simp⟩
  · simp [bodyCheck, officer.2]
  · simp [dayIs, sealed]
  · simp [set]

theorem dayClearChecks_pass (delivered : s.store.day.state = .delivered) : ∀ c ∈ dayClearChecks h s, c.pass = true := by
  simp only [dayClearChecks, List.forall_mem_append, List.forall_mem_cons]
  refine ⟨officerOnly_pass officer, ?_, ?_, by simp⟩
  · simp [bodyCheck, officer.2]
  · simp [dayIs, delivered]

end

theorem printersBusy_eq_false {s : State}
    (idle : ∀ k j, s.pru.jobs.get k = some j → j.state = .queued ∨ j.state = .awaitingBook) : printersBusy s = false := by
  rw [Bool.eq_false_iff, ne_eq, printersBusy_iff]
  rintro ⟨k, j, here, queued, awaiting⟩
  exact (idle k j here).elim queued awaiting

end Sys2Proof.Machine

open Sys2Proof Sys2Proof.Machine

/-- Settles O58: the cancellations are `foldl_cancelForSeal`, after which no snapshot stands and the seal commits; the first
CALL is `firstCall`; at the clearing nothing stands at the Screen Unit, so every binding's end is taken there at once. -/
theorem daysAreSealedSentAndCleared : Obligations.DaysAreSealedSentAndCleared := by
  unfold Obligations.DaysAreSealedSentAndCleared
  intro h s officer day total
  refine ⟨?_, ?_, ?_⟩
  case refine_1 =>
    intro i lines served whole closing room closed unoffered
    obtain ⟨early, passing, checks⟩ := daySealChecks_split officer closing room closed unoffered
    have same := restartNamed_none i rfl s
    have ownUnit : unitOf i ≠ .scu := by simp [i, unitOf, requestKind]
    refine ⟨fun busy => ?_, fun idle snapshots => ?_⟩
    · have failed : firstFailure (daySealChecks h s) = some ⟨false, .wrongState, [some [.num 3]]⟩ := by
        rw [checks, firstFailure_append, firstFailure_eq_none.mpr passing, (printersBusy_iff s).mpr busy]; rfl
      exact ⟨_, exec_refused served rfl same failed, respond_unchangedBut (.refl [] s) h _ _ _ _ (by decide) (by decide),
        answered_of_frame served (.refl [] s) ownUnit (by decide) (l := []) rfl _ _ _ _⟩
    have inTurn := foldl_cancelForSeal served.up (List.finRange 16)
    obtain ⟨held, gone⟩ := foldl_cancelForSeal_left served.up snapshots (List.finRange 16)
    have cancelled : UnchangedBut [.accounts, .pru, .buffers, .screens, .windows, .inExecution] s
        ((List.finRange 16).foldl cancelForSeal s) := .foldl (fun s i => cancelForSeal_frame i s) _ _
    have sealed := daySealTaken_eq (s := s) rfl
    generalize (List.finRange 16).foldl cancelForSeal s = v at *
    have empty : ∀ k, v.pru.jobs.get k = none := fun k => gone k (.inr (List.mem_finRange k))
    have loose := held.none empty
    have up : v.power = .up := (cancelled.get .power (by decide)).trans served.up
    have journal : v.store.journal = s.store.journal := cancelled.get .journal (by decide)
    have dayThen : v.store.day = s.store.day := cancelled.get .day (by decide)
    have clock : v.clock = s.clock := cancelled.get .clock (by decide)
    have wholeThen : JournalWhole v := by rw [JournalWhole, journal, dayThen]; exact whole
    have dayAfter := daySealed_day up wholeThen
    have count : (daySealed v).store.carryCount = lines v := by rw [daySealed_carryCount up, carrySet_length]; rfl
    have taken : daySealTaken s = take (daySealed v) [numField (day.used + 1), numField (day.used + 1), numField (lines v),
        numField (total (day.used + 1) (lines v))] := by
      have next : nextSequence (sealedPrinters v) = day.used + 1 := by
        rw [nextSequence, sealedPrinters_eq]; exact congrArg (fun d : DayRecord => d.used + 1) dayThen
      have records : journalCount (daySealed v) = day.used + 1 := by rw [journalCount, dayAfter, dayThen]
      rw [sealed (freezeBusy_eq_false (by rw [sealedPrinters_eq]; exact loose)), next, totalBlocks, records, count]
      rfl
    have passed : ∀ c ∈ daySealChecks h s, c.pass = true := by
      rw [checks, List.forall_mem_append, printersBusy_eq_false idle]
      exact ⟨passing, by simp⟩
    have turns : TurnsStand s v := cancelled.get .turns (by decide)
    have here : v.port.inExecution.get h.master = some ⟨i, false⟩ := by rw [turns.1]; exact served.here
    have free := turns.screenFree (served.screenFree ownUnit)
    have frame := daySealed_frame v
    have windows : (daySealed v).port.windows =
        notify (highNotice s ++ [(officerMaster, .dayChanged .sealed)]) v.port.windows := by
      rw [daySealed_windows up, highNotice, dayThen]; rfl
    have appended := daySealed_appended up wholeThen
    rw [Appended, journal, dayThen, clock] at appended
    have rendered := daySealed_rendered up
    have pru := daySealed_pru up
    generalize daySealed v = done at *
    refine ⟨v, _, exec_taken served rfl same passed taken rfl, inTurn, empty, loose,
      respond_unchangedBut frame h _ _ _ _ (by decide) (by decide), dayAfter.trans (by rw [dayThen]), count, appended, rendered,
      ?_, fun p => ?_, answered_of_turns here free (frame.get .turns (by decide)) windows _ _ _ _⟩
    · simp only [respond_pru, take_state, pru]
      exact sealedPrinters_pru v
    · simp only [respond_pru, take_state, pru]
      exact clearBooks_engine v p
  case refine_2 =>
    intro branch served sealed set
    have frame := daySend_state_frame s
    obtain ⟨store, out, rendered, windows⟩ := dayChanged_facts .sending (s := setDayState .sending s) served.up
    have taken := daySendTaken_eq s
    generalize dayChanged .sending (setDayState .sending s) = w at *
    dsimp only at taken
    have told : totalBlocks w = total day.used s.store.carryCount ∧ ackThrough w = day.ackThrough := by
      rw [totalBlocks, journalCount, ackThrough, store]; exact ⟨rfl, rfl⟩
    rw [told.1, told.2] at taken
    rw [taken] at frame
    refine ⟨_, exec_taken served rfl (restartNamed_none _ rfl s) (daySendChecks_pass officer sealed set) taken rfl,
      respond_unchangedBut frame h _ _ _ _ (by decide) (by decide), rendered, store ▸ rfl, ?_, ?_,
      answered_of_frame served frame (by simp [unitOf, requestKind]) (by decide) windows _ _ _ _⟩
    · simp only [respond_sender, take_state, firstCall_sender, store]; rfl
    · simp only [respond_out, take_state, firstCall_out, callFrame, store, out]
      simp [setDayState, set, day, total]
  case refine_3 =>
    intro served delivered
    have free := served.screenFree (by simp [unitOf, requestKind])
    have taken := dayClearTaken_eq s free
    have frame := dayClear_state_frame s
    rw [taken] at frame
    have up : (unboundState s).power = .up := (unboundState_power s).trans served.up
    obtain ⟨store, -, rendered, windows⟩ := dayChanged_facts .noDay up
    rw [unboundState_store] at store
    rw [unboundState_windows] at windows
    replace rendered := (unboundState_rendered s).trans rendered
    rw [endedScreens_boundPositions] at rendered
    have told := dayChanged_frame .noDay (unboundState s)
    have sender := (told.get .sender (by decide)).trans (unboundState_sender s)
    have pru := (told.get .pru (by decide)).trans (unboundState_pru s)
    have reported : TurnsStand (unboundState s) (dayChanged .noDay (unboundState s)) := by
      rw [dayChanged_up _ up]
      exact TurnsStand.trans (t := notified _ _) ⟨rfl, rfl, fun _ => rfl⟩ (report_turns _ _)
    have turns := (unboundState_turns s).trans reported
    generalize dayChanged .noDay (unboundState s) = done at *
    refine ⟨_, exec_taken served rfl (restartNamed_none _ rfl s) (dayClearChecks_pass officer delivered) taken rfl,
      respond_unchangedBut frame h _ _ _ _ (by decide) (by decide), store ▸ rfl, fun n => ?_, fun p => ?_, fun j => ?_,
      store ▸ rfl, sender, pru, rendered, answered_of_turns served.here free turns windows _ _ _ _⟩
    · rw [respond_store, take_state, store]; exact Table.get_map _ _ n
    · rw [respond_store, take_state, store]; exact Table.get_map _ _ p
    · rw [respond_store, take_state, store]; exact Table.get_fill _ j
end

section
/-! SUPPORT. CASH.REVERSE: the search of the reversal lookup (R39, R83, R95), the handover of a reversal as it is made on a
state on the way to the commit (R104), and the commit (R40 to R42). -/

namespace Sys2Proof.Machine

/-! ### The reversal lookup (R83, R95) -/

/-- A record that does not end the search for a REVERSAL of the sequence: none, or one that stands and names another. -/
def PassedBy (sequence : Nat) (r : Record) : Prop :=
  r.kind = .reversal → r.checkOk = true ∧ r.reverses ≠ some sequence

/-- A record that ends it: a REVERSAL that fails its check or names the sequence. -/
def EndsSearch (sequence : Nat) (r : Record) : Prop :=
  r.kind = .reversal ∧ (r.checkOk = false ∨ r.reverses = some sequence)

/-- What a lookup answers where the reversal is refused. -/
def Lookup.NotFound (a : Lookup) : Prop := ∀ r, a ≠ .found r

theorem Lookup.checkFailed_notFound : NotFound .checkFailed := fun _ h => by cases h

theorem Lookup.reversed_notFound : NotFound .reversed := fun _ h => by cases h

section
variable {sequence : Nat} {o r : Record}

theorem searchReversal_passed (h : PassedBy sequence r) (rest : List Record) (s : State) :
    searchReversal sequence o (r :: rest) s = searchReversal sequence o rest (captureFailed s r) := by
  rw [searchReversal]
  by_cases kind : r.kind = .reversal
  · obtain ⟨ok, other⟩ := h kind
    simp [ok, other]
  · simp [kind]

theorem searchReversal_ended (h : EndsSearch sequence r) (rest : List Record) (s : State) :
    ∃ a : Lookup, a.NotFound ∧ searchReversal sequence o (r :: rest) s = (captureFailed s r, a) := by
  obtain ⟨kind, ends⟩ := h
  rw [searchReversal]
  cases ok : r.checkOk with
  | false => exact ⟨.checkFailed, Lookup.checkFailed_notFound, by simp [kind]⟩
  | true =>
    have names : r.reverses = some sequence := ends.resolve_left (by simp [ok])
    exact ⟨.reversed, Lookup.reversed_notFound, by simp [kind, names]⟩

/-- The search reads the records that do not end it, capturing the checks that fail, and goes on behind them. -/
theorem searchReversal_append {passed : List Record} (h : ∀ x ∈ passed, PassedBy sequence x) (rest : List Record)
    (s : State) : searchReversal sequence o (passed ++ rest) s =
      searchReversal sequence o rest (passed.foldl captureFailed s) := by
  induction passed generalizing s with
  | nil => rfl
  | cons x passed ih =>
    obtain ⟨first, others⟩ := List.forall_mem_cons.mp h
    rw [List.cons_append, searchReversal_passed first, ih others, List.foldl_cons]

end

section
variable {sequence : Nat} {o : Record} {s : State} (up : s.power = .up) (named : recordAt s sequence = some o)
include up named

/-- A lookup that meets no REVERSAL of the record answers by the record's own check, all records read. -/
theorem reversalLookup_unmet (unmet : ∀ x ∈ recordsAfter s sequence, PassedBy sequence x) : reversalLookup sequence s =
    (afterChecks s (o :: recordsAfter s sequence), if o.checkOk = true then .found o else .checkFailed) := by
  have search := searchReversal_append (o := o) unmet [] (afterChecks s [o])
  rw [List.append_nil, foldl_captureFailed _ ((afterChecks_power s [o]).trans up), afterChecks_cons] at search
  simp only [reversalLookup, named, captureFailed_up o up, search]
  rfl

/-- A lookup that meets one, or one whose check fails, ends there without the record. -/
theorem reversalLookup_met {passed rest : List Record} {r : Record} (later : recordsAfter s sequence = passed ++ r :: rest)
    (h : ∀ x ∈ passed, PassedBy sequence x) (ends : EndsSearch sequence r) :
    ∃ a : Lookup, a.NotFound ∧ reversalLookup sequence s = (afterChecks s (o :: (passed ++ [r])), a) := by
  have read : captureFailed (passed.foldl captureFailed (afterChecks s [o])) r = afterChecks s (o :: (passed ++ [r])) := by
    rw [← afterChecks_cons s o (passed ++ [r]), ← foldl_captureFailed _ ((afterChecks_power s [o]).trans up),
      List.foldl_concat]
  obtain ⟨a, notFound, ended⟩ := searchReversal_ended (o := o) ends rest (passed.foldl captureFailed (afterChecks s [o]))
  refine ⟨if o.checkOk = true then a else .checkFailed, ?_, ?_⟩
  · split
    · exact notFound
    · exact Lookup.checkFailed_notFound
  · simp only [reversalLookup, named, captureFailed_up o up, later, searchReversal_append h, ended, read]

end

/-- What reading records leaves. -/
theorem afterChecks_frame (l : List Record) {s : State} (up : s.power = .up) :
    UnchangedBut [.windows, .fault] s (afterChecks s l) :=
  foldl_captureFailed l up ▸ .foldl (fun s r => captureFailed_frame r s) l s

/-! ### The handover of a reversal (R104) -/

/-- A state `u` with the lines, the last taken key and the kept answer of a handover made on `s`, and its notice raised. -/
def handedOver (r : Record) (lines : State × LineAnswer) (s u : State) : State :=
  setLastAnswer lines.1.store.lastAnswer (withLines lines.1 (fullNotice s r lines.2.disposition) u)

/-- The disposition that tells of a full table is that of one answer alone. -/
theorem disposition_eq_notHeld (a : LineAnswer) : a.disposition = .notHeld ↔ a = .contraNotHeld := by
  cases a <;> decide

theorem fullNotice_disposition (s : State) (r : Record) (a : LineAnswer) : fullNotice s r a.disposition =
    fullNotice s r (if a = .contraNotHeld then .notHeld else .none) := by
  cases a <;> simp [fullNotice, LineAnswer.disposition]

section
variable {s u : State} (h : SameLines s u)
include h

theorem SameLines.holdsLine (a : Nat) (k : Key) : holdsLine u a k = Machine.holdsLine s a k := by
  simp only [Machine.holdsLine, h.accountSlot]

theorem SameLines.pendingLine (a : Nat) (k : Key) : pendingLine u a k = Machine.pendingLine s a k := by
  simp only [Machine.pendingLine, h.accountSlot]

theorem SameLines.earlierAnswer (answer : u.store.lastAnswer = s.store.lastAnswer) (a : Nat) (k l : Key) (d : Disposition) :
    earlierAnswer a k l d u = Machine.earlierAnswer a k l d s := by
  simp only [Machine.earlierAnswer, h.lastTaken, answer, h.holdsLine, h.accountSlot]

/-- A line placed on a state on the way to the commit. -/
theorem placeLine_withLines (up : u.power = .up) (a : Nat) (l : Line) : placeLine a l u =
    (withLines (placeLine a l s).1 (if (placeLine a l s).2 = true then [] else [(officerMaster, .passbookFull a)]) u,
      (placeLine a l s).2) := by
  unfold placeLine
  rw [h.entryFor]
  cases Machine.entryFor s a with
  | some e => simp [withLines, setAccount, touch, h.accounts, h.clock, ← h.lastTaken]
  | none =>
    have full : raiseFull a u = notified [(officerMaster, .passbookFull a)] u := raiseOfficer_up _ up
    have store : (raiseFull a s).store = s.store := raiseTo_store _ _ s
    simp only [full, withLines, store, ← h.accounts, ← h.lastTaken]
    rfl

/-- The cases of R104's table on a state on the way to the commit. -/
theorem actOnReversal_withLines (up : u.power = .up) (r : Record) (original : Nat) (d : Disposition) :
    actOnReversal r original d u = (withLines (actOnReversal r original d s).1
      (if (actOnReversal r original d s).2 = .contraNotHeld then [(officerMaster, .passbookFull (r.account.getD 0))] else []) u,
      (actOnReversal r original d s).2) := by
  unfold actOnReversal
  simp only [h.recordKey, h.pendingLine]
  split
  · simp [withLines_self h]
  · cases Machine.pendingLine s (r.account.getD 0) (Machine.recordKey s original) with
    | some e => simp [withLines, setAccount, touch, h.accounts, h.clock, ← h.lastTaken]
    | none =>
      simp only [placeLine_withLines h up]
      cases (placeLine (r.account.getD 0) _ s).2 <;> rfl

/-- A handover on a state on the way to the commit does to it what it does to the state before. -/
theorem handReversal_handedOver (up : u.power = .up) (answer : u.store.lastAnswer = s.store.lastAnswer) (r : Record)
    (original : Nat) (d : Disposition) : handReversal r original d u =
      (handedOver r (handReversal r original d s) s u, (handReversal r original d s).2) := by
  unfold handReversal handedOver fullNotice
  simp only [h.recordKey, h.alreadyTaken, h.earlierAnswer answer, disposition_eq_notHeld]
  cases Machine.alreadyTaken s (Machine.recordKey s r.sequence) with
  | true => simp [withLines_self h, setLastAnswer, ← answer]
  | false =>
    simp only [actOnReversal_withLines h up, and_true, Bool.false_eq_true, if_false]
    rfl

theorem handReversalLine_handedOver (up : u.power = .up) (answer : u.store.lastAnswer = s.store.lastAnswer) (r o : Record) :
    handReversalLine r o u = (handedOver r (handReversalLine r o s) s u, (handReversalLine r o s).2) := by
  unfold handReversalLine
  split
  · exact handReversal_handedOver h up answer r _ _
  · simp [handedOver, fullNotice, disposition_eq_notHeld, withLines_self h, setLastAnswer, ← answer]

end

/-! ### The commit of a reversal (R40 to R42) -/

/-- The record of a reversal, with its sequence. -/
def reversalRecord (s : State) (p : Position) (n : DrawerNo) (o : Record) : Record :=
  { reverseRecord s p n o with sequence := s.store.day.used + 1 }

/-- The state a reversal leaves before its record is marked, `x` being the one after the lookup: the record appended and
the cash changed, as by a posting without a line, and the line handed over. -/
def reversedState (p : Position) (n : DrawerNo) (o : Record) (s x : State) : State :=
  let r := reversalRecord s p n o
  handedOver r (handReversalLine r o s) s (postedState .change r n (inverseDeltas o) s x)

theorem commitReverse_frame (p : Position) (n : DrawerNo) (o : Record) (s : State) :
    UnchangedBut [.journal, .day, .windows, .drawers, .accounts, .lastTaken, .buffers, .screens, .inExecution] s
      (commitReverse p n o s).1 := by
  unfold commitReverse
  refine setApplied_unchanged _ _ (by decide) (UnchangedBut.trans ?_ ((handReversalLine_frame _ _ _).mono (by decide)))
  exact cashChange_unchanged _ _ _ _ (by decide) ((appendRecord_frame _ s).mono (by decide))

/-- The record of a reversal, field by field, as R41 gives it. -/
theorem reversalRecord_eq (s : State) (p : Position) (n : DrawerNo) (o : Record) :
    reversalRecord s p n o = { emptyRecord .reversal with
      sequence := s.store.day.used + 1
      position := some p
      teller := (s.store.positions.get p).teller
      drawer := some n
      account := o.account
      postKind := o.postKind
      homeAmount := o.homeAmount.map fun x => -x
      exchange := o.exchange
      tender := (denoms.filter fun x => (negate (entryDeltas o.tender)).get x != 0).map fun x =>
        (x, (negate (entryDeltas o.tender)).get x)
      narrative := o.narrative
      reverses := some o.sequence } := by
  simp only [reversalRecord, reverseRecord, deltaEntries_eq]
  rfl

theorem remainderOf_reversalRecord (s : State) (p : Position) (n : DrawerNo) (o : Record) :
    remainderOf (reversalRecord s p n o) = match o.exchange with
      | some (.conversion v _) => -(v.remainder : Int)
      | _ => 0 := by
  rw [remainderOf, show (reversalRecord s p n o).exchange = o.exchange from rfl]
  cases o.exchange with
  | none => rfl
  | some part => cases part <;> rfl

section
variable {p : Position} {n : DrawerNo} {o : Record} {s x : State}

theorem reversedState_windows (store : x.store = s.store) (up : x.power = .up) :
    (reversedState p n o s x).port.windows =
      notify (highNotice s ++ cashNotices s n (applyDeltas (s.store.drawers.get n).current (inverseDeltas o)) ++
        fullNotice s (reversalRecord s p n o) (handReversalLine (reversalRecord s p n o) o s).2.disposition)
        x.port.windows := by
  let r := reversalRecord s p n o
  let v : State := notified (highNotice s) (writeAppend r x)
  have drawers : v.store.drawers = s.store.drawers := by rw [← store]; rfl
  have notices (c : Counts) : cashNotices v n c = cashNotices s n c :=
    cashNotices_congr drawers (by rw [← store]; rfl) (by rw [← store]; rfl) (by rw [← store]; rfl) n c
  have cash := cashChange_windows n (inverseDeltas o) (s.store.day.used + 1) (remainderOf r) (s := v) up
  have silent : fullNotice s r (lineOf .change r s).2 = [] := rfl
  simp only [reversedState, handedOver, setLastAnswer_port, withLines, postedState, notified_windows]
  rw [show fullNotice s (reversalRecord s p n o) _ = [] from silent, notify_nil, notify_append, notify_append]
  exact congrArg _ (cash.trans (by rw [notices, drawers]; rfl))

theorem reversedState_rendered : Rendered x.scu (reversedState p n o s x).scu := by
  simp only [reversedState, handedOver, setLastAnswer_scu, withLines, postedState, notified_scu]
  exact cashChange_rendered n _ _ _ (notified _ (writeAppend _ x))

variable (store : x.store = s.store) (clock : x.clock = s.clock)
include store clock

theorem commitReverse_eq (up : x.power = .up) :
    let line := handReversalLine (reversalRecord s p n o) o s
    commitReverse p n o x = (setApplied (s.store.day.used + 1) line.2.disposition (reversedState p n o s x), line.2) := by
  let r := reversalRecord s p n o
  let v : State := notified (highNotice s) (writeAppend r x)
  let w : State := cashChange n (inverseDeltas o) (s.store.day.used + 1) (remainderOf r) v
  have own : reversalRecord x p n o = r := by simp only [r, reversalRecord, reverseRecord, tellerAt, store]
  have appended : appendRecord r x = v := by rw [appendRecord_up _ up, highNotice, store]; rfl
  have frame : UnchangedBut [.drawers, .windows, .buffers, .screens, .inExecution] v w := cashChange_frame _ _ _ _ v
  have answer : w.store.lastAnswer = s.store.lastAnswer :=
    (frame.get .lastTaken (by decide)).2.trans (by rw [← store]; rfl)
  have same : SameLines s w := by
    refine ⟨?_, ?_, ?_, ?_, ?_⟩
    · exact (frame.get .accounts (by decide)).trans (by rw [← store]; rfl)
    · exact (frame.get .classes (by decide)).trans (by rw [← store]; rfl)
    · exact (frame.get .lastTaken (by decide)).1.trans (by rw [← store]; rfl)
    · exact (congrArg DayRecord.date (frame.get .day (by decide))).trans (by rw [← store]; rfl)
    · exact (frame.get .clock (by decide)).trans clock
  have posted : postedState .change r n (inverseDeltas o) s x = w := withLines_self same
  have handed := handReversalLine_handedOver same ((frame.get .power (by decide)).trans up) answer r o
  have commit (q : Nat) (hq : x.store.day.used + 1 = q) (r' : Record) (hr : reversalRecord x p n o = r') (m : State)
      (e : appendRecord r' x = m) :
      let y := handReversalLine r' o (cashChange n (inverseDeltas o) q (remainderOf r') m)
      commitReverse p n o x = (setApplied q y.2.disposition y.1, y.2) := by subst hq hr e; rfl
  rw [commit _ (by rw [store]) r own v appended, handed, ← posted]
  rfl

theorem reversedState_store : (reversedState p n o s x).store =
    let line := handReversalLine (reversalRecord s p n o) o s
    { (writeAppend (reversalRecord s p n o) s).store with
      drawers := s.store.drawers.set n
        (afterCash s n (inverseDeltas o) (s.store.day.used + 1) (remainderOf (reversalRecord s p n o)))
      accounts := line.1.store.accounts
      lastTaken := line.1.store.lastTaken
      lastAnswer := line.1.store.lastAnswer } := by
  simp only [reversedState, handedOver, setLastAnswer, withLines, notified_store, postedState_store store clock]

end

/-! ### The checks and the answer of a reversal (R38) -/

/-- A record whose check stands leaves no trace when it is read. -/
theorem afterChecks_checked {r : Record} (ok : r.checkOk = true) (s : State) (l : List Record) :
    afterChecks s (r :: l) = afterChecks s l := by
  simp [afterChecks, faultAfterChecks, checkNotices, ok]

/-- The refusal of a reversal whose original does not stand to be reversed. -/
def notToReverse (s : State) : Verdict := refuse s ⟨false, .wrongState, []⟩

section
variable {r : ReverseReq} {o : Record} {s u : State}

theorem reverseFound_notFound {a : Lookup} (lookup : reversalLookup r.sequence.nat s = (u, a)) (h : a.NotFound) :
    reverseFound r s = notToReverse u := by
  cases a with
  | checkFailed | reversed => simp only [reverseFound, lookup]; rfl
  | found o => exact absurd rfl (h o)

theorem reverseFound_found (lookup : reversalLookup r.sequence.nat s = (u, .found o)) : reverseFound r s =
    judge (reverseLaterChecks u (drawerAt u r.position) o) u (cashReverseTaken r o u) := by
  simp only [reverseFound, lookup]

/-- Only a posting of the drawer is reversed: another record is refused at the first of the later checks. -/
theorem reverseFound_notPosting {n : DrawerNo} (lookup : reversalLookup r.sequence.nat s = (u, .found o))
    (drawer : drawerAt u r.position = n) (other : o.kind ≠ .posting ∨ o.drawer ≠ some n) :
    reverseFound r s = notToReverse u := by
  have failed : (o.kind == .posting && o.drawer == some n) = false := by
    rcases other with e | e <;> simp [e]
  rw [reverseFound_found lookup, drawer, reverseLaterChecks, failed, List.cons_append, List.cons_append]
  exact judge_refused (by rw [firstFailure_cons]; rfl)

end

theorem drawerAt_val {p : Position} {n : DrawerNo} {s : State} (bound : (s.store.positions.get p).drawer = some n) :
    drawerAt s (.value p.val) = n := by
  rw [drawerAt, positionOf_val, boundDrawer, bound]; rfl

theorem reverseFirstChecks_pass {h : ReqHead} {p : Position} {n : DrawerNo} {sequence : Nat} {s : State}
    (may : MayActFor h s p) (opened : s.store.day.state = .opened) (bound : (s.store.positions.get p).drawer = some n)
    (unlocked : (s.scu.screens.get p).lockHeld = false) (low : 1 ≤ sequence) (used : sequence ≤ s.store.day.used)
    (high : sequence ≤ 16384) : ∀ c ∈ reverseFirstChecks h ⟨.value p.val, .value sequence⟩ s, c.pass = true := by
  have number : inRange 1 16384 (.value sequence) = true := (inRange_value ..).mpr ⟨low, high⟩
  simp only [reverseFirstChecks, List.forall_mem_append, List.forall_mem_cons]
  refine ⟨?_, ?_, by simp⟩
  · exact counterChecks_pass (r := ⟨.value p.val, .absent, .absent, .absent, .absent, .absent, .absent, .absent⟩) rfl may
      opened bound unlocked
  · simp only [may.1, number, Bool.not_false, Bool.true_and]
    exact decide_eq_true used

theorem reverseLaterChecks_pass {n : DrawerNo} {o : Record} {s : State} (posting : o.kind = .posting)
    (own : o.drawer = some n)
    (restricted : o.postKind = some .withdrawal ∨ o.postKind = some .exchangeBuy → (s.store.drawers.get n).excess = false)
    (fits : FitsDrawer (s.store.drawers.get n) (inverseDeltas o)) (room : s.store.day.used + s.jsu.holds + 1 ≤ 16352) :
    ∀ c ∈ reverseLaterChecks s n o, c.pass = true := by
  have mark : (reversalRaisesHome o.postKind && (s.store.drawers.get n).excess) = false := by
    cases raises : reversalRaisesHome o.postKind with
    | false => rfl
    | true => rw [restricted (by simpa [reversalRaisesHome] using raises)]; rfl
  simp only [reverseLaterChecks, List.forall_mem_append, List.forall_mem_cons, mark]
  refine ⟨⟨⟨by simp [posting, own], rfl, by simp⟩, countChecks_pass fits⟩, ?_, by simp⟩
  simpa [roomFor, holdLimit, Config.ordinaryLimit] using room

/-- A reversal that passes its checks is answered from the drawer it leaves. -/
theorem cashReverseTaken_eq {p : Position} {n : DrawerNo} {sequence : Nat} {o : Record} {s x : State}
    (store : x.store = s.store) (clock : x.clock = s.clock) (up : x.power = .up)
    (bound : (s.store.positions.get p).drawer = some n) :
    let r := reversalRecord s p n o
    let line := handReversalLine r o s
    let u := setApplied (s.store.day.used + 1) line.2.disposition (reversedState p n o s x)
    let after := afterCash s n (inverseDeltas o) (s.store.day.used + 1) (remainderOf r)
    cashReverseTaken ⟨.value p.val, .value sequence⟩ o x = take u
      [numField (s.store.day.used + 1), numField n.val, [.amount (homeTotal s after)], [.flag after.excess],
        numField line.2.place] := by
  intro r line u after
  have commit : commitReverse p n o x = (u, line.2) := commitReverse_eq store clock up
  have left := reversedState_store (p := p) (n := n) (o := o) store clock
  have drawer : u.store.drawers.get n = after :=
    (congrArg (fun d : Table Drawer 13 => d.get n) (congrArg Store.drawers left :)).trans (Table.get_set_self _ _ _)
  have home : homeTotal u after = homeTotal s after := homeTotal_congr (congrArg Store.currencies left :) after
  have here : drawerAt x (.value p.val) = n := drawerAt_val (by rw [store]; exact bound)
  simp only [cashReverseTaken, here, positionOf_val, commit, nextSequence, store, drawer, home]

/-- The state in which a reversal is judged once its lookup has read the records `l`: the idle count of its position has been
restarted, and the faults of the failed checks are captured and told. -/
structure LookedUp (p : Position) (l : List Record) (s x : State) : Prop where
  frame : UnchangedBut [.screens, .idles, .windows, .fault] s x
  store : x.store = s.store
  scu : x.scu = restartedScu s p
  fault : x.port.fault = faultAfterChecks s l
  windows : x.port.windows = notify (checkNotices l) s.port.windows

theorem lookedUp_afterChecks {s : State} (up : s.power = .up) (p : Position) (l : List Record) :
    LookedUp p l s (afterChecks { s with scu := restartedScu s p } l) where
  frame := ((restartedScu_frame p s).mono (by decide)).trans ((afterChecks_frame l (by exact up)).mono (by decide))
  store := rfl
  scu := rfl
  fault := by simp only [afterChecks, faultAfterChecks]
  windows := rfl

/-- A reversal refused after its lookup leaves the restarted idle count, the faults captured and the answer. -/
theorem exec_notToReverse {h : ReqHead} {p : Position} {sequence : Nat} {s x : State} {l : List Record}
    (served : InService h (.cashReverse h ⟨.value p.val, .value sequence⟩) s)
    (passed : ∀ c ∈ reverseFirstChecks h ⟨.value p.val, .value sequence⟩ { s with scu := restartedScu s p },
      c.pass = true)
    (read : LookedUp p l s x)
    (found : reverseFound ⟨.value p.val, .value sequence⟩ { s with scu := restartedScu s p } = notToReverse x) :
    ∃ t, exec (.cashReverse h ⟨.value p.val, .value sequence⟩) s = .next t ∧
      UnchangedBut [.fault, .screens, .idles, .windows, .responses, .inExecution, .turns] s t ∧
      t.scu = restartedScu s p ∧ t.port.fault = faultAfterChecks s l ∧
      Answered h 33 .wrongState false [] (checkNotices l) s t :=
  ⟨_, exec_taken served rfl (restartNamed_named _ p rfl s) passed found rfl,
    respond_unchangedBut read.frame h _ _ _ _ (by decide) (by decide), read.scu, read.fault,
    answered_of_frame served read.frame (by simp [unitOf, requestKind]) (by decide) read.windows _ _ _ _⟩

end Sys2Proof.Machine

open Sys2Proof Sys2Proof.Machine

/-- Settles O34: the lookup reads the original and the later records up to the one that ends its search; where it ends at a
REVERSAL, or the original is not a posting of the drawer that stands, the reversal is refused; otherwise the commit is
`reversedState` with its record marked. -/
theorem reversalsApplyTheInverse : Obligations.ReversalsApplyTheInverse := by
  unfold Obligations.ReversalsApplyTheInverse
  intro h p n sequence o s i d next served may whole stands opened bound unlocked low used high named later Refused
  let s1 : State := { s with scu := restartedScu s p }
  let request : ReverseReq := ⟨.value p.val, .value sequence⟩
  have up : s1.power = .up := served.up
  have restarted : restartNamed i s = s1 := restartNamed_named i p rfl s
  have passed : ∀ c ∈ reverseFirstChecks h request s1, c.pass = true :=
    reverseFirstChecks_pass may opened bound (by simpa [s1] using unlocked) low used high
  have recorded : recordAt s1 sequence = some o := (if_pos ⟨low, used⟩).trans named
  have refused {read : List Record} (v : reverseFound request s1 = notToReverse (afterChecks s1 (o :: read))) :
      Refused read := exec_notToReverse served passed (lookedUp_afterChecks served.up p _) v
  refine ⟨?_, ?_, ?_⟩
  case refine_1 =>
    intro passedBy r rest reading others kind ends
    obtain ⟨a, notFound, lookup⟩ := reversalLookup_met up recorded reading others ⟨kind, ends⟩
    exact refused (reverseFound_notFound lookup notFound)
  case refine_2 =>
    intro unfit unmet
    have lookup := reversalLookup_unmet up recorded unmet
    cases ok : o.checkOk with
    | false =>
      rw [ok] at lookup
      exact refused (reverseFound_notFound lookup Lookup.checkFailed_notFound)
    | true =>
      rw [ok] at lookup
      exact refused (reverseFound_notPosting lookup (drawerAt_val bound) (unfit.resolve_left (by simp [ok])))
  case refine_3 =>
    intro ok posting own unmet inverse restricted fits room record line after
    have lookup : reversalLookup sequence s1 = (afterChecks s1 later, .found o) := by
      have found := reversalLookup_unmet up recorded unmet
      rw [if_pos ok, afterChecks_checked ok] at found
      exact found
    have read := lookedUp_afterChecks served.up p later
    change LookedUp p later s (afterChecks s1 later) at read
    generalize afterChecks s1 later = x at *
    have clock : x.clock = s.clock := read.frame.get .clock (by decide)
    have power : x.power = .up := (read.frame.get .power (by decide)).trans served.up
    have sequence_eq : o.sequence = sequence := by
      rw [stands.1.2 (sequence - 1) (by omega) o named]; omega
    have record_eq : reversalRecord s p n o = record := by rw [reversalRecord_eq, sequence_eq]
    have remainder := remainderOf_reversalRecord s p n o
    rw [record_eq] at remainder
    have line_eq : handReversalLine record o s = line := by
      simp only [line, handReversalLine, record, sequence_eq, makesLine, Bool.or_eq_true, beq_iff_eq]
    let u : State := setApplied next line.2.disposition (reversedState p n o s x)
    have commit := commitReverse_eq (p := p) (n := n) (o := o) read.store clock power
    have taken := cashReverseTaken_eq (sequence := sequence) (o := o) read.store clock power bound
    have store := reversedState_store (p := p) (n := n) (o := o) read.store clock
    simp only [record_eq, line_eq, remainder] at commit taken store
    have here : drawerAt x request.position = n := drawerAt_val (by rw [read.store]; exact bound)
    have passedLater : ∀ c ∈ reverseLaterChecks x n o, c.pass = true :=
      reverseLaterChecks_pass posting own (by rw [read.store]; exact restricted) (by rw [read.store]; exact fits)
        (by rw [read.store, show x.jsu = s.jsu from read.frame.get .jsu (by decide)]; exact room)
    have verdict := (reverseFound_found (r := request) lookup).trans (judge_taken x _ (firstFailure_eq_none.mpr
      (by rw [here]; exact passedLater)))
    have commitFrame := commitReverse_frame p n o x
    rw [commit] at commitFrame
    have frame : UnchangedBut [.journal, .day, .drawers, .accounts, .lastTaken, .fault, .buffers, .screens, .idles, .windows,
        .inExecution] s u := (read.frame.mono (by decide)).trans (commitFrame.mono (by decide))
    have windows : u.port.windows = notify (checkNotices later ++ highNotice s ++ cashNotices s n after.current ++
        fullNotice s record (if line.2 = .contraNotHeld then .notHeld else .none)) s.port.windows := by
      have own := reversedState_windows (p := p) (n := n) (o := o) read.store power
      rw [record_eq, line_eq, fullNotice_disposition, read.windows, ← notify_append, ← List.append_assoc,
        ← List.append_assoc] at own
      exact own
    have drawers : u.store.drawers = s.store.drawers.set n after := congrArg Store.drawers store
    have committed : Committed record line.2.disposition s u :=
      setApplied_committed whole (congrArg Store.journal store :) (congrArg Store.day store :)
    refine ⟨_, exec_taken served rfl restarted passed (verdict.trans taken) rfl,
      respond_unchangedBut frame h _ _ _ _ (by decide) (by decide), ?_, ?_, ?_, drawers, ?_, ?_, ?_, ?_⟩
    · have rendered : Rendered x.scu u.scu := reversedState_rendered
      rw [read.scu] at rendered
      exact rendered
    · exact (commitFrame.get .fault (by decide)).trans read.fault
    · exact committed
    · exact (congrArg Store.accounts store :)
    · exact (congrArg Store.lastTaken store :)
    · exact (congrArg Store.lastAnswer store :)
    · exact answered_of_frame served frame (by simp [i, unitOf, requestKind]) (by decide) windows _ _ _ _
end

section
/-! SUPPORT. What a division rounded up comes to, and the stages of a conversion (R50, R51, R52). -/

namespace Sys2Proof.Machine

/-! ### Division rounded up -/

/-- Rounded up, a quotient covers what is divided and exceeds it by less than the divisor. -/
theorem divUp_covers (a : Nat) {b : Nat} (h : 0 < b) : a ≤ divUp a b * b ∧ divUp a b * b < a + b := by
  have := Nat.div_add_mod' (a + b - 1) b
  have := Nat.mod_lt (a + b - 1) h
  unfold divUp
  omega

/-! ### The stages, each on its side -/

/-- Whatever its direction, a conversion pays a multiple of the cash unit (R52). -/
theorem cashOf_mod (dir : Direction) (net unit : Nat) : cashOf dir net unit % unit = 0 := by
  cases dir <;> exact Nat.mul_mod_left _ _

/-- The fee is the per-mille rounded up, within the schedule's bounds (R51). -/
theorem feeOf_spec (fee : FeeSchedule) (gross : Nat) : ∃ raw, 1000 * raw < gross * fee.perMille + 1000 ∧
    gross * fee.perMille ≤ 1000 * raw ∧ feeOf fee gross = min (max raw fee.minimum) fee.maximum := by
  have := divUp_covers (gross * fee.perMille) (b := 1000) (by decide)
  exact ⟨divUp (gross * fee.perMille) 1000, by omega, by omega, rfl⟩

theorem grossOf_buy (amount rate decimals : Nat) :
    grossOf .buy amount rate decimals * 1000000 ≤ amount * rate * 10 ^ (2 - decimals) ∧
      amount * rate * 10 ^ (2 - decimals) < (grossOf .buy amount rate decimals + 1) * 1000000 := by
  simp only [grossOf]
  omega

theorem grossOf_sell (amount rate decimals : Nat) :
    amount * rate * 10 ^ (2 - decimals) ≤ grossOf .sell amount rate decimals * 1000000 ∧
      grossOf .sell amount rate decimals * 1000000 < amount * rate * 10 ^ (2 - decimals) + 1000000 :=
  divUp_covers _ (by decide)

theorem cashOf_buy (net : Nat) {unit : Nat} (h : 0 < unit) :
    cashOf .buy net unit ≤ net ∧ net < cashOf .buy net unit + unit := by
  have := Nat.div_add_mod' net unit
  have := Nat.mod_lt net h
  simp only [cashOf]
  omega

theorem cashOf_sell (net : Nat) {unit : Nat} (h : 0 < unit) :
    net ≤ cashOf .sell net unit ∧ cashOf .sell net unit < net + unit := divUp_covers net h

end Sys2Proof.Machine

open Sys2Proof Sys2Proof.Machine

/-- Settles O21: each stage of the conversion is one of the roundings above, down for BUY and up for SELL. -/
theorem conversionBringsItsStagesToWholeUnits : Obligations.ConversionBringsItsStagesToWholeUnits := by
  unfold Obligations.ConversionBringsItsStagesToWholeUnits
  intro f amount rate decimals unit fee _ positive
  refine ⟨fun dir => ⟨rfl, rfl, rfl, cashOf_mod dir _ unit, feeOf_spec fee _⟩, ?_, ?_⟩
  · intro v
    obtain ⟨below, above⟩ := grossOf_buy amount rate decimals
    obtain ⟨covered, short⟩ := cashOf_buy v.net positive
    have net : v.net = v.gross - v.fee := rfl
    have remainder : v.remainder = v.net - v.cash := rfl
    change v.cash ≤ v.net at covered
    change v.net < v.cash + unit at short
    exact ⟨below, above, by omega, by omega, by omega⟩
  · intro v
    obtain ⟨below, above⟩ := grossOf_sell amount rate decimals
    obtain ⟨covers, least⟩ := cashOf_sell v.net positive
    have remainder : v.remainder = v.cash - v.net := rfl
    change v.net ≤ v.cash at covers
    change v.cash < v.net + unit at least
    exact ⟨below, above, rfl, by omega, by omega⟩
end

section
/-! SUPPORT. What a change of the rate board commits (R45, R46, R47, R49). -/

namespace Sys2Proof.Machine

/-! ### The board committed (R47) -/

/-- The RATE_CHANGE record of a whole entry, before the append writes its place and time. -/
def boardRecord (f : Foreign) (e : BoardEntry) (lifetime : Nat) (s : State) : Record :=
  { emptyRecord .rateChange with exchange := some (.board f e lifetime (nextGeneration s.store.board)) }

section
variable (f : Foreign) (e : BoardEntry) (lifetime : Nat) {s : State} (up : s.power = .up)
include up

theorem commitBoard_up : commitBoard f e lifetime s = setApplied (s.store.day.used + 1) .none
    (modifyBoard (writeBoard f e lifetime (nextGeneration s.store.board) (s.store.day.used + 1))
      (notified (highNotice s) (writeAppend (boardRecord f e lifetime s) s))) := by
  rw [← appendRecord_up _ up]; rfl

theorem commitBoard_board : (commitBoard f e lifetime s).store.board =
    writeBoard f e lifetime (nextGeneration s.store.board) (s.store.day.used + 1) s.store.board := by
  rw [commitBoard_up f e lifetime up]; rfl

theorem commitBoard_scu : (commitBoard f e lifetime s).scu = s.scu := by rw [commitBoard_up f e lifetime up]; rfl

theorem commitBoard_windows : (commitBoard f e lifetime s).port.windows = notify (highNotice s) s.port.windows := by
  rw [commitBoard_up f e lifetime up]; rfl

theorem commitBoard_committed (whole : JournalWhole s) :
    Committed (boardRecord f e lifetime s) .none s (commitBoard f e lifetime s) := by
  rw [commitBoard_up f e lifetime up]
  exact setApplied_committed whole rfl rfl

end

/-! ### Foreign currencies named -/

@[simp] theorem foreignOf_val (f : Foreign) : foreignOf (.value (f.val + 1)) = f := by
  simp [foreignOf, Fld.nat, Fld.getD]

theorem foreignDefined_val {s : State} {f : Foreign} (defined : isDefined s (currencyOf f) = true) :
    foreignDefined s (.value (f.val + 1)) = true := by
  have named : inRange 1 3 (.value (f.val + 1)) = true := (inRange_value _ _ _).mpr (by omega)
  rw [foreignDefined, foreignOf_val, named, defined]; rfl

/-! ### The checks of RATE.SET and FEE.SET -/

section
variable {h : ReqHead} {f : Foreign} {s : State} (officer : FromOfficer h)
  (day : s.store.day.state = .opened ∨ s.store.day.state = .closing) (defined : isDefined s (currencyOf f) = true)
  (room : s.store.day.used + s.jsu.holds + 1 ≤ 16352)
include officer day defined room

theorem rateSetChecks_pass {buy sell : Nat} (low : 1 ≤ buy) (ordered : buy ≤ sell) (high : sell ≤ 99999999) :
    ∀ c ∈ rateSetChecks h ⟨.value (f.val + 1), .value buy, .value sell⟩ s, c.pass = true := by
  have buyOk : inRange 1 99999999 (.value buy) = true := (inRange_value _ _ _).mpr (by omega)
  have sellOk : inRange 1 99999999 (.value sell) = true := (inRange_value _ _ _).mpr (by omega)
  simp only [rateSetChecks, List.forall_mem_append, List.forall_mem_cons]
  refine ⟨officerOnly_pass officer, ?_, ?_, ?_, ?_, ?_, by simp⟩
  · simpa [dayIs] using day
  · simp [officer.2, foreignDefined_val defined]
  · simp [buyOk, sellOk]
  · exact decide_eq_true ordered
  · simpa [roomFor, holdLimit, Config.ordinaryLimit] using room

theorem feeSetChecks_pass {buy sell : FeeFields} {lifetime : Fld Nat} (formed : lifetime ≠ .malformed)
    (fees : ∀ x ∈ [buy, sell], x.perMille ≤ 50 ∧ 0 ≤ x.minimum ∧ x.minimum ≤ x.maximum ∧ x.maximum ≤ 99999999999) :
    ∀ c ∈ feeSetChecks h ⟨.value (f.val + 1), .value buy, .value sell, lifetime⟩ s, c.pass = true := by
  have one : ∀ x ∈ [buy, sell], feeFieldOk x = true ∧ feeWithinLimit x = true ∧ feeOrdered x = true := fun x hx => by
    have := fees x hx
    have limit : (Config.amountLimit : Int) = 99999999999 := rfl
    simp only [feeFieldOk, feeWithinLimit, feeOrdered, Bool.and_eq_true, decide_eq_true_eq, limit]
    omega
  obtain ⟨⟨buyField, buyLimit, buyOrder⟩, sellField, sellLimit, sellOrder⟩ := by simpa using one
  have lifetimeOk : lifetime.optional (fun _ => true) = true := by
    cases lifetime with
    | malformed => exact absurd rfl formed
    | absent | value _ => rfl
  simp only [feeSetChecks, List.forall_mem_append, List.forall_mem_cons]
  refine ⟨officerOnly_pass officer, ?_, ?_, ?_, ?_, ?_, ?_, by simp⟩
  · simpa [dayIs] using day
  · simp [officer.2, foreignDefined_val defined]
  · simp [Fld.required, buyField, sellField, lifetimeOk]
  · simp [Fld.required, buyLimit, sellLimit]
  · simp [Fld.required, buyOrder, sellOrder]
  · simpa [roomFor, holdLimit, Config.ordinaryLimit] using room

end

/-! ### What the two requests leave and answer -/

theorem rateSetTaken_eq (f : Foreign) (buy sell : Nat) {s : State} (up : s.power = .up) :
    rateSetTaken ⟨.value (f.val + 1), .value buy, .value sell⟩ s =
      take (report (rateReports f)
          (commitBoard f { s.store.board.rows.get f with rates := some (buy, sell) } s.store.board.lifetime s))
        [numField (f.val + 1), [.wide buy], [.wide sell], numField (nextGeneration s.store.board)] := by
  simp only [rateSetTaken, foreignOf_val, report_store, commitBoard_board _ _ _ up, Fld.nat, Fld.getD]
  rfl

/-- The lifetime FEE.SET leaves: the one given, clamped, or the board's (R46). -/
def lifetimeAfter (lifetime : Fld Nat) (b : Board) : Nat := (lifetime.toOption.map (clamp 30 900)).getD b.lifetime

theorem feeSetTaken_eq (f : Foreign) (buy sell : FeeFields) (lifetime : Fld Nat) {s : State} (up : s.power = .up) :
    let e : BoardEntry := ⟨(s.store.board.rows.get f).rates, scheduleOf (.value buy), scheduleOf (.value sell)⟩
    let life := lifetimeAfter lifetime s.store.board
    feeSetTaken ⟨.value (f.val + 1), .value buy, .value sell, lifetime⟩ s = take (commitBoard f e life s)
      [feeItems e.buyFee, feeItems e.sellFee, numField life, numField (nextGeneration s.store.board)] := by
  intro e life
  simp only [feeSetTaken, foreignOf_val]
  change take (commitBoard f e life s) [_, _, _, numField (commitBoard f e life s).store.board.generation] = _
  rw [commitBoard_board _ _ _ up]
  rfl

/-- A schedule of amounts that are not below zero is told as it was given. -/
theorem feeItems_scheduleOf {x : FeeFields} (low : 0 ≤ x.minimum) (ordered : x.minimum ≤ x.maximum) :
    feeItems (scheduleOf (.value x)) = [.num x.perMille, .amount x.minimum, .amount x.maximum] := by
  simp [feeItems, scheduleOf, Fld.getD, Int.toNat_of_nonneg low, Int.toNat_of_nonneg (low.trans ordered)]

end Sys2Proof.Machine

open Sys2Proof Sys2Proof.Machine

/-- Settles O24: both requests commit the board's entry with its record, RATE.SET with a report of the rates. -/
theorem ratesAndFeesAreCommittedWithARecord : Obligations.RatesAndFeesAreCommittedWithARecord := by
  unfold Obligations.RatesAndFeesAreCommittedWithARecord
  intro h f s officer whole day defined room old generation
  refine ⟨?_, ?_⟩
  case refine_1 =>
    intro buy sell c served low ordered high e
    let lifetime := s.store.board.lifetime
    let u : State := report (rateReports f) (commitBoard f e lifetime s)
    have taken := rateSetTaken_eq f buy sell served.up
    have frame : UnchangedBut [.journal, .day, .windows, .board, .buffers, .screens, .inExecution] s u := by
      have own := rateSet_state_frame ⟨.value (f.val + 1), .value buy, .value sell⟩ s
      rwa [taken] at own
    have store : u.store = (commitBoard f e lifetime s).store := report_store _ _
    have windows : u.port.windows = notify (highNotice s) s.port.windows := by
      rw [← commitBoard_windows f e lifetime served.up]; exact report_port_windows _ _
    refine ⟨_, exec_taken served rfl (restartNamed_none c rfl s) (rateSetChecks_pass officer day defined room low ordered high)
        taken rfl, respond_unchangedBut frame h _ _ _ _ (by decide) (by decide),
      (Rendered.of_eq (commitBoard_scu f e lifetime served.up)).report _, ?_,
      (commitBoard_committed f e lifetime served.up whole).congr store,
      answered_of_frame served frame (by simp [c, unitOf, requestKind]) (by decide) windows _ _ _ _⟩
    exact (congrArg Store.board store :).trans (commitBoard_board f e lifetime served.up)
  case refine_2 =>
    intro buy sell lifetime c served formed fees e life
    have taken := feeSetTaken_eq f buy sell lifetime served.up
    have frame : UnchangedBut [.journal, .day, .windows, .board] s (commitBoard f e life s) := commitBoard_frame _ _ _ s
    have clamped : lifetimeAfter lifetime s.store.board = life := by
      cases lifetime <;> rfl
    obtain ⟨⟨-, buyLow, buyOrder, -⟩, -, sellLow, sellOrder, -⟩ := by simpa using fees
    simp only [clamped, feeItems_scheduleOf buyLow buyOrder, feeItems_scheduleOf sellLow sellOrder] at taken
    exact ⟨_, exec_taken served rfl (restartNamed_none c rfl s) (feeSetChecks_pass officer day defined room formed fees)
        taken rfl, respond_unchangedBut frame h _ _ _ _ (by decide) (by decide), commitBoard_board f e life served.up,
      commitBoard_committed f e life served.up whole,
      answered_of_frame served frame (by simp [c, unitOf, requestKind]) (by decide)
        (commitBoard_windows f e life served.up) _ _ _ _⟩
end

section
/-! SUPPORT. How a quote ends by its release and by its time (R57, R58). -/

namespace Sys2Proof.Machine

/-! ### The Exchange Unit's report of a position's quotes (R61) -/

section
variable (l : List Report) (i : Fin 16) (q : Quote) (s : State)

/-- A slot of the quote table set and reported: the Exchange Unit's table and what the report renders. -/
theorem report_setQuote_exu : (report l (setQuote i q s)).exu = { s.exu with quotes := s.exu.quotes.set i (some q) } := by
  rw [report_exu]; rfl

theorem report_setQuote_rendered : Rendered s.scu (report l (setQuote i q s)).scu :=
  @Rendered.report s.scu (setQuote i q s) (.refl _) l

end

/-! ### QUOTE.RELEASE (R58) -/

section
variable {h : ReqHead} {p : Position} {number : Nat} {i : Fin 16} {q : Quote} {s : State}
  (first : FirstWith s.exu.quotes (fun x => x.number = number) i q)
include first

theorem quoteReleaseChecks_pass (may : MayActFor h s p) (low : 1 ≤ number) (high : number ≤ 65535)
    (held : q.state = .held) (own : q.position = p) :
    ∀ c ∈ quoteReleaseChecks h ⟨.value p.val, .value number⟩ s, c.pass = true := by
  have inTable : inRange 1 65535 (.value number) = true := (inRange_value _ _ _).mpr ⟨low, high⟩
  have forIt : heldFor s.exu number p = true := by
    rw [heldFor, quoteSlot_first first]; simp [isHeld, held, own]
  simp only [quoteReleaseChecks, positionOf_val, List.forall_mem_append, List.forall_mem_cons]
  refine ⟨⟨⟨?_, by simp⟩, forPosition_pass may⟩, forIt, by simp⟩
  simp only [may.1, inTable, inRange_val]
  rfl

theorem quoteReleaseTaken_eq : quoteReleaseTaken ⟨.value p.val, .value number⟩ s =
    take (report [.quoteLeft p] (setQuote i { q with state := .expired .released } s)) [] := by
  simp only [quoteReleaseTaken, positionOf_val, endQuote, Fld.nat, Fld.getD, quoteSlot_first first]

end

/-! ### The tick's part at one quote (R57) -/

/-- A quote that the tick ends stands EXPIRED by time. -/
theorem tickQuote_up {q : Quote} (held : q.state = .held) (up : q.life ≤ 1) :
    tickQuote q = { q with state := .expired .time, life := 0 } := by
  simp [tickQuote, isHeld, held, up]

theorem quoteTimesOut_ends {number : Nat} {i : Fin 16} {q : Quote} {s : State} (power : s.power = .up)
    (first : FirstWith s.exu.quotes (fun x => x.number = number) i q) (held : q.state = .held) (up : q.life ≤ 1) :
    quoteTimesOut number s = report [.quoteLeft q.position]
      (notified [(servingMaster s q.position, .quoteExpired q.number)]
        (setQuote i { q with state := .expired .time, life := 0 } s)) := by
  have ends : expiresAtTick q = true := by simp [expiresAtTick, isHeld, held, up]
  rw [quoteTimesOut, quoteSlot_first first]
  simp only [ends, if_true, tickQuote_up held up, raiseExpired]
  rw [raiseAt_up _ _ (by exact power)]
  rfl

/-- A quote with more life, an ended one and a number not held are left alone. -/
theorem quoteTimesOut_leaves {number : Nat} {s : State}
    (stays : ∀ i q, FirstWith s.exu.quotes (fun x => x.number = number) i q → q.state ≠ .held ∨ 1 < q.life) :
    quoteTimesOut number s = s := by
  unfold quoteTimesOut
  split
  · rename_i i q found
    have first := Table.findSome_entries_iff.mp found
    have stays := stays i q (by simpa using first)
    have : expiresAtTick q = false := by
      simp only [expiresAtTick, isHeld, Bool.and_eq_false_iff, beq_eq_false_iff_ne, decide_eq_false_iff_not, Nat.not_le]
      exact stays
    simp [this]
  · rfl

end Sys2Proof.Machine

open Sys2Proof Sys2Proof.Machine

/-- Settles O23: the release sets the quote's slot and reports it; the tick's part does so for a quote that is up, with its
notice, once the Exchange Unit's turn has come. -/
theorem quotesEndByReleaseAndByTime : Obligations.QuotesEndByReleaseAndByTime := by
  unfold Obligations.QuotesEndByReleaseAndByTime
  refine ⟨?_, ?_⟩
  case refine_1 =>
    intro h p number i q s c served may low high first held own
    let s1 : State := { s with scu := restartedScu s p }
    let u : State := report [.quoteLeft p] (setQuote i { q with state := .expired .released } s1)
    have passed : ∀ c ∈ quoteReleaseChecks h ⟨.value p.val, .value number⟩ s1, c.pass = true :=
      quoteReleaseChecks_pass first may low high held own
    have taken : quoteReleaseTaken ⟨.value p.val, .value number⟩ s1 = take u [] := quoteReleaseTaken_eq first
    have frame : UnchangedBut [.exu, .buffers, .screens, .idles, .inExecution] s u := by
      have own := quoteRelease_state_frame ⟨.value p.val, .value number⟩ s1
      rw [taken] at own
      exact ((restartedScu_frame p s).mono (by decide)).trans (own.mono (by decide))
    exact ⟨_, exec_taken served rfl (restartNamed_named c p rfl s) passed taken rfl,
      respond_unchangedBut frame h _ _ _ _ (by decide) (by decide), report_setQuote_rendered _ _ _ s1,
      report_setQuote_exu _ _ _ s1,
      answered_of_frame served frame (by simp [c, unitOf, requestKind]) (by decide)
        (report_port_windows _ _) _ _ _ _⟩
  case refine_2 =>
    intro number s power
    have on : s.power ≠ .off := by simp [power]
    have command : exec (.quoteTimeExpiry number) s = .next (unlessWaits [.exu] (quoteTimesOut number) s) :=
      congrArg Host.Outcome.next (if_neg on)
    have turn : TakenAt s [.exu] ↔ UnitFree s .exu := by rw [← waitsAt_eq_false, waitsAt_one power]
    refine ⟨fun waits => ?_, fun i q first held up free => ?_, fun stays => ?_⟩
    · rw [command, unlessWaits_waits _ (mt turn.mp waits)]
    · have ended := quoteTimesOut_ends power first held up
      have frame := quoteTimesOut_frame number s
      rw [unlessWaits_taken _ (turn.mpr free)] at command
      rw [ended] at command frame
      refine ⟨_, command, frame, @Rendered.report s.scu (notified _ (setQuote _ _ s)) (.refl _) _, report_exu _ _, ?_⟩
      rw [report_port_windows, first.2.1]
      rfl
    · rw [command, unlessWaits, quoteTimesOut_leaves stays, ite_self]
end

section
/-! SUPPORT. Slots and numbers of tables that are taken in order (R55, R64, R116), and the quote a request makes (R50 to
R56). -/

namespace Sys2Proof.Table

variable {α : Type} {n : Nat}

/-- What `findIdx` finds is the lowest entry with the property. -/
theorem findIdx_eq_some {t : Table α n} {p : α → Bool} {i : Fin n} (h : t.findIdx p = some i) :
    p (t.get i) = true ∧ ∀ j < i, p (t.get j) = false := by
  obtain ⟨has, k, hk, at_k, before⟩ := List.find?_eq_some_iff_getElem.mp h
  have same : k = i.val := by rw [← at_k]; simp
  subst same
  exact ⟨has, fun j hj => by simpa using before j.val hj⟩

theorem findIdx_eq_none {t : Table α n} {p : α → Bool} : t.findIdx p = none ↔ ∀ i, p (t.get i) = false := by
  simp [findIdx]

/-- The lowest empty entry, or with none empty the lowest that has ended, is the slot a new entry takes. -/
theorem takenSlot_of_findIdx {t : Table (Option α) n} {ended : α → Bool} {i : Fin n}
    (h : ((t.findIdx Option.isNone).orElse fun _ => t.findIdx fun a => a.elim false ended) = some i) :
    Machine.TakenSlot t.get (fun a => ended a = true) i := by
  cases empty : t.findIdx Option.isNone with
  | some k =>
    rw [empty] at h
    obtain rfl := Option.some.inj h
    obtain ⟨here, before⟩ := findIdx_eq_some empty
    exact .inl ⟨by simpa using here, fun j hj slot => by simpa [slot] using before j hj⟩
  | none =>
    rw [empty] at h
    obtain ⟨here, before⟩ := findIdx_eq_some (show t.findIdx (fun a => a.elim false ended) = some i from h)
    refine .inr ⟨fun j slot => by simpa [slot] using findIdx_eq_none.mp empty j, ?_, fun j hj a slot => by
      simpa [slot] using before j hj⟩
    cases slot : t.get i with
    | none => simp [slot] at here
    | some a => exact ⟨a, rfl, by simpa [slot] using here⟩

/-- Some slot is found where one is empty or has ended. -/
theorem findIdx_isSome {t : Table (Option α) n} {ended : α → Bool} {i : Fin n} (h : ∀ a, t.get i = some a → ended a = true) :
    ((t.findIdx Option.isNone).orElse fun _ => t.findIdx fun a => a.elim false ended).isSome = true := by
  cases empty : t.findIdx Option.isNone with
  | some k => rfl
  | none =>
    cases other : t.findIdx fun a => a.elim false ended with
    | some k => rfl
    | none =>
      have filled := findIdx_eq_none.mp empty i
      have going := findIdx_eq_none.mp other i
      cases slot : t.get i with
      | none => simp [slot] at filled
      | some a => simp [slot, h a slot] at going

end Sys2Proof.Table

namespace Sys2Proof.Machine

/-! ### The first number that is free (R55, R64, R116) -/

/-- The numbers that follow one another from `n` on, as far as `top` of them. -/
theorem iterate_numberAfter (top n : Nat) : ∀ k ≤ top, (numberAfter top)^[k] n =
    if n ≤ top then if n + k ≤ top then n + k else n + k - top else if k = 0 then n else k := by
  intro k
  induction k with
  | zero =>
    intro _
    rw [Function.iterate_zero_apply]
    repeat' split
    all_goals omega
  | succ k ih =>
    intro hk
    rw [Function.iterate_succ_apply', ih (by omega), numberAfter]
    repeat' split
    all_goals omega

/-- Fewer than `top` numbers in a row are all different. -/
theorem iterate_numberAfter_inj {top n j k : Nat} (hj : j < top) (hk : k < top)
    (h : (numberAfter top)^[j] n = (numberAfter top)^[k] n) : j = k := by
  rw [iterate_numberAfter top n j (by omega), iterate_numberAfter top n k (by omega)] at h
  repeat' split at h
  all_goals omega

/-- Of one number more than a table has slots, one is held by none of them. -/
theorem exists_number_free {α : Type} {m top : Nat} (t : Table (Option α) m) (number : α → Nat) (n : Nat) (big : m < top) :
    ∃ k ≤ m, ¬∃ i a, t.get i = some a ∧ number a = (numberAfter top)^[k] n := by
  by_contra none
  have all : ∀ k : Fin (m + 1), ∃ i a, t.get i = some a ∧ number a = (numberAfter top)^[k.val] n := fun k => by
    by_contra free
    exact none ⟨k.val, by omega, free⟩
  choose slot entry here is using all
  obtain ⟨j, k, ne, same⟩ := Fintype.exists_ne_map_eq_of_card_lt slot (by simp)
  have entries : entry j = entry k := Option.some.inj ((here j).symm.trans ((congrArg t.get same).trans (here k)))
  refine ne (Fin.ext (iterate_numberAfter_inj (top := top) (n := n) (by omega) (by omega) ?_))
  rw [← is j, ← is k, entries]

/-- With fuel past the first number that is not held, `firstFree` is that number. -/
theorem firstFree_first {held : Nat → Bool} {top fuel n : Nat} (h : ∃ k < fuel, held ((numberAfter top)^[k] n) = false) :
    FirstFreeNumber (fun x => held x = true) top n (firstFree held top fuel n) := by
  induction fuel generalizing n with
  | zero => obtain ⟨k, hk, -⟩ := h; omega
  | succ fuel ih =>
    unfold firstFree
    split
    · rename_i taken
      obtain ⟨k, hk, free⟩ := h
      cases k with
      | zero => simp [taken] at free
      | succ k =>
        obtain ⟨m, is, notHeld, before⟩ := ih ⟨k, by omega, free⟩
        refine ⟨m + 1, is, notHeld, fun j hj => ?_⟩
        cases j with
        | zero => exact taken
        | succ j => exact before j (by omega)
    · rename_i free
      exact ⟨0, rfl, free, fun j hj => by omega⟩

/-! ### The quote superseded (R55) -/

/-- A slot taken up by `heldSlots`. -/
theorem heldSlot_eq_some {p : Position} {e : Fin 16 × Option Quote} {x : Fin 16 × Quote} :
    (e.2.bind fun q => if isHeld q && q.position == p then some (e.1, q) else none) = some x ↔
      e = (x.1, some x.2) ∧ x.2.state = .held ∧ x.2.position = p := by
  obtain ⟨i, slot⟩ := e
  obtain ⟨j, q⟩ := x
  cases slot with
  | none => simp
  | some a =>
    simp only [Option.bind_some, Option.ite_none_right_eq_some, Option.some.injEq, Prod.mk.injEq, Bool.and_eq_true,
      isHeld, beq_iff_eq]
    constructor
    · rintro ⟨held, rfl, rfl⟩; exact ⟨⟨rfl, rfl⟩, held⟩
    · rintro ⟨⟨rfl, rfl⟩, held⟩; exact ⟨held, rfl, rfl⟩

theorem mem_heldSlots {s : State} {p : Position} {i : Fin 16} {q : Quote} :
    (i, q) ∈ heldSlots s.exu p ↔ s.exu.quotes.get i = some q ∧ HeldAt s p i := by
  simp only [heldSlots, Table.entries, List.mem_filterMap, List.mem_map, heldSlot_eq_some, HeldAt]
  constructor
  · rintro ⟨_, ⟨k, -, rfl⟩, found, held⟩
    obtain ⟨rfl, slot⟩ := Prod.mk.inj found
    exact ⟨slot, q, slot, held⟩
  · rintro ⟨slot, b, same, held⟩
    obtain rfl := Option.some.inj (slot.symm.trans same)
    exact ⟨(i, some q), ⟨i, by simp, by rw [slot]⟩, rfl, held⟩

/-- The slots are listed in ascending order. -/
theorem heldSlots_pairwise (u : Exu) (p : Position) : (heldSlots u p).Pairwise fun a b => a.1 < b.1 := by
  have entries : u.quotes.entries.Pairwise fun a b => a.1 < b.1 := by
    rw [Table.entries, List.pairwise_map]
    exact List.pairwise_lt_finRange 16
  refine List.Pairwise.filterMap _ (fun a b less x hx y hy => ?_) entries
  obtain ⟨rfl, -⟩ := heldSlot_eq_some.mp hx
  obtain ⟨rfl, -⟩ := heldSlot_eq_some.mp hy
  exact less

theorem heldSlots_nodup (u : Exu) (p : Position) : (heldSlots u p).Nodup :=
  (heldSlots_pairwise u p).imp fun less same => absurd (congrArg Prod.fst same) (ne_of_lt less)

theorem toSupersede_eq {s : State} {p : Position} {old : Option (Fin 16 × Quote)} (h : Supersedes s p old) :
    toSupersede s.exu p = old := by
  cases old with
  | none =>
    unfold toSupersede
    split
    · rename_i a b rest l
      have less := heldSlots_pairwise s.exu p
      rw [l] at less
      have less := (List.pairwise_cons.mp less).1 b (by simp)
      have same := h a.1 b.1 (mem_heldSlots.mp (by simp [l] : (a.1, a.2) ∈ _)).2 (mem_heldSlots.mp (by simp [l] : (b.1, b.2) ∈ _)).2
      exact absurd same (ne_of_lt less)
    · rfl
  | some e =>
    obtain ⟨i, a⟩ := e
    obtain ⟨here, held, j, b, there, held', older, two⟩ := h
    have ne : i ≠ j := by
      rintro rfl
      obtain rfl := Option.some.inj (here.symm.trans there)
      exact absurd older (lt_irrefl _)
    have both : (heldSlots s.exu p).Perm [(i, a), (j, b)] := by
      refine (List.perm_ext_iff_of_nodup (heldSlots_nodup _ _) (by simp [ne])).mpr fun ⟨k, q⟩ => ?_
      rw [mem_heldSlots, List.mem_pair, Prod.mk.injEq, Prod.mk.injEq]
      constructor
      · rintro ⟨slot, at_k⟩
        rcases two k at_k with rfl | rfl
        · exact .inl ⟨rfl, Option.some.inj (slot.symm.trans here)⟩
        · exact .inr ⟨rfl, Option.some.inj (slot.symm.trans there)⟩
      · rintro (⟨rfl, rfl⟩ | ⟨rfl, rfl⟩)
        · exact ⟨here, held⟩
        · exact ⟨there, held'⟩
    rw [toSupersede]
    rcases List.perm_pair.mp both with l | l <;> rw [l]
    · simp [earlier, Nat.not_lt_of_lt older]
    · simp [earlier, older]

/-! ### The quote table after the superseding (R55) -/

theorem quoteSlot_isSome {u : Exu} {number : Nat} : (quoteSlot u number).isSome = true ↔
    ∃ k q, u.quotes.get k = some q ∧ q.number = number := by
  constructor
  · intro found
    obtain ⟨⟨k, q⟩, found⟩ := Option.isSome_iff_exists.mp found
    obtain ⟨slot, is, -⟩ := Table.findSome_entries_iff.mp found
    exact ⟨k, q, slot, by simpa using is⟩
  · intro found
    obtain ⟨k, q, first⟩ := Table.exists_firstWith found
    rw [quoteSlot_first first]; rfl

section
variable {s : State} {p : Position} {old : Option (Fin 16 × Quote)} (older : Supersedes s p old)
include older

theorem supersede_get (k : Fin 16) : (supersede s.exu p).quotes.get k = afterSuperseding s old k := by
  rw [supersede, toSupersede_eq older]
  cases old with
  | none => rfl
  | some e =>
    simp only [Table.get_set, afterSuperseding]
    split <;> simp_all [eq_comm]

/-- Superseding changes no number. -/
theorem afterSuperseding_number (k : Fin 16) :
    (afterSuperseding s old k).map Quote.number = (s.exu.quotes.get k).map Quote.number := by
  cases old with
  | none => rfl
  | some e =>
    simp only [afterSuperseding]
    split
    · rename_i at_k; rw [at_k, older.1]; rfl
    · rfl

theorem supersede_holds (number : Nat) : (quoteSlot (supersede s.exu p) number).isSome = true ↔
    ∃ k q, s.exu.quotes.get k = some q ∧ q.number = number := by
  simp only [quoteSlot_isSome, supersede_get older, ← Option.map_eq_some_iff, afterSuperseding_number older]

/-- The slot taken is the lowest empty one, or the lowest with an ended quote. -/
theorem freeQuoteSlot_taken {j : Fin 16} (h : freeQuoteSlot (supersede s.exu p) = some j) :
    TakenSlot (afterSuperseding s old) (fun q => q.state ≠ .held) j := by
  have taken := Table.takenSlot_of_findIdx (ended := fun q => !isHeld q) h
  have same : (supersede s.exu p).quotes.get = afterSuperseding s old := funext (supersede_get older)
  simpa [same, isHeld] using taken

/-- A slot is free where one holds no HELD quote. -/
theorem freeQuoteSlot_isSome (room : ∃ j, ∀ q, afterSuperseding s old j = some q → q.state ≠ .held) :
    (freeQuoteSlot (supersede s.exu p)).isSome = true := by
  obtain ⟨j, free⟩ := room
  refine Table.findIdx_isSome (ended := fun q => !isHeld q) (i := j) fun q slot => ?_
  rw [supersede_get older] at slot
  simpa [isHeld] using free q slot

/-- The number of the new quote is the first that the table does not hold (R55). -/
theorem quoteNumber_first : FirstFreeNumber (fun x => ∃ k q, s.exu.quotes.get k = some q ∧ q.number = x) 65535
    s.store.board.nextQuote (quoteNumber s (supersede s.exu p)) := by
  obtain ⟨k, few, free⟩ := exists_number_free s.exu.quotes Quote.number s.store.board.nextQuote (show 16 < 65535 by decide)
  have first := firstFree_first (held := fun n => (quoteSlot (supersede s.exu p) n).isSome) (fuel := 17)
    ⟨k, by omega, Bool.eq_false_iff.mpr (mt (supersede_holds older _).mp free)⟩
  simp only [supersede_holds older] at first
  exact first

end

/-! ### The checks of QUOTE.REQUEST (R54) -/

/-- The conversion a request comes to at the board's rates. -/
theorem quoteValues_eq {s : State} {f : Foreign} {buy sell : Nat} (rates : (s.store.board.rows.get f).rates = some (buy, sell))
    (dir : Direction) (amount : Nat) : quoteValues s f dir amount =
      let e := s.store.board.rows.get f
      let decimals := (s.store.currencies.get (currencyOf f)).decimals
      match dir with
      | .buy => convert f .buy amount buy decimals (faceOf s (denomOf 0 0)) e.buyFee
      | .sell => convert f .sell amount sell decimals (faceOf s (denomOf 0 0)) e.sellFee := by
  cases dir <;> simp only [quoteValues, rates] <;> rfl

/-! ### The quote written and told (R55, R56) -/

/-- The state with the new quote written, before its report. -/
def withQuote (p : Position) (j : Fin 16) (q : Quote) (s : State) : State :=
  modifyBoard (fun b => { b with nextQuote := numberAfter 65535 q.number })
    { s with exu := ⟨(supersede s.exu p).quotes.set j (some q), s.exu.made + 1⟩ }

/-- The answer gives the quote whole (R56). -/
theorem quoteFields_newQuote {f : Foreign} {amount : Nat} {v : Conversion} (s : State) (number : Nat) (p : Position)
    (dir : Direction) (currency : v.currency = f) (given : v.amount = amount) (old : Option (Fin 16 × Quote)) :
    quoteFields (newQuote s number p dir v) (old.map fun e => e.2.number) =
      [some [.num number], some [.num (f.val + 1)], some [.num (match dir with | .buy => 1 | .sell => 2)],
        some [.amount amount], some [.wide v.rate], some [.amount v.gross], some [.amount v.fee], some [.amount v.net],
        some [.amount v.cash], some [.amount v.remainder], some [.num s.store.board.generation],
        some [.num s.store.board.lifetime], old.map fun e => [.num e.2.number]] := by
  subst currency given
  cases old <;> rfl

/-! ### The request whose checks pass -/

section
variable {h : ReqHead} {p : Position} {f : Foreign} {dir : Direction} {amount : Nat} {s : State} {v : Conversion}
variable (values : quoteValues s f dir amount = v)
include values

theorem quoteRequestChecks_pass (may : MayActFor h s p) (opened : s.store.day.state = .opened)
    (bound : (s.store.positions.get p).drawer.isSome = true) (unlocked : (s.scu.screens.get p).lockHeld = false)
    (defined : isDefined s (currencyOf f) = true) (low : 1 ≤ amount) (high : amount ≤ 1000000000)
    (whole : amount % faceOf s (denomOf (currencyOf f) 0) = 0) (rates : (s.store.board.rows.get f).rates.isSome = true)
    (gross : v.gross ≤ 99999999999) (buys : dir = .buy → v.fee < v.gross ∧ 0 < v.cash)
    (sells : dir = .sell → v.net ≤ 99999999999) (room : (freeQuoteSlot (supersede s.exu p)).isSome = true) :
    ∀ c ∈ quoteRequestChecks h ⟨.value p.val, .value (f.val + 1), .value dir, .value amount⟩ s, c.pass = true := by
  have limit : Config.amountLimit = 99999999999 := rfl
  simp only [quoteRequestChecks, positionOf_val, foreignOf_val, Fld.int, Fld.getD, Int.toNat_natCast, values,
    List.forall_mem_append, List.forall_mem_cons]
  refine ⟨positionChecks_pass may, ?_, bound, ?_, ?_, rates, ?_, ?_, ?_, ?_, room, by simp⟩
  · simp [dayIs, opened]
  · simp [isLocked, unlocked]
  · simp [may.1, foreignDefined_val defined, Fld.required, whole]; omega
  · simpa [limit] using gross
  · cases dir with
    | buy => simpa using (buys rfl).1
    | sell => rfl
  · cases dir with
    | buy => rfl
    | sell => simpa [limit] using sells rfl
  · cases dir with
    | buy => simpa using (buys rfl).2
    | sell => rfl

theorem quoteRequestTaken_eq {old : Option (Fin 16 × Quote)} (older : Supersedes s p old) {j : Fin 16}
    (slot : freeQuoteSlot (supersede s.exu p) = some j) :
    let q := newQuote s (quoteNumber s (supersede s.exu p)) p dir v
    quoteRequestTaken ⟨.value p.val, .value (f.val + 1), .value dir, .value amount⟩ s =
      takeMasked (report [.quoteLeft p] (withQuote p j q s)) (quoteFields q (old.map fun e => e.2.number)) := by
  simp only [quoteRequestTaken, positionOf_val, foreignOf_val, Fld.int, Fld.getD, Int.toNat_natCast, values, slot,
    toSupersede_eq older, Option.getD_some]
  rfl

end

end Sys2Proof.Machine

open Sys2Proof Sys2Proof.Machine

/-- Settles O22: the request's checks are the hypotheses; the table with the older quote superseded gives slot and number,
and what is written there is reported. -/
theorem quoteRequestMakesAHeldQuote : Obligations.QuoteRequestMakesAHeldQuote := by
  unfold Obligations.QuoteRequestMakesAHeldQuote
  intro h p f dir amount s old buy sell i e decimals unit v lowest served may opened bound unlocked defined low high whole
    rates gross buys sells older room
  let s1 : State := { s with scu := restartedScu s p }
  let request : QuoteReq := ⟨.value p.val, .value (f.val + 1), .value dir, .value amount⟩
  have values : quoteValues s1 f dir amount = v := (quoteValues_eq rates dir amount).trans (by cases dir <;> rfl)
  have older1 : Supersedes s1 p old := older
  have free := freeQuoteSlot_isSome older1 room
  obtain ⟨j, slot⟩ := Option.isSome_iff_exists.mp free
  let number := quoteNumber s1 (supersede s1.exu p)
  let q : Quote := newQuote s1 number p dir v
  let u : State := report [.quoteLeft p] (withQuote p j q s1)
  have passed : ∀ c ∈ quoteRequestChecks h request s1, c.pass = true :=
    quoteRequestChecks_pass values may opened bound (by simpa [s1] using unlocked) defined low high whole
      (by rw [show (s1.store.board.rows.get f).rates = _ from rates]; rfl) gross buys sells free
  have taken : quoteRequestTaken request s1 = takeMasked u (quoteFields q (old.map fun e => e.2.number)) :=
    quoteRequestTaken_eq values older1 slot
  have frame : UnchangedBut [.exu, .board, .buffers, .screens, .idles, .inExecution] s u := by
    have own := quoteRequest_state_frame request s1
    rw [taken] at own
    exact ((restartedScu_frame p s).mono (by decide)).trans (own.mono (by decide))
  have exu : u.exu = ⟨(supersede s1.exu p).quotes.set j (some q), s.exu.made + 1⟩ := report_exu _ _
  refine ⟨_, j, number, exec_taken served rfl (restartNamed_named i p rfl s) passed taken rfl,
    respond_unchangedBut frame h _ _ _ _ (by decide) (by decide),
    @Rendered.report s1.scu (withQuote p j q s1) (.refl _) _, freeQuoteSlot_taken older1 slot, quoteNumber_first older1,
    congrArg Store.board (report_store _ _), congrArg Exu.made exu, fun k => ?_, ?_⟩
  · refine (congrArg (fun x : Exu => x.quotes.get k) exu).trans ?_
    simp only [Table.get_set, supersede_get older1, eq_comm (a := j)]
    rfl
  · have windows : u.port.windows = notify [] s.port.windows := report_port_windows _ _
    have answered := answered_of_frame served frame (by simp [i, unitOf, requestKind]) (by decide) windows 50 .done true
      (quoteFields q (old.map fun e => e.2.number))
    have fields := quoteFields_newQuote s1 number p dir (v := v) (by cases dir <;> rfl) (by cases dir <;> rfl) old
    exact Eq.subst (motive := fun l => Answered h 50 .done true l [] s _) fields answered
end

section
/-! SUPPORT. Operations that reach the Screen Unit by source reports alone: where the unit is free live fields are
rendered, and where something stands at it the reports wait behind it and the screens stand (R144, R148). -/

namespace Sys2Proof.Machine

/-- What has been done from `s` to `t` reached the Screen Unit by source reports alone (R144). -/
structure ReportsAlone (s t : State) : Prop where
  power : t.power = s.power
  rendered : Rendered s.scu t.scu
  waits : s.power = .up → ¬NoneStandsAt s .scu → ¬NoneStandsAt t .scu ∧ t.scu = s.scu

/-! ### The calculus -/

theorem ReportsAlone.refl (s : State) : ReportsAlone s s := ⟨rfl, .refl _, fun _ h => ⟨h, rfl⟩⟩

theorem ReportsAlone.trans {s t u : State} (h : ReportsAlone s t) (k : ReportsAlone t u) : ReportsAlone s u where
  power := k.power.trans h.power
  rendered := h.rendered.trans k.rendered
  waits up busy := by
    obtain ⟨stands, screens⟩ := h.waits up busy
    obtain ⟨stands', screens'⟩ := k.waits (h.power.trans up) stands
    exact ⟨stands', screens'.trans screens⟩

/-- The same, last operation first. -/
theorem ReportsAlone.after {s t u : State} (k : ReportsAlone t u) (h : ReportsAlone s t) : ReportsAlone s u := h.trans k

/-- A change that leaves the supply, the screens and what is asked as they are. -/
theorem ReportsAlone.of_eq {s t : State} (hp : t.power = s.power) (hs : t.scu = s.scu)
    (hx : t.port.inExecution = s.port.inExecution) (ho : t.port.order = s.port.order) : ReportsAlone s t where
  power := hp
  rendered := .of_eq hs
  waits _ busy := ⟨by simpa only [NoneStandsAt, ho, standsAt_congr hx] using busy, hs⟩

theorem ReportsAlone.ite {s t u : State} (c : Prop) [Decidable c] (h : ReportsAlone s t) (k : ReportsAlone s u) :
    ReportsAlone s (if c then t else u) := by
  split <;> assumption

theorem ReportsAlone.foldl {α : Type} {f : State → α → State} (hf : ∀ s a, ReportsAlone s (f s a)) (l : List α)
    (s : State) : ReportsAlone s (l.foldl f s) := by
  induction l generalizing s with
  | nil => exact .refl s
  | cons x l ih => exact (hf s x).trans (ih _)

/-- Reports that wait stand at the Screen Unit, and what stood there before still does. -/
theorem askReports_busy {s : State} (rs : List Report) (busy : ¬NoneStandsAt s .scu) :
    ¬NoneStandsAt (askReports rs s) .scu := by
  unfold askReports
  split
  · exact busy
  · split
    · exact fun free => free _ (List.mem_append_right _ (List.mem_singleton_self _)) rfl
    · exact fun free => free (.report rs) (List.mem_append_right _ (List.mem_singleton_self _)) rfl

theorem askReports_scu (rs : List Report) (s : State) : (askReports rs s).scu = s.scu := by
  obtain ⟨l, h⟩ := askReports_eq s rs
  rw [h]; rfl

theorem report_reportsAlone (rs : List Report) (s : State) : ReportsAlone s (report rs s) where
  power := report_power s rs
  rendered := report_rendered rs s
  waits up busy := by
    have waiting : waitsAt [.scu] s.port.order s = true := by
      rw [← Bool.not_eq_false, waitsAt_one up]
      exact fun free => busy free.1
    rw [report, if_pos waiting]
    exact ⟨askReports_busy rs busy, askReports_scu rs s⟩

theorem raiseTo_reportsAlone (m : Master) (d : Detail) (s : State) : ReportsAlone s (raiseTo m d s) := by
  unfold raiseTo
  exact .ite _ (.of_eq rfl rfl rfl rfl) (.refl s)

/-! ### The drawer operations and the journal -/

theorem raiseAlert_reportsAlone (d : DrawerNo) (e : AlertEvent) (s : State) : ReportsAlone s (raiseAlert d e s) := by
  unfold raiseAlert
  split
  · exact .after (raiseTo_reportsAlone _ _ _) (raiseTo_reportsAlone _ _ s)
  · exact raiseTo_reportsAlone _ _ s

theorem evaluateExcess_reportsAlone (n : DrawerNo) (s : State) : ReportsAlone s (evaluateExcess n s) :=
  .ite _ (.refl s) (.after (report_reportsAlone _ _)
    (.after (raiseAlert_reportsAlone n _ _) (.of_eq rfl rfl rfl rfl)))

theorem evaluateLimits_reportsAlone (n : DrawerNo) (before : Nat) (s : State) :
    ReportsAlone s (evaluateLimits n before s) :=
  .after (evaluateExcess_reportsAlone n _) (.ite _ (raiseAlert_reportsAlone n _ s) (.refl s))

theorem countsChanged_reportsAlone (n : DrawerNo) (d : Drawer) (s : State) : ReportsAlone s (countsChanged n d s) :=
  .after (report_reportsAlone _ _) (.ite _ (evaluateLimits_reportsAlone n _ s) (.refl s))

theorem appendRecord_reportsAlone (r : Record) (s : State) : ReportsAlone s (appendRecord r s) :=
  .ite _ (.after (raiseTo_reportsAlone _ _ _) (.of_eq rfl rfl rfl rfl)) (.of_eq rfl rfl rfl rfl)

theorem setApplied_reportsAlone (q : Nat) (d : Disposition) (s : State) : ReportsAlone s (setApplied q d s) :=
  .of_eq rfl rfl rfl rfl

theorem dropHold_reportsAlone (s : State) : ReportsAlone s (dropHold s) := .of_eq rfl rfl rfl rfl

theorem modifyTransfer_reportsAlone (i : Fin 8) (a : Transfer) (s : State) : ReportsAlone s (modifyTransfer i a s) :=
  .of_eq rfl rfl rfl rfl

theorem returnCash_reportsAlone (n : DrawerNo) (k : Counts) (q : Nat) (s : State) :
    ReportsAlone s (returnCash n k q s) :=
  .after (countsChanged_reportsAlone n _ _) (.of_eq rfl rfl rfl rfl)

/-! ### The sender stopped (R175) -/

/-- The sender stopped, once the fault has been captured. -/
def stopSender (reason : SendFailure) (s : State) : State :=
  raiseOfficer (.sendFailed reason (ackThrough s)) (dayChanged .sealed (setDayState .sealed
    (setLineReady false (modifySender (fun x => { x with
      state := .failed, outstanding := [], wait := none, timer := none, failure := some reason }) s))))

theorem failSender_eq (reason : SendFailure) (s : State) :
    failSender reason s = stopSender reason (failureFault reason s) := rfl

/-! ### The units at a second tick -/

theorem tickExu_reportsAlone (s : State) : ReportsAlone s (tickExu s) :=
  .after (report_reportsAlone _ _)
    (.after (.foldl (fun _ _ => raiseTo_reportsAlone _ _ _) _ _) (.of_eq rfl rfl rfl rfl))

theorem commitReturn_reportsAlone (i : Fin 8) (a : Transfer) (x : TransferState) (p : Option Position) (n : Nat)
    (s : State) : ReportsAlone s (commitReturn i a x p n s) :=
  .after (setApplied_reportsAlone _ _ _) (.after (returnCash_reportsAlone _ _ _ _) (.after (dropHold_reportsAlone _)
    (.after (modifyTransfer_reportsAlone _ _ _) (appendRecord_reportsAlone _ s))))

theorem returnTimedOut_reportsAlone (s : State) (e : Fin 8 × Transfer) : ReportsAlone s (returnTimedOut s e) :=
  .after (raiseTo_reportsAlone _ _ _) (commitReturn_reportsAlone _ _ _ _ _ s)

theorem countTransfers_reportsAlone (s : State) : ReportsAlone s (countTransfers s) :=
  .after (.foldl returnTimedOut_reportsAlone _ _) (.of_eq rfl rfl rfl rfl)

theorem captureFault_reportsAlone (k : FaultKind) (u : UnitName) (l : List Item) (s : State) :
    ReportsAlone s (captureFault k u l s) :=
  .after (raiseTo_reportsAlone _ _ _) (.of_eq rfl rfl rfl rfl)

theorem dayChanged_reportsAlone (x : DayState) (s : State) : ReportsAlone s (dayChanged x s) :=
  .after (report_reportsAlone _ _) (raiseTo_reportsAlone _ _ _)

theorem stopSender_reportsAlone (reason : SendFailure) (s : State) : ReportsAlone s (stopSender reason s) :=
  .after (raiseTo_reportsAlone _ _ _) (.after (dayChanged_reportsAlone _ _) (.of_eq rfl rfl rfl rfl))

theorem failSender_reportsAlone (reason : SendFailure) (s : State) : ReportsAlone s (failSender reason s) :=
  failSender_eq reason s ▸
    .after (stopSender_reportsAlone reason _) (.ite _ (.refl s) (captureFault_reportsAlone _ _ _ s))

theorem sendBlock_reportsAlone (b : Nat) (s : State) : ReportsAlone s (sendBlock b s) := by
  unfold sendBlock
  split
  · exact .after (failSender_reportsAlone _ _) (captureFault_reportsAlone _ _ _ s)
  · exact .of_eq rfl rfl rfl rfl

theorem resendBlock_reportsAlone (b : Nat) (s : State) : ReportsAlone s (resendBlock s b) :=
  .ite _ (.after (sendBlock_reportsAlone b _) (.of_eq rfl rfl rfl rfl)) (.refl s)

theorem retryBlock_reportsAlone (b : Nat) (s : State) : ReportsAlone s (retryBlock b s) :=
  .ite _ (failSender_reportsAlone _ s) (.after (resendBlock_reportsAlone (b + 1) _)
    (.after (resendBlock_reportsAlone b _) (.of_eq rfl rfl rfl rfl)))

theorem sendCall_reportsAlone (s : State) : ReportsAlone s (sendCall s) := .of_eq rfl rfl rfl rfl

theorem sendEnd_reportsAlone (n : Nat) (s : State) : ReportsAlone s (sendEnd n s) := .of_eq rfl rfl rfl rfl

theorem callTimesOut_reportsAlone (s : State) : ReportsAlone s (callTimesOut s) :=
  .ite _ (sendCall_reportsAlone s) (failSender_reportsAlone _ s)

theorem endTimesOut_reportsAlone (s : State) : ReportsAlone s (endTimesOut s) :=
  .ite _ (sendEnd_reportsAlone _ s) (failSender_reportsAlone _ s)

theorem waitEnds_reportsAlone (s : State) : ReportsAlone s (waitEnds s) := .ite _ (.of_eq rfl rfl rfl rfl) (.refl s)

theorem tickTimer_reportsAlone {expire : State → State} (h : ∀ s, ReportsAlone s (expire s)) (s : State) :
    ReportsAlone s (tickTimer expire s) := by
  unfold tickTimer
  split
  · exact .ite _ (h s) (.of_eq rfl rfl rfl rfl)
  · exact .refl s

theorem tickDlu_reportsAlone (s : State) : ReportsAlone s (tickDlu s) := by
  unfold tickDlu
  split
  case h_1 =>
    unfold tickCalling
    split
    · exact .ite _ (waitEnds_reportsAlone s) (.of_eq rfl rfl rfl rfl)
    · exact waitEnds_reportsAlone s
  case h_2 =>
    exact tickTimer_reportsAlone callTimesOut_reportsAlone s
  case h_3 =>
    unfold tickSending
    have aged := ReportsAlone.of_eq (s := s) (t := modifySender (fun x => { x with
      outstanding := x.outstanding.map fun b => { b with age := b.age + 1 } }) s) rfl rfl rfl rfl
    split
    · exact .ite _ (.after (retryBlock_reportsAlone _ _) aged) aged
    · exact aged
  case h_4 =>
    exact tickTimer_reportsAlone endTimesOut_reportsAlone s
  case h_5 => exact .refl s

end Sys2Proof.Machine

end

section
/-! SUPPORT. A second tick at one unit: taken there, or waiting at the end of what is asked; what it leaves the other
units (R29, R48, R67, R144, R159). -/

namespace Sys2Proof.Machine

/-! ### What is asked, where requests stand as they stood -/

/-- Whether anything stands at a unit other than the Screen Unit is a matter of what is asked beside reports. -/
theorem noneStandsAt_iff_beside {u : UnitName} (hu : u ≠ .scu) (s : State) :
    NoneStandsAt s u ↔ ∀ x ∈ askedBesideReports s, standsAt s x ≠ some u := by
  simp only [askedBesideReports, List.mem_filter, NoneStandsAt]
  refine ⟨fun h x hx => h x hx.1, fun h x hx => ?_⟩
  cases x
  case report l => exact fun e => hu (Option.some.inj e).symm
  all_goals exact h _ ⟨hx, rfl⟩

theorem TurnsStand.noneStandsAt {s t : State} (h : TurnsStand s t) {u : UnitName} (hu : u ≠ .scu) :
    NoneStandsAt t u ↔ NoneStandsAt s u := by
  simp only [noneStandsAt_iff_beside hu, h.2.1, standsAt_congr h.1]

theorem TurnsStand.count_tick {s t : State} (h : TurnsStand s t) (u : UnitName) :
    t.port.order.count (.tick u) = s.port.order.count (.tick u) := by
  have beside (s : State) : (askedBesideReports s).count (.tick u) = s.port.order.count (.tick u) :=
    List.count_filter rfl
  rw [← beside t, h.2.1, beside s]

/-- Reports alone: every unit is as free as it was. -/
theorem ReportsAlone.unitFree {s t : State} (h : ReportsAlone s t) (turns : TurnsStand s t)
    (delivery : t.delivery = s.delivery) (up : s.power = .up) (u : UnitName) : UnitFree t u ↔ UnitFree s u := by
  have none : NoneStandsAt t u ↔ NoneStandsAt s u := by
    by_cases hu : u = .scu
    · subst hu
      exact ⟨fun free => by_contra fun busy => (h.waits up busy).1 free, turns.screenFree⟩
    · exact turns.noneStandsAt hu
  rw [UnitFree, none, delivery]

/-! ### The effect of a second tick at a unit -/

theorem tickEffect_scu (s : State) : tickEffect .scu s = tickScu s := rfl

theorem tickScu_unitFree (s : State) (u : UnitName) : UnitFree (tickScu s) u ↔ UnitFree s u := by
  obtain ⟨inExecution, order⟩ := (tickScu_frame s).get .inExecution (by decide)
  exact unitFree_congr inExecution order ((tickScu_frame s).get .delivery (by decide)) u

theorem tickEffect_turns (u : UnitName) (s : State) : TurnsStand s (tickEffect u s) := by
  cases u
  case exu => exact (tickExu_frame s).get .turns (by decide)
  case tru => exact (UnchangedBut.ite _ (countTransfers_frame s) (.refl _ s)).get .turns (by decide)
  case scu => exact (tickScu_frame s).get .turns (by decide)
  case dlu => exact (UnchangedBut.ite _ (tickDlu_frame s) (.refl _ s)).get .turns (by decide)
  all_goals exact .refl s

theorem tickEffect_reportsAlone {u : UnitName} (hu : u ≠ .scu) (s : State) : ReportsAlone s (tickEffect u s) := by
  cases u
  case exu => exact tickExu_reportsAlone s
  case tru => exact .ite _ (countTransfers_reportsAlone s) (.refl s)
  case scu => exact absurd rfl hu
  case dlu => exact .ite _ (tickDlu_reportsAlone s) (.refl s)
  all_goals exact .refl s

theorem tickEffect_unitFree (v : UnitName) {s : State} (up : s.power = .up) (u : UnitName) :
    UnitFree (tickEffect v s) u ↔ UnitFree s u := by
  by_cases hv : v = .scu
  · rw [hv, tickEffect_scu]
    exact tickScu_unitFree s u
  · exact (tickEffect_reportsAlone hv s).unitFree (tickEffect_turns v s)
      ((tickEffect_parts v s).get .delivery (by decide)) up u

/-! ### The tick as it is asked of a unit -/

/-- The unit takes a second tick at once; a part that is not up keeps no order of operations. -/
abbrev TakesTick (s : State) (u : UnitName) : Prop := s.power = .up → TickTaken s u

theorem serveTick_taken {u : UnitName} {s : State} (h : TakesTick s u) : serve (.tick u) s = tickEffect u s :=
  serve_taken fun up => (takenAt_tick up).mpr (h up) up

theorem serveTick_waits {u : UnitName} {s : State} (h : ¬TakesTick s u) : serve (.tick u) s = ask (.tick u) s := by
  obtain ⟨up, waits⟩ := Classical.not_imp.mp h
  exact tick_waits up waits

theorem serveTick_unitFree {u v : UnitName} (other : u ≠ v) {s : State} (up : s.power = .up) :
    UnitFree (serve (.tick v) s) u ↔ UnitFree s u := by
  rcases serve_cases (.tick v) s with h | h <;> rw [h]
  · exact tickEffect_unitFree v up u
  · simp [UnitFree, NoneStandsAt, standsAt, or_imp, forall_and, other.symm]

theorem serveTick_count_other {u v : UnitName} (other : u ≠ v) (s : State) :
    (serve (.tick v) s).port.order.count (.tick u) = s.port.order.count (.tick u) := by
  rcases serve_cases (.tick v) s with h | h <;> rw [h]
  · exact (tickEffect_turns v s).count_tick u
  · simp [other.symm]

theorem serveTick_count {u : UnitName} {s : State} :
    (TakesTick s u → (serve (.tick u) s).port.order.count (.tick u) = s.port.order.count (.tick u)) ∧
    (¬TakesTick s u → (serve (.tick u) s).port.order.count (.tick u) = s.port.order.count (.tick u) + 1) := by
  refine ⟨fun h => ?_, fun h => ?_⟩
  · rw [serveTick_taken h]
    exact (tickEffect_turns u s).count_tick u
  · rw [serveTick_waits h]
    simp

/-- A tick taken with nothing standing at the Screen Unit leaves what is asked as it is. -/
theorem serveTick_order {u : UnitName} {s : State} (h : TakesTick s u) (free : NoneStandsAt s .scu) :
    (serve (.tick u) s).port.order = s.port.order ∧ NoneStandsAt (serve (.tick u) s) .scu := by
  rw [serveTick_taken h]
  exact ⟨(tickEffect_turns u s).2.2 free, (tickEffect_turns u s).screenFree free⟩

end Sys2Proof.Machine

end

section
/-! SUPPORT. The second tick in its stages: the clock, then the units in turn (R188; log entry 12). -/

namespace Sys2Proof.Machine

/-! ### The stages -/

def clockTicked (s : State) : State := { s with clock := advanceClock s.clock }

def exuTicked (s : State) : State := serve (.tick .exu) (clockTicked s)

def truTicked (s : State) : State := serve (.tick .tru) (exuTicked s)

def scuTicked (s : State) : State := serve (.tick .scu) (truTicked s)

def allTicked (s : State) : State := serve (.tick .dlu) (scuTicked s)

/-- What a tick served at a unit can touch is what its effect there can, and the order of what is asked. -/
theorem serveTick_frame {v : UnitName} {l : List Part} {s : State} (h : UnchangedBut l s (tickEffect v s)) :
    UnchangedBut (.inExecution :: .turns :: l) s (serve (.tick v) s) := by
  rcases serve_cases (.tick v) s with e | e <;> rw [e]
  · exact h.mono fun p hp => List.mem_cons_of_mem _ (List.mem_cons_of_mem _ hp)
  · exact ask_unchanged _ (by simp) (.refl _ s)

theorem clockTicked_frame (s : State) : UnchangedBut [.clock] s (clockTicked s) := clock_frame _ s

theorem exuTicked_frame (s : State) :
    UnchangedBut [.inExecution, .turns, .exu, .windows, .buffers, .screens] (clockTicked s) (exuTicked s) :=
  (serveTick_frame (tickExu_frame _)).mono (by decide)

theorem truTicked_frame (s : State) :
    UnchangedBut [.inExecution, .turns, .journal, .day, .windows, .transfers, .drawers, .jsu, .buffers, .screens]
      (exuTicked s) (truTicked s) :=
  (serveTick_frame (UnchangedBut.ite _ (countTransfers_frame _) (.refl _ _))).mono (by decide)

theorem scuTicked_frame (s : State) :
    UnchangedBut [.inExecution, .turns, .windows, .buffers, .screens, .locks, .idles] (truTicked s) (scuTicked s) :=
  serveTick_frame (tickScu_frame _)

theorem allTicked_frame (s : State) :
    UnchangedBut [.inExecution, .turns, .sender, .out, .day, .fault, .buffers, .screens, .windows]
      (scuTicked s) (allTicked s) :=
  (serveTick_frame (UnchangedBut.ite _ (tickDlu_frame _) (.refl _ _))).mono (by decide)

theorem exuTicked_power (s : State) : (exuTicked s).power = s.power := (exuTicked_frame s).get .power (by decide)

theorem truTicked_power (s : State) : (truTicked s).power = s.power :=
  ((truTicked_frame s).get .power (by decide)).trans (exuTicked_power s)

theorem scuTicked_power (s : State) : (scuTicked s).power = s.power :=
  ((scuTicked_frame s).get .power (by decide)).trans (truTicked_power s)

/-- A part that is not up takes the tick at once; the Transfer Unit and the line then do no more (R88). -/
theorem serveTick_shut {s : State} (h : s.power ≠ .up) (v : UnitName) : serve (.tick v) s = tickEffect v s :=
  serveTick_taken fun up => absurd up h

theorem exuTicked_shut {s : State} (h : s.power ≠ .up) : exuTicked s = tickExu (clockTicked s) :=
  serveTick_shut (s := clockTicked s) h .exu

theorem truTicked_shut {s : State} (h : s.power ≠ .up) : truTicked s = exuTicked s := by
  rw [← exuTicked_power s] at h
  exact (serveTick_shut h .tru).trans (if_neg h)

theorem scuTicked_shut {s : State} (h : s.power ≠ .up) : scuTicked s = tickScu (truTicked s) := by
  rw [← truTicked_power s] at h
  exact serveTick_shut h .scu

theorem allTicked_shut {s : State} (h : s.power ≠ .up) : allTicked s = scuTicked s := by
  rw [← scuTicked_power s] at h
  exact (serveTick_shut h .dlu).trans (if_neg h)

theorem exec_secondTick {s : State} (on : s.power ≠ .off) : exec .secondTick s = .next (allTicked s) := by
  change Host.Outcome.next (tickUnits (clockTicked s)) = _
  unfold tickUnits
  split
  case h_1 => rfl
  case h_2 shut =>
    have notUp : s.power ≠ .up := fun up => absurd (up.symm.trans shut) (by decide)
    rw [allTicked_shut notUp, scuTicked_shut notUp, truTicked_shut notUp, exuTicked_shut notUp]
  case h_3 off => exact absurd off on

/-! ### Whether a unit takes its part at once is settled by the state before the tick -/

theorem tickTaken_iff {u : UnitName} (tru : u ≠ .tru) (dlu : u ≠ .dlu) (s : State) : TickTaken s u ↔ UnitFree s u :=
  ⟨fun h => h.1, fun h => ⟨h, fun e => absurd e tru, fun e => absurd e dlu⟩⟩

theorem clockTicked_unitFree (s : State) (u : UnitName) : UnitFree (clockTicked s) u ↔ UnitFree s u :=
  unitFree_congr rfl rfl rfl u

theorem exuTicked_unitFree {s : State} (up : s.power = .up) {u : UnitName} (hu : u ≠ .exu) :
    UnitFree (exuTicked s) u ↔ UnitFree s u :=
  (serveTick_unitFree (s := clockTicked s) hu up).trans (clockTicked_unitFree s u)

theorem truTicked_unitFree {s : State} (up : s.power = .up) {u : UnitName} (hu : u ≠ .exu ∧ u ≠ .tru) :
    UnitFree (truTicked s) u ↔ UnitFree s u :=
  (serveTick_unitFree hu.2 ((exuTicked_power s).trans up)).trans (exuTicked_unitFree up hu.1)

theorem scuTicked_unitFree {s : State} (up : s.power = .up) {u : UnitName} (hu : u ≠ .exu ∧ u ≠ .tru ∧ u ≠ .scu) :
    UnitFree (scuTicked s) u ↔ UnitFree s u :=
  (serveTick_unitFree hu.2.2 ((truTicked_power s).trans up)).trans (truTicked_unitFree up ⟨hu.1, hu.2.1⟩)

theorem takesTick_exu (s : State) : TakesTick (clockTicked s) .exu ↔ TakesTick s .exu := by
  simp only [TakesTick, tickTaken_iff (show UnitName.exu ≠ .tru by decide) (by decide), clockTicked_unitFree]
  rfl

theorem takesTick_tru (s : State) : TakesTick (exuTicked s) .tru ↔ TakesTick s .tru := by
  have transfers : (exuTicked s).store.transfers = s.store.transfers := (exuTicked_frame s).get .transfers (by decide)
  simp only [TakesTick, exuTicked_power]
  refine forall_congr' fun up => ?_
  simp [TickTaken, transfers, exuTicked_unitFree up]

theorem takesTick_scu (s : State) : TakesTick (truTicked s) .scu ↔ TakesTick s .scu := by
  simp only [TakesTick, truTicked_power, tickTaken_iff (show UnitName.scu ≠ .tru by decide) (by decide)]
  exact forall_congr' fun up => truTicked_unitFree up (by decide)

/-! ### What waits after the tick -/

/-- A tick served at other units first leaves the operations asked at this one as they were. -/
theorem allTicked_count (s : State) {u : UnitName} (hu : u ∈ [UnitName.exu, .tru, .scu]) :
    (TakesTick s u → (allTicked s).port.order.count (.tick u) = s.port.order.count (.tick u)) ∧
    (¬TakesTick s u → (allTicked s).port.order.count (.tick u) = s.port.order.count (.tick u) + 1) := by
  have exu (h : u ≠ .exu) : (exuTicked s).port.order.count (.tick u) = s.port.order.count (.tick u) :=
    serveTick_count_other h _
  have tru (h : u ≠ .tru) : (truTicked s).port.order.count (.tick u) = (exuTicked s).port.order.count (.tick u) :=
    serveTick_count_other h _
  have scu (h : u ≠ .scu) : (scuTicked s).port.order.count (.tick u) = (truTicked s).port.order.count (.tick u) :=
    serveTick_count_other h _
  have dlu (h : u ≠ .dlu) : (allTicked s).port.order.count (.tick u) = (scuTicked s).port.order.count (.tick u) :=
    serveTick_count_other h _
  fin_cases hu
  · rw [dlu (by decide), scu (by decide), tru (by decide), ← takesTick_exu]
    exact serveTick_count
  · rw [dlu (by decide), scu (by decide), ← takesTick_tru, ← exu (by decide)]
    exact serveTick_count
  · rw [dlu (by decide), ← takesTick_scu, ← exu (by decide), ← tru (by decide)]
    exact serveTick_count

/-- In a part where every unit concerned is free, nothing waits after the tick that did not before. -/
theorem allTicked_order {s : State} (exu : UnitFree s .exu) (tru : UnitFree s .tru) (dru : UnitFree s .dru)
    (scu : UnitFree s .scu) (dlu : UnitFree s .dlu) (plu : UnitFree s .plu) :
    (allTicked s).port.order = s.port.order := by
  have takesExu : TakesTick (clockTicked s) .exu :=
    (takesTick_exu s).mpr fun _ => (tickTaken_iff (by decide) (by decide) s).mpr exu
  have takesTru : TakesTick (exuTicked s) .tru :=
    (takesTick_tru s).mpr fun _ => ⟨tru, fun _ _ => dru, fun e => nomatch e⟩
  have takesScu : TakesTick (truTicked s) .scu :=
    (takesTick_scu s).mpr fun _ => (tickTaken_iff (by decide) (by decide) s).mpr scu
  have takesDlu : TakesTick (scuTicked s) .dlu := fun up => by
    rw [scuTicked_power] at up
    exact ⟨(scuTicked_unitFree up (by decide)).mpr dlu, fun e => absurd e (by decide),
      fun _ _ => (scuTicked_unitFree up (by decide)).mpr plu⟩
  obtain ⟨exuOrder, free⟩ := serveTick_order takesExu ((clockTicked_unitFree s .scu).mpr scu).1
  obtain ⟨truOrder, free⟩ := serveTick_order takesTru free
  obtain ⟨scuOrder, free⟩ := serveTick_order takesScu free
  obtain ⟨dluOrder, -⟩ := serveTick_order takesDlu free
  exact dluOrder.trans (scuOrder.trans (truOrder.trans exuOrder))

end Sys2Proof.Machine

end

section
/-! SUPPORT. What a second tick does to the quotes and to the transfer table (R57, R71). -/

namespace Sys2Proof.Machine

/-! ### Quotes (R57) -/

theorem tickQuote_eq : tickQuote = quoteSecond := by
  funext q
  simp [tickQuote, quoteSecond, isHeld]

theorem tickExu_exu (s : State) :
    (tickExu s).exu = { s.exu with quotes := s.exu.quotes.map (Option.map quoteSecond) } := by
  have told (l : List Quote) (t : State) : (l.foldl raiseExpired t).exu = t.exu :=
    (UnchangedBut.foldl (l := [.windows]) (fun t q => by simp (maxDischargeDepth := 30) [raiseExpired]) l t).get .exu
      (by decide)
  rw [tickExu, report_exu, told, tickQuote_eq]

theorem exuTicked_exu (s : State) :
    (TakesTick s .exu → ∀ i, (exuTicked s).exu.quotes.get i = (s.exu.quotes.get i).map quoteSecond) ∧
    (¬TakesTick s .exu → (exuTicked s).exu = s.exu) ∧ (exuTicked s).exu.made = s.exu.made := by
  by_cases h : TakesTick s .exu
  · have e : exuTicked s = tickExu (clockTicked s) := serveTick_taken ((takesTick_exu s).mpr h)
    rw [e, tickExu_exu]
    exact ⟨fun _ i => Table.get_map _ _ i, fun k => absurd h k, rfl⟩
  · have e : exuTicked s = ask (.tick .exu) (clockTicked s) := serveTick_waits ((takesTick_exu s).not.mpr h)
    rw [e]
    exact ⟨fun k => absurd k h, fun _ => rfl, rfl⟩

/-! ### The transfer table (R71) -/

theorem offeredSlot_eq_some {e : Fin 8 × Option Transfer} {i : Fin 8} {a : Transfer} :
    (e.2.bind fun t => if isOffered t then some (e.1, t) else none) = some (i, a) ↔
      e.1 = i ∧ e.2 = some a ∧ a.state = .offered := by
  simp only [isOffered, Option.bind_eq_some_iff, Option.ite_none_right_eq_some, Option.some.injEq, Prod.mk.injEq,
    beq_iff_eq]
  constructor
  · rintro ⟨t, slot, offered, rfl, rfl⟩
    exact ⟨rfl, slot, offered⟩
  · rintro ⟨rfl, slot, offered⟩
    exact ⟨a, slot, offered, rfl, rfl⟩

theorem mem_offeredSlots {s : State} {i : Fin 8} {a : Transfer} :
    (i, a) ∈ offeredSlots s ↔ s.store.transfers.get i = some a ∧ a.state = .offered := by
  simp only [offeredSlots, Table.entries, List.mem_filterMap, List.mem_map, offeredSlot_eq_some]
  constructor
  · rintro ⟨_, ⟨k, -, rfl⟩, rfl, slot⟩
    exact slot
  · exact fun slot => ⟨(i, s.store.transfers.get i), ⟨i, by simp, rfl⟩, rfl, slot⟩

theorem offeredSlots_pairwise (s : State) : (offeredSlots s).Pairwise fun a b => a.1 ≠ b.1 := by
  have entries : s.store.transfers.entries.Pairwise fun a b => a.1 ≠ b.1 := by
    rw [Table.entries, List.pairwise_map]
    exact List.nodup_finRange 8
  refine List.Pairwise.filterMap _ (fun a b differ x hx y hy => ?_) entries
  rwa [← (offeredSlot_eq_some.mp hx).1, ← (offeredSlot_eq_some.mp hy).1]

/-- A transfer at the end of its seconds, as its slot holds it once it is returned under a sequence number. -/
def timedOut (a : Transfer) (q : Nat) : Transfer := { a with remaining := 0, state := .returned, endSeq := some q }

/-- A journal append puts one record behind those of the day. -/
theorem appendRecord_store (r : Record) (s : State) : (appendRecord r s).store = (writeAppend r s).store := by
  unfold appendRecord
  dsimp only
  split
  · exact raiseTo_store _ _ _
  · rfl

theorem commitReturn_day (i : Fin 8) (a : Transfer) (x : TransferState) (p : Option Position) (n : Nat) (s : State) :
    (commitReturn i a x p n s).store.day.used = s.store.day.used + 1 ∧
    (commitReturn i a x p n s).store.day = { s.store.day with
      used := (commitReturn i a x p n s).store.day.used
      openCommits := (commitReturn i a x p n s).store.day.openCommits } := by
  have cash (n : DrawerNo) (k : Counts) (q : Nat) (s : State) : (returnCash n k q s).store.day = s.store.day :=
    (returnCash_frame n k q s).get .day (by decide)
  simp [commitReturn, cash, dropHold, appendRecord_store]

theorem commitReturn_transfers (i : Fin 8) (a : Transfer) (x : TransferState) (p : Option Position) (n : Nat)
    (s : State) : (commitReturn i a x p n s).store.transfers =
      s.store.transfers.set i (some { a with state := x, endSeq := some (s.store.day.used + 1) }) := by
  have cash (n : DrawerNo) (k : Counts) (q : Nat) (s : State) :
      (returnCash n k q s).store.transfers = s.store.transfers := (returnCash_frame n k q s).get .transfers (by decide)
  simp [commitReturn, cash, dropHold, appendRecord_store, nextSequence]

theorem returnTimedOut_store (s : State) (e : Fin 8 × Transfer) : (returnTimedOut s e).store =
    (commitReturn e.1 { e.2 with remaining := 0 } .returned none 2 s).store := by
  rw [returnTimedOut, raiseTransfer, raiseTo_store]

theorem returnTimedOut_transfers (s : State) (e : Fin 8 × Transfer) : (returnTimedOut s e).store.transfers =
    s.store.transfers.set e.1 (some (timedOut e.2 (s.store.day.used + 1))) := by
  rw [returnTimedOut_store, commitReturn_transfers]; rfl

theorem returnTimedOut_used (s : State) (e : Fin 8 × Transfer) :
    (returnTimedOut s e).store.day.used = s.store.day.used + 1 := by
  rw [returnTimedOut_store, (commitReturn_day _ _ _ _ _ s).1]

/-- Returns in a row leave every other slot as it is. -/
theorem returnsTimedOut_others {l : List (Fin 8 × Transfer)} {i : Fin 8} (other : ∀ e ∈ l, e.1 ≠ i) (s : State) :
    (l.foldl returnTimedOut s).store.transfers.get i = s.store.transfers.get i := by
  induction l generalizing s with
  | nil => rfl
  | cons e l ih =>
    obtain ⟨here, rest⟩ := List.forall_mem_cons.mp other
    rw [List.foldl_cons, ih rest, returnTimedOut_transfers, Table.get_set_ne _ _ here]

/-- Returns in a row end each transfer once, under a sequence number of its own. -/
theorem returnsTimedOut_ends {l : List (Fin 8 × Transfer)} (distinct : l.Pairwise fun a b => a.1 ≠ b.1) (s : State)
    {e : Fin 8 × Transfer} (he : e ∈ l) : ∃ q, s.store.day.used < q ∧
      (l.foldl returnTimedOut s).store.transfers.get e.1 = some (timedOut e.2 q) := by
  induction l generalizing s with
  | nil => cases he
  | cons x l ih =>
    obtain ⟨first, distinct⟩ := List.pairwise_cons.mp distinct
    rw [List.foldl_cons]
    rcases List.mem_cons.mp he with rfl | he
    · refine ⟨_, Nat.lt_succ_self _, ?_⟩
      rw [returnsTimedOut_others (fun y hy => (first y hy).symm), returnTimedOut_transfers, Table.get_set_self]
    · obtain ⟨q, later, ended⟩ := ih distinct (returnTimedOut s x) he
      rw [returnTimedOut_used] at later
      exact ⟨q, by omega, ended⟩

theorem returnsTimedOut_day (l : List (Fin 8 × Transfer)) (s : State) :
    (l.foldl returnTimedOut s).store.day = { s.store.day with
      used := (l.foldl returnTimedOut s).store.day.used
      openCommits := (l.foldl returnTimedOut s).store.day.openCommits } := by
  induction l generalizing s with
  | nil => rfl
  | cons e l ih =>
    have once := (commitReturn_day e.1 { e.2 with remaining := 0 } .returned none 2 s).2
    rw [← returnTimedOut_store] at once
    rw [List.foldl_cons]
    refine (ih _).trans ?_
    rw [once]

/-- The transfers that the tick ends, with their slots. -/
def endedSlots (s : State) : List (Fin 8 × Transfer) := (offeredSlots s).filter fun e => e.2.remaining ≤ 1

/-- The table once each OFFERED transfer has lost its second, before any is returned. -/
def secondsCounted (s : State) : State :=
  { s with store := { s.store with transfers := s.store.transfers.map (Option.map tickTransfer) } }

theorem countTransfers_eq (s : State) :
    countTransfers s = (endedSlots s).foldl returnTimedOut (secondsCounted s) := rfl

theorem mem_endedSlots {s : State} {i : Fin 8} {a : Transfer} :
    (i, a) ∈ endedSlots s ↔ s.store.transfers.get i = some a ∧ a.state = .offered ∧ a.remaining ≤ 1 := by
  simp [endedSlots, mem_offeredSlots, and_assoc]

theorem countTransfers_slot (s : State) (i : Fin 8) :
    SlotTicked s (s.store.transfers.get i) ((countTransfers s).store.transfers.get i) := by
  rw [countTransfers_eq]
  have stays (h : ∀ a, s.store.transfers.get i = some a → a.state = .offered → 1 < a.remaining) :
      ((endedSlots s).foldl returnTimedOut (secondsCounted s)).store.transfers.get i =
        (s.store.transfers.get i).map tickTransfer := by
    refine (returnsTimedOut_others (fun e he same => ?_) _).trans (Table.get_map _ _ i)
    obtain ⟨slot, offered, ends⟩ := mem_endedSlots.mp he
    exact absurd (h e.2 (same ▸ slot) offered) (by omega)
  unfold SlotTicked
  cases slot : s.store.transfers.get i with
  | none =>
    rw [slot] at stays
    exact stays (fun a h => nomatch h)
  | some a =>
    rw [slot] at stays
    dsimp only
    split
    case isTrue h =>
      rw [stays fun b hb offered => absurd (Option.some.inj hb ▸ offered) h]
      simp [tickTransfer, isOffered, h]
    case isFalse h =>
      have offered : a.state = .offered := by simpa using h
      split
      case isTrue ends =>
        exact returnsTimedOut_ends ((offeredSlots_pairwise s).filter _) (secondsCounted s)
          (mem_endedSlots.mpr ⟨slot, offered, ends⟩)
      case isFalse more =>
        rw [stays fun b hb _ => by obtain rfl := Option.some.inj hb; omega]
        simp [tickTransfer, isOffered, offered]

theorem countTransfers_day (s : State) : (countTransfers s).store.day = { s.store.day with
    used := (countTransfers s).store.day.used, openCommits := (countTransfers s).store.day.openCommits } :=
  returnsTimedOut_day (endedSlots s) (secondsCounted s)

/-- With no transfer at its end the tick appends nothing. -/
theorem countTransfers_none {s : State}
    (h : ∀ i a, s.store.transfers.get i = some a → a.state = .offered → 1 < a.remaining) :
    countTransfers s = secondsCounted s := by
  have none : endedSlots s = [] := by
    refine List.eq_nil_iff_forall_not_mem.mpr fun e he => ?_
    obtain ⟨slot, offered, ends⟩ := mem_endedSlots.mp he
    exact absurd (h e.1 e.2 slot offered) (by omega)
  rw [countTransfers_eq, none]
  rfl

/-! ### The Transfer Unit's part of the tick -/

theorem truTicked_eq {s : State} (up : s.power = .up) (h : TakesTick s .tru) :
    truTicked s = countTransfers (exuTicked s) :=
  (serveTick_taken ((takesTick_tru s).mpr h)).trans (if_pos ((exuTicked_power s).trans up))

theorem truTicked_waits {s : State} (h : ¬TakesTick s .tru) : truTicked s = ask (.tick .tru) (exuTicked s) :=
  serveTick_waits ((takesTick_tru s).not.mpr h)

theorem exuTicked_store (s : State) : (exuTicked s).store = s.store := by
  rcases serve_cases (.tick .exu) (clockTicked s) with h | h
  · have told (l : List Quote) (t : State) : (l.foldl raiseExpired t).store = t.store := by
      induction l generalizing t with
      | nil => rfl
      | cons q l ih =>
        rw [List.foldl_cons, ih]
        exact raiseTo_store _ _ t
    rw [exuTicked, h]
    exact (report_store _ _).trans (told _ _)
  · rw [exuTicked, h]; rfl

theorem truTicked_slot {s : State} (up : s.power = .up) (h : TakesTick s .tru) (i : Fin 8) :
    SlotTicked s (s.store.transfers.get i) ((truTicked s).store.transfers.get i) := by
  have ticked := countTransfers_slot (exuTicked s) i
  rw [truTicked_eq up h]
  unfold SlotTicked at ticked ⊢
  rwa [exuTicked_store] at ticked

end Sys2Proof.Machine

end

section
/-! SUPPORT. What a second tick does to the screens: live fields rendered, idle counts falling, positions locked (R144,
R148, R152). -/

namespace Sys2Proof.Machine

/-! ### One screen's second (R152) -/

/-- A screen after one second of its idle count. -/
def tickedScreen (x : Screen) : Screen :=
  match x.idle with
  | some n => if n ≤ 1 then lockScreen x else { x with idle := some (n - 1) }
  | none => x

theorem tickedScreen_cases (x : Screen) : (x.idle = none ∧ tickedScreen x = x) ∨
    (∃ n, x.idle = some n ∧ n ≤ 1 ∧ tickedScreen x = lockScreen x) ∨
    ∃ n, x.idle = some n ∧ ¬n ≤ 1 ∧ tickedScreen x = { x with idle := some (n - 1) } := by
  cases idle : x.idle with
  | none => exact .inl ⟨rfl, by simp [tickedScreen, idle]⟩
  | some n =>
    by_cases last : n ≤ 1
    · exact .inr (.inl ⟨n, rfl, last, by simp [tickedScreen, idle, last]⟩)
    · exact .inr (.inr ⟨n, rfl, last, by simp [tickedScreen, idle, last]⟩)

theorem tickedScreen_idle (x : Screen) :
    match x.idle with
    | none => (tickedScreen x).idle = none ∧ (tickedScreen x).lockHeld = x.lockHeld
    | some n => if n ≤ 1 then (tickedScreen x).idle = none ∧ (tickedScreen x).lockHeld = true
        else (tickedScreen x).idle = some (n - 1) ∧ (tickedScreen x).lockHeld = x.lockHeld := by
  obtain ⟨d, locked⟩ := lockScreen_eq x
  rcases tickedScreen_cases x with ⟨idle, e⟩ | ⟨n, idle, last, e⟩ | ⟨n, idle, last, e⟩
  · simp [idle, e]
  · simp [idle, e, last, locked]
  · simp [idle, e, last]

theorem tickedScreen_kept (x : Screen) : (tickedScreen x).silent = x.silent ∧ (tickedScreen x).map = x.map := by
  obtain ⟨d, locked⟩ := lockScreen_eq x
  rcases tickedScreen_cases x with ⟨-, e⟩ | ⟨n, -, -, e⟩ | ⟨n, -, -, e⟩
  · simp [e]
  · simp [e, locked]
  · simp [e]

/-- Every row is dirty once a LIVE or DARK screen has locked. -/
theorem lockScreen_dirty {x : Screen} (silent : x.silent = false) (lock : x.lockHeld = false) (n : Row) :
    (lockScreen x).dirty.get n = true := by
  rw [lockScreen, if_pos ((liveOrDark_iff x).mpr ⟨silent, lock⟩)]
  simp [allDirty]

/-- Locking leaves no dirty row clean. -/
theorem lockScreen_keeps_dirty {x : Screen} {n : Row} (dirty : x.dirty.get n = true) :
    (lockScreen x).dirty.get n = true := by
  unfold lockScreen
  dsimp only
  split
  · simp [allDirty]
  · exact dirty

/-- Where a second locks a LIVE or DARK screen all its rows are dirty. -/
theorem tickedScreen_locks {x : Screen} (silent : x.silent = false) (lock : x.lockHeld = false)
    (locked : (tickedScreen x).lockHeld = true) (n : Row) : (tickedScreen x).dirty.get n = true := by
  rcases tickedScreen_cases x with ⟨-, e⟩ | ⟨_, -, -, e⟩ | ⟨_, -, -, e⟩ <;> rw [e] at locked ⊢
  · exact absurd (lock.symm.trans locked) (by decide)
  · exact lockScreen_dirty silent lock n
  · exact absurd (lock.symm.trans locked) (by decide)

/-- A second leaves no dirty row clean. -/
theorem tickedScreen_dirty {x : Screen} {n : Row} (dirty : x.dirty.get n = true) :
    (tickedScreen x).dirty.get n = true := by
  rcases tickedScreen_cases x with ⟨-, e⟩ | ⟨_, -, -, e⟩ | ⟨_, -, -, e⟩ <;> rw [e]
  · exact dirty
  · exact lockScreen_keeps_dirty dirty
  · exact dirty

/-! ### All the screens -/

theorem tickIdle_scu (p : Position) (s : State) :
    (tickIdle s p).scu = { s.scu with screens := s.scu.screens.modify p tickedScreen } := by
  unfold tickIdle
  split
  case h_1 n idle =>
    split
    case isTrue h => simp [expireIdle, raiseAt, modifyScreen, Table.modify, tickedScreen, idle, h]
    case isFalse h => simp [modifyScreen, Table.modify, tickedScreen, idle, h]
  case h_2 idle =>
    rw [Table.modify_eq_self]
    simp [tickedScreen, idle]

theorem tickIdles_scu {l : List Position} (distinct : l.Nodup) (s : State) :
    (l.foldl tickIdle s).scu.buffers = s.scu.buffers ∧ ∀ p, (l.foldl tickIdle s).scu.screens.get p =
      if p ∈ l then tickedScreen (s.scu.screens.get p) else s.scu.screens.get p := by
  induction l generalizing s with
  | nil => exact ⟨rfl, fun p => rfl⟩
  | cons q l ih =>
    obtain ⟨fresh, distinct⟩ := List.nodup_cons.mp distinct
    obtain ⟨buffers, screens⟩ := ih distinct (tickIdle s q)
    rw [tickIdle_scu] at buffers screens
    refine ⟨buffers, fun p => ?_⟩
    rw [List.foldl_cons, screens, Table.get_modify]
    by_cases own : q = p
    · subst own; simp [fresh]
    · simp [own, Ne.symm own]

theorem tickScu_buffers (s : State) : (tickScu s).scu.buffers = (takeReports [.clock] s).scu.buffers := by
  rw [tickScu, (tickIdles_scu (List.nodup_finRange 12) _).1]

theorem tickScu_screen (s : State) (p : Position) :
    (tickScu s).scu.screens.get p = tickedScreen ((takeReports [.clock] s).scu.screens.get p) := by
  rw [tickScu, (tickIdles_scu (List.nodup_finRange 12) _).2, if_pos (List.mem_finRange p)]

/-! ### Live fields around the second -/

theorem RenderedScreen.idle {x y : Screen} (h : RenderedScreen x y) : y.idle = x.idle := by rw [← h.1]

/-- Renderings, then a second at the screens, then renderings again. -/
structure RenderedTick (u v : Scu) : Prop where
  idles : ∀ p, match (u.screens.get p).idle with
    | none => (v.screens.get p).idle = none ∧ (v.screens.get p).lockHeld = (u.screens.get p).lockHeld
    | some n => if n ≤ 1 then (v.screens.get p).idle = none ∧ (v.screens.get p).lockHeld = true
        else (v.screens.get p).idle = some (n - 1) ∧ (v.screens.get p).lockHeld = (u.screens.get p).lockHeld
  buffers : ∀ b, RenderedBuffer (u.buffers.get b) (v.buffers.get b)
  marked : RowsMarked u v

theorem renderedTick_of_screens {u v w z : Scu} (before : Rendered u v) (buffers : w.buffers = v.buffers)
    (screens : ∀ p, w.screens.get p = tickedScreen (v.screens.get p)) (after : Rendered w z) : RenderedTick u z where
  idles p := by
    have idle := (before.screens p).idle
    have lock := (before.screens p).kept.2.1
    have idle' := (after.screens p).idle
    have lock' := (after.screens p).kept.2.1
    rw [screens] at idle' lock'
    rw [idle', lock', ← idle, ← lock]
    exact tickedScreen_idle _
  buffers b := (before.buffers b).trans (buffers ▸ after.buffers b)
  marked p n b silent lock shows altered := by
    obtain ⟨silent', lock', map'⟩ := (before.screens p).kept
    obtain ⟨silentKept, mapKept⟩ := tickedScreen_kept (v.screens.get p)
    have step := screens p
    by_cases first : (v.buffers.get b).cells = (u.buffers.get b).cells
    · have later : (z.buffers.get b).cells ≠ (w.buffers.get b).cells := by rwa [buffers, first]
      by_cases locked : (tickedScreen (v.screens.get p)).lockHeld = true
      · refine (after.screens p).2 n ?_
        rw [step]
        exact tickedScreen_locks (silent'.trans silent) (lock'.trans lock) locked n
      · refine after.marked p n b ?_ ?_ ?_ later <;> rw [step]
        · rw [silentKept, silent', silent]
        · exact Bool.eq_false_of_not_eq_true locked
        · rw [mapKept, map', shows]
    · refine (after.screens p).2 n ?_
      rw [step]
      exact tickedScreen_dirty (before.marked p n b silent lock shows first)

/-! ### The Screen Unit's part of the tick -/

theorem ask_reportsAlone (x : Asked) (s : State) : ReportsAlone s (ask x s) where
  power := rfl
  rendered := .refl _
  waits _ busy := ⟨fun free => busy fun y hy => free y (List.mem_append_left _ hy), rfl⟩

/-- Reports alone reach the Screen Unit from a tick that it does not take itself. -/
theorem serveTick_reportsAlone {v : UnitName} {s : State} (h : v ≠ .scu ∨ ¬TakesTick s v) :
    ReportsAlone s (serve (.tick v) s) := by
  by_cases takes : TakesTick s v
  · rw [serveTick_taken takes]
    exact tickEffect_reportsAlone (h.resolve_right (not_not.mpr takes)) s
  · rw [serveTick_waits takes]
    exact ask_reportsAlone _ s

/-- Before the Screen Unit's part of the tick its neighbours have reported to it. -/
theorem truTicked_reportsAlone (s : State) : ReportsAlone s (truTicked s) :=
  .after (serveTick_reportsAlone (.inl (by decide))) (.after (serveTick_reportsAlone (.inl (by decide)))
    (.of_eq rfl rfl rfl rfl))

theorem allTicked_scu (s : State) :
    (TakesTick s .scu → RenderedTick s.scu (allTicked s).scu) ∧ (¬TakesTick s .scu → (allTicked s).scu = s.scu) := by
  have before := truTicked_reportsAlone s
  have after : ReportsAlone (scuTicked s) (allTicked s) := serveTick_reportsAlone (.inl (by decide))
  refine ⟨fun takes => ?_, fun waits => ?_⟩
  · have taken : scuTicked s = tickScu (truTicked s) := serveTick_taken ((takesTick_scu s).mpr takes)
    rw [taken] at after
    exact renderedTick_of_screens (before.rendered.trans (takeReports_rendered _ _)) (tickScu_buffers _)
      (tickScu_screen _) after.rendered
  · obtain ⟨up, stands⟩ := Classical.not_imp.mp waits
    have busy : ¬NoneStandsAt s .scu := fun free =>
      stands ((tickTaken_iff (by decide) (by decide) s).mpr ⟨free, fun e => nomatch e⟩)
    have alone : ReportsAlone s (allTicked s) :=
      .after after (.after (serveTick_reportsAlone (.inr ((takesTick_scu s).not.mpr waits))) before)
    exact (alone.waits up busy).2

end Sys2Proof.Machine

end

section
/-! SUPPORT. The sender's seconds: what it sends, what it sends again, and how it stops (R169 to R175). -/

namespace Sys2Proof.Machine

/-! ### How the sender stops (R175, R187) -/

theorem stopSender_frame (reason : SendFailure) (s : State) :
    UnchangedBut [.sender, .out, .day, .buffers, .screens, .windows, .inExecution] s (stopSender reason s) := by
  simp (maxDischargeDepth := 30) [stopSender]

theorem raiseTo_sender (m : Master) (d : Detail) (s : State) : (raiseTo m d s).sender = s.sender :=
  (raiseTo_frame m d s).get .sender (by decide)

theorem raiseTo_out (m : Master) (d : Detail) (s : State) : (raiseTo m d s).out = s.out :=
  (raiseTo_frame m d s).get .out (by decide)

theorem raiseTo_fault (m : Master) (d : Detail) (s : State) : (raiseTo m d s).port.fault = s.port.fault :=
  (raiseTo_frame m d s).get .fault (by decide)

theorem stopSender_sender (reason : SendFailure) (s : State) : (stopSender reason s).sender = { s.sender with
    state := .failed, outstanding := [], wait := none, timer := none, failure := some reason } := by
  simp only [stopSender, raiseOfficer, dayChanged, raiseTo_sender, report_sender]
  rfl

theorem stopSender_out (reason : SendFailure) (s : State) :
    (stopSender reason s).out = { s.out with lineReady := false } := by
  simp only [stopSender, raiseOfficer, dayChanged, raiseTo_out, report_out]
  rfl

theorem stopSender_day (reason : SendFailure) (s : State) :
    (stopSender reason s).store.day = { s.store.day with state := .sealed } := by
  simp only [stopSender, raiseOfficer, dayChanged, raiseTo_store, report_store]
  rfl

theorem stopSender_fault (reason : SendFailure) (s : State) : (stopSender reason s).port.fault = s.port.fault := by
  simp only [stopSender, raiseOfficer, dayChanged, raiseTo_fault, report_port_fault]
  rfl

theorem stopSender_windows (reason : SendFailure) {s : State} (up : s.power = .up) :
    (stopSender reason s).port.windows = notify [(officerMaster, .dayChanged .sealed),
      (officerMaster, .sendFailed reason s.store.day.ackThrough)] s.port.windows := by
  have told (d : Detail) {t : State} (up : t.power = .up) :
      (raiseOfficer d t).port.windows = notify [(officerMaster, d)] t.port.windows := by
    rw [raiseOfficer_up _ up]; rfl
  rw [stopSender, told _ (by rw [dayChanged, report_power]; simpa [raiseOfficer] using up), dayChanged,
    report_port_windows, told _ (by exact up)]
  rfl

theorem captureFault_sender (k : FaultKind) (u : UnitName) (l : List Item) (s : State) :
    (captureFault k u l s).sender = s.sender := (captureFault_frame k u l s).get .sender (by decide)

theorem captureFault_store (k : FaultKind) (u : UnitName) (l : List Item) (s : State) :
    (captureFault k u l s).store = s.store := raiseTo_store _ _ _

theorem captureFault_out (k : FaultKind) (u : UnitName) (l : List Item) (s : State) :
    (captureFault k u l s).out = s.out := (captureFault_frame k u l s).get .out (by decide)

theorem captureFault_power (k : FaultKind) (u : UnitName) (l : List Item) (s : State) :
    (captureFault k u l s).power = s.power := (captureFault_frame k u l s).get .power (by decide)

theorem captureFault_fault (k : FaultKind) (u : UnitName) (l : List Item) (s : State) :
    (captureFault k u l s).port.fault =
      if s.port.fault.held then { s.port.fault with lost := min 15 (s.port.fault.lost + 1) }
      else ⟨true, k, u, l, s.clock.day, s.clock.seconds, s.port.fault.lost⟩ := raiseTo_fault _ _ _

theorem captureFault_windows (k : FaultKind) (u : UnitName) (l : List Item) {s : State} (up : s.power = .up) :
    (captureFault k u l s).port.windows = notify [(officerMaster, .fault k u l)] s.port.windows := by
  rw [captureFault, raiseOfficer_up _ (by exact up)]; rfl

theorem stopSender_captured (reason : SendFailure) (k : FaultKind) (u : UnitName) (l : List Item) {s : State}
    (up : s.power = .up) : SenderStopped s (stopSender reason (captureFault k u l s)) reason k u l := by
  refine ⟨?_, ?_, ?_, ?_, ?_, ?_, ?_⟩
  · exact ((captureFault_frame k u l s).mono (by decide)).trans ((stopSender_frame reason _).mono (by decide))
  · exact (ReportsAlone.after (stopSender_reportsAlone _ _) (captureFault_reportsAlone k u l s)).rendered
  · rw [stopSender_sender, captureFault_sender]
  · rw [stopSender_out, captureFault_out]
  · rw [stopSender_day, captureFault_store]
  · rw [stopSender_fault, captureFault_fault]
  · rw [stopSender_windows _ ((captureFault_power k u l s).trans up), captureFault_windows k u l up, captureFault_store]
    rfl

theorem failSender_failed {reason : SendFailure} (sent : reason ≠ .storeCheck) {s : State} (up : s.power = .up) :
    SenderFailed s (failSender reason s) reason := by
  rw [failSender_eq, failureFault, if_neg sent]
  exact stopSender_captured reason _ _ _ up

end Sys2Proof.Machine

end

section
/-! SUPPORT. The sender's seconds: the blocks it sends again, and what it does by its state (R169 to R174). -/

namespace Sys2Proof.Machine

/-! ### Other outstanding blocks -/

/-- The sender with other outstanding blocks. -/
def withOutstanding (l : List OutBlock) (s : State) : State := modifySender (fun x => { x with outstanding := l }) s

/-- Stopping does not look at the blocks that were outstanding. -/
theorem SenderStopped.withOutstanding {l : List OutBlock} {s t : State} {reason : SendFailure} {k : FaultKind}
    {u : UnitName} {items : List Item} (h : SenderStopped (withOutstanding l s) t reason k u items)
    (m : List OutBlock) :
    SenderStopped (Machine.withOutstanding m s) t reason k u items := by
  obtain ⟨frame, rest⟩ := h
  have back : UnchangedBut [.sender] (Machine.withOutstanding m s) (Machine.withOutstanding l s) :=
    modifySender_frame (fun x => { x with outstanding := l }) (Machine.withOutstanding m s)
  exact ⟨(back.mono (by decide)).trans frame, rest⟩

/-! ### One block (R169) -/

theorem failingRecord_withOutstanding (l : List OutBlock) (s : State) (b : Nat) :
    failingRecord (withOutstanding l s) b = failingRecord s b := rfl

theorem sendBlock_sound {s : State} {b : Nat} (h : failingRecord s b = none) :
    sendBlock b s = emitLine (blockFrame s b) s := by
  simp [sendBlock, h]

theorem sendBlock_unsound {s : State} {b : Nat} {r : Record} (h : failingRecord s b = some r) :
    sendBlock b s = stopSender .storeCheck (captureFault .storeCheck .jsu [.num r.sequence] s) := by
  simp only [sendBlock, h]
  rfl

theorem firstUnsound_cons (s : State) (b : Nat) (rest : List Nat) : firstUnsound s (b :: rest) =
    match failingRecord s b with
    | some r => some ([], r)
    | none => (firstUnsound s rest).map fun e => (b :: e.1, e.2) := rfl

/-! ### Blocks sent again (R173) -/

theorem countRetry_block (b : Nat) (x : OutBlock) : (countRetry b x).block = x.block := by
  unfold countRetry; split <;> rfl

theorem restartAge_block (s : State) (b : Nat) (x : OutBlock) : (restartAge s b x).block = x.block := by
  unfold restartAge; split <;> rfl

/-- The blocks outstanding once a retry of `b` has been counted and its age, and that of the next block, begun anew. -/
def retriedBlocks (s : State) (b : Nat) : List OutBlock :=
  s.sender.outstanding.map fun x =>
    let y := if x.block = b then { x with retries := x.retries + 1 } else x
    if x.block = b ∨ x.block = b + 1 then { y with age := 0, limit := s.store.lineSettings.timeout } else y

/-- The ages of a block and of the next one begun anew, one after the other. -/
theorem retriedBlocks_eq (s : State) (b : Nat) : retriedBlocks s b =
    ((s.sender.outstanding.map (countRetry b)).map (restartAge s b)).map (restartAge s (b + 1)) := by
  rw [retriedBlocks, List.map_map, List.map_map]
  refine List.map_congr_left fun x _ => ?_
  by_cases own : x.block = b
  · simp [countRetry, restartAge, own, responseTimeout]
  · by_cases next : x.block = b + 1 <;> simp [countRetry, restartAge, own, next, responseTimeout]

/-- The next block's age stands where that block is not outstanding. -/
theorem restartAge_absent {s : State} {b : Nat} {l : List OutBlock} (h : (l.any fun x => x.block == b) = false) :
    l.map (restartAge s b) = l := by
  refine (List.map_congr_left fun x hx => ?_).trans (List.map_id l)
  have other : x.block ≠ b := fun e => by simpa [e] using List.any_eq_false.mp h x hx
  simp [restartAge, other]

theorem resendBlock_here {s : State} (sending : s.sender.state = .sending) {b : Nat} {l : List OutBlock}
    (h : (l.any fun x => x.block == b) = true) :
    resendBlock (withOutstanding l s) b = sendBlock b (withOutstanding (l.map (restartAge s b)) s) :=
  if_pos ⟨sending, h⟩

theorem resendBlock_absent {s : State} {b : Nat} {l : List OutBlock} (h : (l.any fun x => x.block == b) = false) :
    resendBlock (withOutstanding l s) b = withOutstanding l s :=
  if_neg fun k => Bool.noConfusion (h.symm.trans k.2)

theorem resendBlock_stopped {s : State} (h : s.sender.state = .failed) (b : Nat) : resendBlock s b = s :=
  if_neg fun k => by simp [h] at k

theorem retryBlock_eq (b : Nat) (s : State) : retryBlock b s =
    if 4 ≤ retriesOf s b then failSender .retryLimit s
    else resendBlock (resendBlock (withOutstanding (s.sender.outstanding.map (countRetry b)) s) b) (b + 1) := rfl

/-- The state once the frames of the blocks listed have left. -/
def emitted (l : List Nat) (s : State) : State :=
  { s with out := { s.out with line := s.out.line ++ l.map (blockFrame s) } }

theorem emitted_nil (s : State) : emitted [] s = s := by simp [emitted]

theorem emitted_two (b c : Nat) (s : State) :
    emitted [b, c] s = emitLine (blockFrame s c) (emitLine (blockFrame s b) s) := by
  simp [emitted, emitLine]

theorem blocksSent_of_sound {s t : State} {l : List Nat} (h : firstUnsound s l = none) (e : t = emitted l s) :
    BlocksSent s t l := by
  unfold BlocksSent; rw [h]; exact e

theorem blocksSent_of_unsound {s t : State} {l before : List Nat} {r : Record} (h : firstUnsound s l = some (before, r))
    (stopped : SenderStopped (emitted before s) t .storeCheck .storeCheck .jsu [.num r.sequence]) :
    BlocksSent s t l := by
  unfold BlocksSent; rw [h]; exact stopped

theorem firstUnsound_withOutstanding (m : List OutBlock) (s : State) (l : List Nat) :
    firstUnsound (withOutstanding m s) l = firstUnsound s l := by
  induction l with
  | nil => rfl
  | cons b l ih => rw [firstUnsound_cons, firstUnsound_cons, ih, failingRecord_withOutstanding]

/-- A block sent again with the next one, if that is outstanding (R169, R173). -/
theorem resent_blocksSent {s : State} (up : s.power = .up) (sending : s.sender.state = .sending) {b : Nat}
    (here : (s.sender.outstanding.any fun x => x.block == b) = true) :
    BlocksSent (withOutstanding (retriedBlocks s b) s)
      (resendBlock (resendBlock (withOutstanding (s.sender.outstanding.map (countRetry b)) s) b) (b + 1))
      (b :: if (s.sender.outstanding.any fun x => x.block == b + 1) = true then [b + 1] else []) := by
  have outstanding (n : Nat) : ((s.sender.outstanding.map (countRetry b)).any fun x => x.block == n) =
      s.sender.outstanding.any fun x => x.block == n := by
    simp [List.any_map, Function.comp_def, countRetry_block]
  have outstanding' (n : Nat) :
      (((s.sender.outstanding.map (countRetry b)).map (restartAge s b)).any fun x => x.block == n) =
        s.sender.outstanding.any fun x => x.block == n := by
    rw [← outstanding n, List.any_map]
    simp only [Function.comp_def, restartAge_block]
  rw [resendBlock_here sending ((outstanding b).trans here)]
  cases first : failingRecord s b with
  | some r =>
    rw [sendBlock_unsound (by exact first), resendBlock_stopped (by rw [stopSender_sender])]
    refine blocksSent_of_unsound (before := []) (r := r) ?_ ?_
    · rw [firstUnsound_withOutstanding, firstUnsound_cons, first]
    · rw [emitted_nil]
      exact (stopSender_captured _ _ _ _ (by exact up)).withOutstanding _
  | none =>
    rw [sendBlock_sound (by exact first)]
    change BlocksSent _ (resendBlock (withOutstanding _ (emitLine (blockFrame s b) s)) (b + 1)) _
    cases next : s.sender.outstanding.any fun x => x.block == b + 1 with
    | false =>
      rw [resendBlock_absent ((outstanding' (b + 1)).trans next), retriedBlocks_eq,
        restartAge_absent ((outstanding' (b + 1)).trans next)]
      have sound : firstUnsound s [b] = none := by rw [firstUnsound_cons, first]; rfl
      exact blocksSent_of_sound ((firstUnsound_withOutstanding _ s [b]).trans sound) rfl
    | true =>
      rw [resendBlock_here (by exact sending) ((outstanding' (b + 1)).trans next), retriedBlocks_eq, if_pos rfl]
      cases second : failingRecord s (b + 1) with
      | some r =>
        rw [sendBlock_unsound (by exact second)]
        refine blocksSent_of_unsound (before := [b]) (r := r) ?_ ?_
        · rw [firstUnsound_withOutstanding, firstUnsound_cons, first, firstUnsound_cons, second]; rfl
        · exact stopSender_captured _ _ _ _ (by exact up)
      | none =>
        rw [sendBlock_sound (by exact second)]
        refine blocksSent_of_sound ?_ (emitted_two b (b + 1) (withOutstanding _ s)).symm
        rw [firstUnsound_withOutstanding, firstUnsound_cons, first, firstUnsound_cons, second]; rfl

/-! ### One second, by the sender's state (R170, R171, R173, R174) -/

theorem sendCall_sent (s : State) : CallSent s (sendCall s) := rfl

theorem sendEnd_sent (n : Nat) (s : State) : EndSent s (sendEnd n s) n := rfl

theorem callTimesOut_sent {s : State} (up : s.power = .up) :
    if s.sender.calls < 5 then CallSent s (callTimesOut s) else SenderFailed s (callTimesOut s) .noAnswer := by
  unfold callTimesOut
  split
  · exact sendCall_sent s
  · exact failSender_failed (by decide) up

theorem endTimesOut_sent {s : State} (up : s.power = .up) :
    if s.sender.endTries < 5 then EndSent s (endTimesOut s) (s.sender.endTries + 1)
    else SenderFailed s (endTimesOut s) .endLimit := by
  unfold endTimesOut
  split
  · exact sendEnd_sent _ s
  · exact failSender_failed (by decide) up

/-- A retry of the oldest outstanding block (R173). -/
theorem retryBlock_retried {s : State} (up : s.power = .up) (sending : s.sender.state = .sending) {b : OutBlock}
    {l : List OutBlock} (oldest : s.sender.outstanding = b :: l) : Retried s (retryBlock b.block s) b := by
  have retries : retriesOf s b.block = b.retries := by simp [retriesOf, oldest]
  have here : (s.sender.outstanding.any fun x => x.block == b.block) = true := by simp [oldest]
  unfold Retried
  rw [retryBlock_eq, retries]
  dsimp only
  split
  · exact failSender_failed (by decide) up
  · exact resent_blocksSent up sending here

/-- What a retry comes to is told by the block's number and its retries, not its age. -/
theorem Retried.of_aged {s t : State} {b c : OutBlock} (h : Retried s t c) (block : c.block = b.block)
    (retries : c.retries = b.retries) : Retried s t b := by
  unfold Retried at h ⊢
  rwa [block, retries] at h

theorem tickSending_ticks {s : State} (up : s.power = .up) (sending : s.sender.state = .sending) :
    SenderTicks s (tickSending s) := by
  unfold SenderTicks tickSending oldestBlock
  simp only [sending]
  cases oldest : s.sender.outstanding with
  | nil => simp [modifySender, oldest, sending]
  | cons b l =>
    simp only [List.head?_cons, agesOut, decide_eq_true_eq]
    split
    · refine Retried.of_aged (c := { b with age := b.age + 1 }) ?_ rfl rfl
      have aged := retryBlock_retried (s := modifySender (fun x => { x with
        outstanding := x.outstanding.map fun b => { b with age := b.age + 1 } }) s) up sending
        (b := { b with age := b.age + 1 }) (l := l.map fun b => { b with age := b.age + 1 })
        (by simp [modifySender, oldest])
      simpa [modifySender, oldest, sending] using aged
    · simp [modifySender, oldest, sending]

theorem tickDlu_ticks {s : State} (up : s.power = .up) : SenderTicks s (tickDlu s) := by
  unfold tickDlu
  split
  case h_1 state =>
    unfold SenderTicks tickCalling
    simp only [state]
    have waited : waitEnds s = sendCall s := if_pos state
    cases s.sender.wait with
    | none => exact ⟨fun _ => waited ▸ sendCall_sent s, fun h => nomatch h⟩
    | some n =>
      refine ⟨fun h => absurd h (by simp), fun _ => ?_⟩
      dsimp only
      split
      · exact waited ▸ sendCall_sent s
      · simp [modifySender, state]
  case h_2 state =>
    unfold SenderTicks tickTimer
    simp only [state]
    cases s.sender.timer with
    | none => rfl
    | some n =>
      dsimp only
      split
      · exact callTimesOut_sent up
      · simp [modifySender, state]
  case h_3 state => exact tickSending_ticks up state
  case h_4 state =>
    unfold SenderTicks tickTimer
    simp only [state]
    cases s.sender.timer with
    | none => rfl
    | some n =>
      dsimp only
      split
      · exact endTimesOut_sent up
      · simp [modifySender, state]
  case h_5 calling waitReady sending waitClosed =>
    unfold SenderTicks
    dsimp only
    split
    case h_1 e => exact (calling e).elim
    case h_2 e => exact (waitReady e).elim
    case h_3 e => exact (waitClosed e).elim
    case h_4 e => exact (sending e).elim
    case h_5 => rfl

end Sys2Proof.Machine

end

section
/-! SUPPORT. What the whole second tick leaves and changes, part by part. -/

namespace Sys2Proof.Machine

/-! ### Frames -/

/-- What may change before the Day and Line Unit's part of the tick. -/
theorem scuTicked_parts (s : State) :
    UnchangedBut [.clock, .exu, .transfers, .drawers, .journal, .day, .jsu, .buffers, .screens, .idles, .locks,
      .windows, .inExecution, .turns] s (scuTicked s) :=
  (((clockTicked_frame s).mono (by decide)).trans ((exuTicked_frame s).mono (by decide))).trans
    (((truTicked_frame s).mono (by decide)).trans ((scuTicked_frame s).mono (by decide)))

theorem allTicked_parts (s : State) :
    UnchangedBut [.clock, .exu, .transfers, .drawers, .journal, .day, .jsu, .buffers, .screens, .idles, .locks,
      .windows, .inExecution, .turns, .sender, .out, .fault] s (allTicked s) :=
  ((scuTicked_parts s).mono (by decide)).trans ((allTicked_frame s).mono (by decide))

/-- What the tick changes at the clock, the quotes and the transfer table no later unit touches. -/
theorem afterExu_frame (s : State) :
    UnchangedBut [.inExecution, .turns, .journal, .day, .windows, .transfers, .drawers, .jsu, .buffers, .screens,
      .locks, .idles, .sender, .out, .fault] (exuTicked s) (allTicked s) :=
  ((truTicked_frame s).mono (by decide)).trans
    (((scuTicked_frame s).mono (by decide)).trans ((allTicked_frame s).mono (by decide)))

theorem afterTru_frame (s : State) :
    UnchangedBut [.inExecution, .turns, .windows, .buffers, .screens, .locks, .idles, .sender, .out, .day, .fault]
      (truTicked s) (allTicked s) :=
  ((scuTicked_frame s).mono (by decide)).trans ((allTicked_frame s).mono (by decide))

/-! ### Clock and quotes (R57, R188) -/

theorem allTicked_clock (s : State) : (allTicked s).clock =
    if s.clock.seconds + 1 < 86400 then { s.clock with seconds := s.clock.seconds + 1 }
    else { s.clock with seconds := 0, day := (s.clock.day + 1) % 65536 } :=
  ((afterExu_frame s).get .clock (by decide)).trans ((exuTicked_frame s).get .clock (by decide))

theorem allTicked_exu (s : State) :
    (TakesTick s .exu → ∀ i, (allTicked s).exu.quotes.get i = (s.exu.quotes.get i).map quoteSecond) ∧
    (¬TakesTick s .exu → (allTicked s).exu = s.exu) ∧ (allTicked s).exu.made = s.exu.made := by
  have later : (allTicked s).exu = (exuTicked s).exu := (afterExu_frame s).get .exu (by decide)
  rw [later]
  exact exuTicked_exu s

/-! ### The transfer table and the day (R71) -/

theorem allTicked_slot {s : State} (up : s.power = .up) (takes : TakesTick s .tru) (i : Fin 8) :
    SlotTicked s (s.store.transfers.get i) ((allTicked s).store.transfers.get i) := by
  have later : (allTicked s).store.transfers = (truTicked s).store.transfers :=
    (afterTru_frame s).get .transfers (by decide)
  rw [later]
  exact truTicked_slot up takes i

theorem allTicked_store_waits {s : State} (waits : ¬TakesTick s .tru) :
    (allTicked s).store.transfers = s.store.transfers ∧ (allTicked s).store.drawers = s.store.drawers ∧
      (allTicked s).store.journal = s.store.journal := by
  have later := afterTru_frame s
  have store : (truTicked s).store = s.store := by rw [truTicked_waits waits, ask_store, exuTicked_store]
  exact ⟨(later.get .transfers (by decide)).trans (congrArg Store.transfers store),
    (later.get .drawers (by decide)).trans (congrArg Store.drawers store),
    (later.get .journal (by decide)).trans (congrArg Store.journal store)⟩

theorem scuTicked_day {s : State} (up : s.power = .up) : (scuTicked s).store.day = { s.store.day with
    used := (scuTicked s).store.day.used, openCommits := (scuTicked s).store.day.openCommits } := by
  have later : (scuTicked s).store.day = (truTicked s).store.day := (scuTicked_frame s).get .day (by decide)
  rw [later]
  by_cases takes : TakesTick s .tru
  · rw [truTicked_eq up takes]
    have counted := countTransfers_day (exuTicked s)
    rwa [exuTicked_store] at counted
  · rw [truTicked_waits takes, ask_store, exuTicked_store]

/-- Where no transfer is at its end the tick appends no record (R71). -/
theorem scuTicked_quiet {s : State} (up : s.power = .up)
    (h : ∀ i a, s.store.transfers.get i = some a → a.state = .offered → 1 < a.remaining) :
    (scuTicked s).store.day = s.store.day ∧ (scuTicked s).store.journal = s.store.journal := by
  have later := scuTicked_frame s
  have day : (truTicked s).store.day = s.store.day ∧ (truTicked s).store.journal = s.store.journal := by
    by_cases takes : TakesTick s .tru
    · rw [truTicked_eq up takes, countTransfers_none (by rwa [exuTicked_store])]
      change (exuTicked s).store.day = _ ∧ (exuTicked s).store.journal = _
      rw [exuTicked_store]
      exact ⟨rfl, rfl⟩
    · rw [truTicked_waits takes, ask_store, exuTicked_store]
      exact ⟨rfl, rfl⟩
  exact ⟨(later.get .day (by decide)).trans day.1, (later.get .journal (by decide)).trans day.2⟩

/-! ### The sender (R170) -/

theorem allTicked_sender {s : State} (up : s.power = .up) :
    (TickTaken (scuTicked s) .dlu → SenderTicks (scuTicked s) (allTicked s)) ∧
    (¬TickTaken (scuTicked s) .dlu → allTicked s = ask (.tick .dlu) (scuTicked s)) := by
  have up : (scuTicked s).power = .up := (scuTicked_power s).trans up
  refine ⟨fun taken => ?_, fun waits => tick_waits up waits⟩
  have e : allTicked s = tickDlu (scuTicked s) := (tick_taken taken).trans (if_pos up)
  rw [e]
  exact tickDlu_ticks up

/-! ### After a power warning (R88) -/

theorem tickScu_store (s : State) : (tickScu s).store = s.store := by
  have idles (l : List Position) (s : State) : (l.foldl tickIdle s).store = s.store := by
    induction l generalizing s with
    | nil => rfl
    | cons p l ih =>
      rw [List.foldl_cons, ih, tickIdle]
      split
      · split
        · exact raiseTo_store _ _ _
        · rfl
      · rfl
  rw [tickScu, idles, takeReports_store]

theorem allTicked_shut_store {s : State} (shut : s.power ≠ .up) :
    (allTicked s).store = s.store ∧ (allTicked s).sender = s.sender := by
  rw [allTicked_shut shut]
  refine ⟨?_, (scuTicked_parts s).get .sender (by decide)⟩
  rw [scuTicked_shut shut, tickScu_store, truTicked_shut shut, exuTicked_store]

end Sys2Proof.Machine

end

open Sys2Proof Sys2Proof.Machine

/-- Settles O20: the tick in its stages, the clock and then the Exchange, Transfer, Screen and Day and Line Units. What
one stage changes no later one touches, and whether the Exchange, Transfer or Screen Unit takes its part at once is
settled by the state before the tick. -/
theorem secondTickCountsEverything : Obligations.SecondTickCountsEverything := by
  unfold Obligations.SecondTickCountsEverything
  intro s on
  have exu := allTicked_exu s
  have scu := allTicked_scu s
  have parts := allTicked_parts s
  refine ⟨allTicked s, exec_secondTick on, allTicked_clock s, fun u hu => allTicked_count s hu,
    fun exu tru dru scu dlu plu => allTicked_order exu tru dru scu dlu plu,
    exu.1, exu.2.1, exu.2.2, fun takes => (scu.1 takes).idles,
    fun takes => ⟨(scu.1 takes).buffers, (scu.1 takes).marked⟩, scu.2,
    fun up takes => allTicked_slot up takes, allTicked_store_waits, fun up => ?_,
    fun shut => allTicked_shut_store (by rw [shut]; decide), ?_⟩
  · have sender := allTicked_sender up
    exact ⟨scuTicked s, scuTicked_parts s, scuTicked_day up, scuTicked_quiet up, scuTicked_unitFree up (by decide),
      scuTicked_unitFree up (by decide), sender.1, sender.2⟩
  · exact ⟨parts.get .positions (by decide), parts.get .accounts (by decide), parts.get .pru (by decide),
      parts.get .board (by decide), parts.get .kept (by decide), parts.get .pending (by decide),
      parts.get .power (by decide)⟩

section
/-! SUPPORT. Transfers and vault movements: tenders as deltas and record entries (R32, R65, R74, R76), the checks they
share, and one record appended together with one drawer's change of counts (R4, R5, R84, R86). -/

namespace Sys2Proof.Machine

/-! ### Tenders (R32, R65, R76) -/

/-- A tender's counts as deltas of one sign. -/
def signedDeltas (sign : Int) (k : Counts) : Deltas := Table.ofFn fun x => sign * (k.get x : Int)

theorem toDeltas_eq_signed (k : Counts) : toDeltas k = signedDeltas 1 k :=
  Table.ext_get fun x => by simp [toDeltas, signedDeltas]

theorem negate_toDeltas_eq_signed (k : Counts) : negate (toDeltas k) = signedDeltas (-1) k :=
  Table.ext_get fun x => by simp [toDeltas, negate, signedDeltas]

/-- Deltas of one sign are worth that many times the counts. -/
theorem deltaValue_signed (s : State) (c : Currency) (sign : Int) (k : Counts) :
    deltaValue s c (signedDeltas sign k) = sign * (valueOf s c k : Int) := by
  unfold deltaValue valueOf
  induction slotsOf c with
  | nil => simp
  | cons x rest ih =>
    rw [List.foldr_cons, List.foldr_cons, ih]
    simp only [signedDeltas, Table.get_ofFn]
    push_cast
    ring

theorem deltaEntries_signed {sign : Int} (h : sign ≠ 0) (k : Counts) :
    deltaEntries (signedDeltas sign k) = signedEntries sign k := by
  simp only [deltaEntries_eq, signedEntries, signedDeltas, Table.get_ofFn]
  refine congrArg _ (List.filter_congr fun x _ => ?_)
  simp [bne, h, Bool.beq_eq_decide_eq]

/-! ### Checks that pass -/

theorem tenderOk_given {s : State} {l : List CashEntry} (h : TenderOk s l) :
    (lengthOk l && l.all (cashEntryOk s)) = true := by
  obtain ⟨low, high, entries⟩ := h
  simp only [lengthOk, between, low, high, Bool.and_eq_true, List.all_eq_true, decide_true, true_and]
  intro e he
  obtain ⟨names, one, most⟩ := entries e he
  simp [cashEntryOk, names, between, one, most, Config.countMax]

theorem dayIs_open {s : State} (h : s.store.day.state = .opened ∨ s.store.day.state = .closing) :
    dayIs s [.opened, .closing] = true := by
  rcases h with h | h <;> simp [dayIs, h]

theorem isSettled_eq_false {s : State} {n : DrawerNo} (h : ¬Settled s n) : isSettled s n = false := by
  simpa [isSettled, Settled] using h

/-- A drawer that is not settled for counting is not CLOSED. -/
theorem not_closed {s : State} {n : DrawerNo} (h : ¬Settled s n) : (s.store.drawers.get n).state ≠ .closed :=
  fun closed => h (.inr closed)

/-! ### A record and one drawer's counts -/

/-- From `s` to `x` a record has been written, with "journal high" where it is due; of the rest what the drawer operations
read is as it was. -/
structure RecordWritten (r : Record) (s x : State) : Prop where
  up : x.power = .up
  journal : x.store.journal = (writeAppend r s).store.journal
  day : x.store.day = (writeAppend r s).store.day
  drawers : x.store.drawers = s.store.drawers
  currencies : x.store.currencies = s.store.currencies
  positions : x.store.positions = s.store.positions
  scu : x.scu = s.scu
  windows : x.port.windows = notify (highNotice s) s.port.windows

theorem recordWritten_append (r : Record) {s : State} (up : s.power = .up) : RecordWritten r s (appendRecord r s) := by
  rw [appendRecord_up r up]
  exact ⟨up, rfl, rfl, rfl, rfl, rfl, rfl, rfl⟩

section
variable {r : Record} {s x : State} (w : RecordWritten r s x)
include w

theorem RecordWritten.modifyTransfer (j : Fin 8) (a : Transfer) : RecordWritten r s (modifyTransfer j a x) :=
  ⟨w.up, w.journal, w.day, w.drawers, w.currencies, w.positions, w.scu, w.windows⟩

theorem RecordWritten.setNextTransfer (n : Nat) : RecordWritten r s (setNextTransfer n x) :=
  ⟨w.up, w.journal, w.day, w.drawers, w.currencies, w.positions, w.scu, w.windows⟩

theorem RecordWritten.addHolds (n : Nat) : RecordWritten r s (addHolds n x) :=
  ⟨w.up, w.journal, w.day, w.drawers, w.currencies, w.positions, w.scu, w.windows⟩

theorem RecordWritten.dropHold : RecordWritten r s (dropHold x) :=
  ⟨w.up, w.journal, w.day, w.drawers, w.currencies, w.positions, w.scu, w.windows⟩

end

/-- A drawer's record changed, with what follows a change of counts (R4 steps 4 and 5, R5). -/
def cashMoved (n : DrawerNo) (f : Drawer → Drawer) (x : State) : State :=
  countsChanged n (x.store.drawers.get n) (modifyDrawer n f x)

/-- The drawer's record as it then stands, its mark evaluated (R8). -/
def movedDrawer (s : State) (n : DrawerNo) (f : Drawer → Drawer) : Drawer :=
  { f (s.store.drawers.get n) with excess := markAfter s n (f (s.store.drawers.get n)).current }

section
variable {r : Record} {s x : State} {n : DrawerNo} {f : Drawer → Drawer} (w : RecordWritten r s x)
  (stand : ∀ d, LimitsStand d (f d))
include w

theorem cashMoved_rendered : Rendered s.scu (cashMoved n f x).scu := by
  rw [← w.scu]
  exact countsChanged_rendered n _ (modifyDrawer n f x)

include stand

theorem cashMoved_store :
    (cashMoved n f x).store = { x.store with drawers := s.store.drawers.set n (movedDrawer s n f) } := by
  rw [cashMoved, countsChanged_store (stand _), markAfter_congr w.drawers w.currencies, w.drawers]
  rfl

theorem cashMoved_windows : (cashMoved n f x).port.windows =
    notify (highNotice s ++ cashNotices s n (f (s.store.drawers.get n)).current) s.port.windows := by
  have day : x.store.day.state = s.store.day.state := by rw [w.day]; rfl
  rw [cashMoved, countsChanged_windows (stand _) w.up, cashNotices_congr w.drawers w.currencies w.positions day, w.drawers,
    w.windows, notify_append]

theorem cashMoved_committed (whole : JournalWhole s) :
    Committed r .none s (setApplied (s.store.day.used + 1) .none (cashMoved n f x)) := by
  have store := cashMoved_store w stand (n := n)
  exact setApplied_committed whole ((congrArg Store.journal store).trans w.journal)
    ((congrArg Store.day store).trans w.day)

end

theorem cashMoved_frame {f : Drawer → Drawer} (stand : ∀ d, LimitsStand d (f d)) (n : DrawerNo) (x : State) :
    UnchangedBut [.drawers, .windows, .buffers, .screens, .inExecution] x (cashMoved n f x) :=
  countsChanged_unchanged n _ (by decide) ((modifyDrawer_frame n f (fun d => (stand d).bound) x).mono (by decide))

/-- The vault has no limits and no mark: its alerts are none (R4). -/
theorem cashNotices_vault (s : State) (c : Counts) : cashNotices s vault c = [] := by
  simp [cashNotices]

end Sys2Proof.Machine
end

section
/-! SUPPORT. Vault movements (R76, R77). -/

namespace Sys2Proof.Machine

theorem shortSlot_isNone {d : Drawer} {t : Deltas} (h : FitsDrawer d t) : (shortSlot d t).isNone = true :=
  countChecks_pass h ⟨_, .shortCount, denomDetail (shortSlot d t)⟩ (List.mem_cons_self ..)

theorem overSlot_isNone {d : Drawer} {t : Deltas} (h : FitsDrawer d t) : (overSlot d t).isNone = true :=
  countChecks_pass h ⟨_, .countLimit, denomDetail (overSlot d t)⟩ (List.mem_cons_of_mem _ (List.mem_cons_self ..))

/-- The record of a vault movement (R77). -/
def vaultRecord (k : RecordKind) (reference : Nat) (deltas : Deltas) (s : State) : Record :=
  { emptyRecord k with
    drawer := some vault
    account := some reference
    homeAmount := some (deltaValue s 0 deltas)
    tender := deltaEntries deltas
    narrative := some 0 }

theorem vaultRecord_signed (k : RecordKind) (reference : Nat) {sign : Int} (h : sign ≠ 0) (c : Counts) (s : State) :
    vaultRecord k reference (signedDeltas sign c) s = { emptyRecord k with
      drawer := some vault
      account := some reference
      homeAmount := some (sign * (valueOf s 0 c : Int))
      tender := signedEntries sign c
      narrative := some 0 } := by
  rw [vaultRecord, deltaValue_signed, deltaEntries_signed h]

/-- The state a vault movement leaves: the record, the vault's cash change and the applied mark (R77). -/
def vaultMoved (k : RecordKind) (reference : Nat) (deltas : Deltas) (s : State) : State :=
  let q := s.store.day.used + 1
  setApplied q .none (cashMoved vault (changedDrawer s deltas q 0) (appendRecord (vaultRecord k reference deltas s) s))

theorem changedDrawer_congr {s x : State} (currencies : x.store.currencies = s.store.currencies) (t : Deltas) (q : Nat)
    (r : Int) : changedDrawer x t q r = changedDrawer s t q r := by
  funext d
  simp only [changedDrawer, inflow, outflow, faceOf, currencies]

theorem vaultTaken_eq (k : RecordKind) (reference : Nat) (l : Fld (List CashEntry)) (deltas : Deltas) {s : State}
    (up : s.power = .up) : vaultTaken k ⟨.value reference, l⟩ deltas s =
      take (vaultMoved k reference deltas s) [numField (s.store.day.used + 1),
        (definedCurrencies s).map fun c =>
          .amount (valueOf s c (applyDeltas (s.store.drawers.get vault).current deltas))] := by
  have w := recordWritten_append (vaultRecord k reference deltas s) up
  have store := cashMoved_store w (n := vault)
    fun d => changedDrawer_limitsStand s deltas (s.store.day.used + 1) 0 d
  have moved : vaultTaken k ⟨.value reference, l⟩ deltas s = take (vaultMoved k reference deltas s)
      [numField (s.store.day.used + 1), (definedCurrencies (vaultMoved k reference deltas s)).map fun c => .amount
        (valueOf (vaultMoved k reference deltas s) c ((vaultMoved k reference deltas s).store.drawers.get vault).current)] := by
    rw [vaultMoved, ← changedDrawer_congr w.currencies]
    rfl
  have currencies : (vaultMoved k reference deltas s).store.currencies = s.store.currencies :=
    (congrArg Store.currencies store).trans w.currencies
  have drawer : ((vaultMoved k reference deltas s).store.drawers.get vault).current =
      applyDeltas (s.store.drawers.get vault).current deltas := by
    refine (congrArg (fun d : Table Drawer 13 => (d.get vault).current) (congrArg Store.drawers store)).trans ?_
    rw [Table.get_set_self]
    rfl
  have defined : definedCurrencies (vaultMoved k reference deltas s) = definedCurrencies s := by
    rw [definedCurrencies, definedCurrencies, show isDefined _ = isDefined s from funext fun c => by rw [isDefined, currencies]; rfl]
  simp only [moved, drawer, defined, valueOf_congr currencies]

section
variable {k : RecordKind} {reference : Nat} {deltas : Deltas} {s : State} (up : s.power = .up)
include up

theorem vaultMoved_drawers : OneDrawer vault (afterCash s vault deltas (s.store.day.used + 1) 0) s
    (vaultMoved k reference deltas s) :=
  congrArg Store.drawers (cashMoved_store (recordWritten_append _ up) (changedDrawer_limitsStand s deltas _ 0))

/-- The vault's limits and mark stay clear of a movement: it raises no alert (R4). -/
theorem vaultMoved_windows :
    (vaultMoved k reference deltas s).port.windows = notify (highNotice s) s.port.windows := by
  have windows := cashMoved_windows (n := vault) (recordWritten_append (vaultRecord k reference deltas s) up)
    (changedDrawer_limitsStand s deltas (s.store.day.used + 1) 0)
  rwa [cashNotices_vault, List.append_nil] at windows

theorem vaultMoved_rendered : Rendered s.scu (vaultMoved k reference deltas s).scu :=
  cashMoved_rendered (recordWritten_append (vaultRecord k reference deltas s) up)

theorem vaultMoved_committed (whole : JournalWhole s) :
    Committed (vaultRecord k reference deltas s) .none s (vaultMoved k reference deltas s) :=
  cashMoved_committed (recordWritten_append _ up) (changedDrawer_limitsStand s deltas _ 0) whole

end

theorem vaultMoved_frame (k : RecordKind) (reference : Nat) (deltas : Deltas) (s : State) :
    UnchangedBut [.journal, .day, .windows, .drawers, .buffers, .screens, .inExecution] s
      (vaultMoved k reference deltas s) :=
  setApplied_unchanged _ _ (by decide) (((appendRecord_frame _ s).mono (by decide)).trans
    ((cashMoved_frame (changedDrawer_limitsStand s deltas _ 0) vault _).mono (by decide)))

/-- Steps 1 to 4 of R76 pass. -/
theorem vaultChecks_pass {h : ReqHead} {reference : Nat} {l : List CashEntry} {s : State} (officer : FromOfficer h)
    (day : s.store.day.state = .opened ∨ s.store.day.state = .closing) (digits : reference < 1000000000000)
    (tender : TenderOk s l) (open' : ¬Settled s vault) :
    ∀ c ∈ vaultChecks h ⟨.value reference, .value l⟩ s, c.pass = true := by
  simp only [vaultChecks, List.forall_mem_append, List.forall_mem_cons]
  refine ⟨officerOnly_pass officer, dayIs_open day, ?_, ?_, by simp⟩
  · have given := tenderOk_given tender
    simp [vaultTenderOk, officer.2, isDigits12, Fld.required, fitsDigits, digits]
    simpa using given
  · simp [isSettled_eq_false open']

end Sys2Proof.Machine

open Sys2Proof Sys2Proof.Machine

/-- Settles O39: a tender counted with a sign is the movement's deltas; the checks are the hypotheses, and `vaultMoved` is
the commit of both movements. -/
theorem vaultMovementsChangeTheVault : Obligations.VaultMovementsChangeTheVault := by
  unfold Obligations.VaultMovementsChangeTheVault
  intro h reference l s officer whole day digits tender open' room k d Moves
  have passed := vaultChecks_pass officer day digits tender open'
  have ordinary : roomFor s .ordinary 1 = true := by simpa [roomFor, holdLimit, Config.ordinaryLimit] using room
  have moves {i : Instr} {kind : Nat} {record : RecordKind} {sign : Int} {deltas : Deltas} {checks : State → List Check}
      (x : exec i s = .next (carry h i (fun s => judge (checks s) s
        (vaultTaken record ⟨.value reference, .value l⟩ deltas s)) s))
      (code : requestKind i = some kind) (unit : unitOf i ≠ .scu) (unnamed : namedPosition i = .absent)
      (signed : deltas = signedDeltas sign k) (nonzero : sign ≠ 0)
      (pass : FitsDrawer d deltas → ∀ c ∈ checks s, c.pass = true) : Moves i kind record sign deltas := by
    intro served fits
    have frame := vaultMoved_frame record reference deltas s
    have answer := exec_taken served x (restartNamed_none i unnamed s) (pass fits)
      (vaultTaken_eq record reference (.value l) deltas served.up) rfl
    rw [code] at answer
    refine ⟨_, answer, respond_unchangedBut frame h _ _ _ _ (by decide) (by decide), vaultMoved_rendered served.up,
      vaultMoved_drawers served.up, ?_, answered_of_frame served frame unit (by decide) (vaultMoved_windows served.up) _ _ _ _⟩
    have committed := vaultMoved_committed (k := record) (reference := reference) (deltas := deltas) served.up whole
    rw [signed, vaultRecord_signed record reference nonzero, ← signed] at committed
    exact committed
  have received : (Table.ofFn fun x => (k.get x : Int)) = vaultDeltas ⟨.value reference, .value l⟩ :=
    Table.ext_get fun x => by simp [vaultDeltas, toDeltas, Fld.getD, k]
  have dispatched : (Table.ofFn fun x => -(k.get x : Int)) = negate (vaultDeltas ⟨.value reference, .value l⟩) :=
    Table.ext_get fun x => by simp [vaultDeltas, negate, toDeltas, Fld.getD, k]
  rw [received, dispatched]
  constructor
  · refine moves rfl rfl (by simp [unitOf, requestKind]) rfl (toDeltas_eq_signed k) (by decide) fun fits => ?_
    simp only [vaultReceiveChecks, List.forall_mem_append, List.forall_mem_cons]
    exact ⟨passed, overSlot_isNone fits, ordinary, by simp⟩
  · refine moves rfl rfl (by simp [unitOf, requestKind]) rfl (negate_toDeltas_eq_signed k) (by decide) fun fits => ?_
    simp only [vaultDispatchChecks, List.forall_mem_append, List.forall_mem_cons]
    exact ⟨passed, shortSlot_isNone fits, ordinary, by simp⟩
end

section
/-! SUPPORT. The transfer table and TRANSFER.OFFER: slots, numbers and records of transfers (R63, R64, R74), and an offer
committed (R5, R65, R66). -/

namespace Sys2Proof.Machine

/-! ### Slots and numbers (R64) -/

theorem transferSlot_first {s : State} {number : Nat} {j : Fin 8} {a : Transfer}
    (h : FirstWith s.store.transfers (fun b => b.number = number) j a) : transferSlot s number = some (j, a) :=
  Table.findSome_entries_first (p := fun b : Transfer => b.number == number) (by simpa using h)

theorem transferSlot_isSome {s : State} {number : Nat} : (transferSlot s number).isSome = true ↔
    ∃ j a, s.store.transfers.get j = some a ∧ a.number = number := by
  constructor
  · intro found
    obtain ⟨⟨j, a⟩, found⟩ := Option.isSome_iff_exists.mp found
    obtain ⟨slot, is, -⟩ := Table.findSome_entries_iff.mp found
    exact ⟨j, a, slot, by simpa using is⟩
  · intro found
    obtain ⟨j, a, first⟩ := Table.exists_firstWith found
    rw [transferSlot_first first]; rfl

/-- The table holds fewer transfers than there are numbers, so the search ends at one that is free. -/
theorem transferNumber_first (s : State) : FirstFreeNumber
    (fun x => ∃ j a, s.store.transfers.get j = some a ∧ a.number = x) 255 s.store.nextTransfer (transferNumber s) := by
  obtain ⟨k, few, free⟩ := exists_number_free s.store.transfers Transfer.number s.store.nextTransfer (show 8 < 255 by decide)
  have first := firstFree_first (held := fun n => (transferSlot s n).isSome) (fuel := 9)
    ⟨k, by omega, Bool.eq_false_iff.mpr (mt transferSlot_isSome.mp free)⟩
  simp only [transferSlot_isSome] at first
  exact first

theorem freeTransferSlot_isSome {s : State} (h : ∃ j, ∀ a, s.store.transfers.get j = some a → a.state ≠ .offered) :
    (freeTransferSlot s).isSome = true := by
  obtain ⟨j, free⟩ := h
  exact Table.findIdx_isSome (ended := fun a => !isOffered a) (i := j) fun a slot => by simpa [isOffered] using free a slot

theorem freeTransferSlot_taken {s : State} {j : Fin 8} (h : freeTransferSlot s = some j) :
    TakenSlot s.store.transfers.get (fun a => a.state ≠ .offered) j := by
  have taken := Table.takenSlot_of_findIdx (ended := fun a => !isOffered a) h
  simpa [isOffered] using taken

/-! ### Records and notices of transfers (R73, R74) -/

theorem transferRecord_signed (s : State) (kind : RecordKind) (p : Option Position) (n second : DrawerNo) {sign : Int}
    (h : sign ≠ 0) (k : Counts) (narrative : Nat) (reverses : Option Nat) :
    transferRecord s kind p n second (signedDeltas sign k) narrative reverses = { emptyRecord kind with
      position := p
      teller := p.bind fun p => (s.store.positions.get p).teller
      drawer := some n
      second := some second
      homeAmount := some (sign * (valueOf s 0 k : Int))
      tender := signedEntries sign k
      narrative := some narrative
      reverses := reverses } := by
  rw [transferRecord, deltaValue_signed, deltaEntries_signed h]
  rfl

/-- A notice goes where the drawer is bound, whatever else of the drawers has changed. -/
theorem drawerMaster_congr {L : List Part} {s u : State} (f : UnchangedBut L s u) (bounds : Part.bounds ∉ L)
    (positions : Part.positions ∉ L) (n : DrawerNo) : drawerMaster u n = drawerMaster s n := by
  have bound : (u.store.drawers.get n).bound = (s.store.drawers.get n).bound := f.get .bounds bounds n
  have position : u.store.positions = s.store.positions := f.get .positions positions
  simp only [drawerMaster, servingMaster, bound, position]

/-! ### The reserve (R5) -/

/-- The from-drawer's record after the reserve, but for its mark. -/
def reservedDrawer (s : State) (k : Counts) (q : Nat) (d : Drawer) : Drawer :=
  { d with
    current := subCounts d.current k
    reserved := addCounts d.reserved k
    transfersOut := addMoney d.transfersOut fun c => valueOf s c k
    lastApplied := q }

theorem reservedDrawer_limitsStand (s : State) (k : Counts) (q : Nat) (d : Drawer) :
    LimitsStand d (reservedDrawer s k q d) := ⟨rfl, rfl, rfl, rfl, rfl⟩

theorem reserveCash_eq {s x : State} (h : x.store.currencies = s.store.currencies) (n : DrawerNo) (k : Counts) (q : Nat) :
    reserveCash n k q x = cashMoved n (reservedDrawer s k q) x := by
  simp only [reserveCash, valueOf_congr h]
  rfl

theorem reserveShort_eq_none {d : Drawer} {k : Counts}
    (h : ∀ x, 0 < k.get x → d.reserved.get x + k.get x + k.get x ≤ d.current.get x) : reserveShort d k = none := by
  rw [reserveShort, List.find?_eq_none]
  intro x _ short
  obtain ⟨some', short⟩ := of_decide_eq_true short
  have := h x some'
  omega

/-! ### The commit of an offer (R66) -/

/-- The record of an offer. -/
def offerRecord (s : State) (p : Option Position) (a : Transfer) : Record :=
  transferRecord s .transferOut p a.fromDrawer a.toDrawer (negate (toDeltas a.tender)) 0 none

/-- The record of an offer written, with its slot and its end hold. -/
def offerWritten (j : Fin 8) (a : Transfer) (p : Option Position) (s : State) : State :=
  addHolds 1 (setNextTransfer (numberAfter 255 a.number) (modifyTransfer j a (appendRecord (offerRecord s p a) s)))

/-- The state an offer leaves before the receiver is told. -/
def offerMade (j : Fin 8) (a : Transfer) (p : Option Position) (s : State) : State :=
  setApplied a.offerSeq .none (cashMoved a.fromDrawer (reservedDrawer s a.tender a.offerSeq) (offerWritten j a p s))

theorem offerMade_frame (j : Fin 8) (a : Transfer) (p : Option Position) (s : State) :
    UnchangedBut [.journal, .day, .windows, .transfers, .nextTransfer, .drawers, .jsu, .buffers, .screens, .inExecution] s (offerMade j a p s) :=
  setApplied_unchanged _ _ (by decide) ((addHolds_unchanged 1 (by decide) (setNextTransfer_unchanged _ (by decide)
    (modifyTransfer_unchanged _ _ (by decide) ((appendRecord_frame _ s).mono (by decide))))).trans
      ((cashMoved_frame (reservedDrawer_limitsStand s a.tender a.offerSeq) a.fromDrawer _).mono (by decide)))

section
variable {j : Fin 8} {a : Transfer} {p : Option Position} {s : State} (up : s.power = .up)
include up

theorem offerWritten_written : RecordWritten (offerRecord s p a) s (offerWritten j a p s) :=
  (((recordWritten_append _ up).modifyTransfer j a).setNextTransfer _).addHolds 1

theorem offerWritten_store : (offerWritten j a p s).store = { (writeAppend (offerRecord s p a) s).store with
    transfers := s.store.transfers.set j (some a)
    nextTransfer := numberAfter 255 a.number } := by
  rw [offerWritten, appendRecord_up _ up]
  rfl

theorem offerMade_store : (offerMade j a p s).store.drawers =
      s.store.drawers.set a.fromDrawer (movedDrawer s a.fromDrawer (reservedDrawer s a.tender a.offerSeq)) ∧
    (offerMade j a p s).store.transfers = s.store.transfers.set j (some a) ∧
    (offerMade j a p s).store.nextTransfer = numberAfter 255 a.number := by
  have moved := cashMoved_store (n := a.fromDrawer) (offerWritten_written (j := j) (a := a) (p := p) up)
    (reservedDrawer_limitsStand s a.tender a.offerSeq)
  rw [offerWritten_store up] at moved
  exact ⟨congrArg Store.drawers moved, congrArg Store.transfers moved, congrArg Store.nextTransfer moved⟩

theorem offerMade_jsu : (offerMade j a p s).jsu = { s.jsu with holds := s.jsu.holds + 1 } := by
  refine ((cashMoved_frame (reservedDrawer_limitsStand s a.tender a.offerSeq) a.fromDrawer _).get .jsu (by decide)).trans ?_
  rw [offerWritten, appendRecord_up _ up]
  rfl

theorem offerMade_windows : (offerMade j a p s).port.windows =
    notify (highNotice s ++ cashNotices s a.fromDrawer (subCounts (s.store.drawers.get a.fromDrawer).current a.tender))
      s.port.windows :=
  cashMoved_windows (offerWritten_written up) (reservedDrawer_limitsStand s a.tender a.offerSeq)

theorem offerMade_rendered : Rendered s.scu (offerMade j a p s).scu :=
  cashMoved_rendered (offerWritten_written (j := j) (a := a) (p := p) up)

theorem offerMade_committed (whole : JournalWhole s) (next : a.offerSeq = s.store.day.used + 1) :
    Committed (offerRecord s p a) .none s (offerMade j a p s) := by
  rw [offerMade, next]
  exact cashMoved_committed (offerWritten_written up) (reservedDrawer_limitsStand s a.tender _) whole

/-- The commit of an offer, and the notice to the receiver (R66 step 4, R73). -/
theorem commitOffer_eq : commitOffer j a p s = notified
    [(drawerMaster s a.toDrawer, .transfer .offered a.number a.fromDrawer a.toDrawer)] (offerMade j a p s) := by
  have made : commitOffer j a p s = raiseTransfer .offered a.toDrawer a (offerMade j a p s) := by
    rw [offerMade, ← reserveCash_eq (offerWritten_written up).currencies]
    rfl
  have frame := offerMade_frame j a p s
  rw [made, raiseTransfer, raiseTo_up _ _ ((frame.get .power (by decide)).trans up),
    drawerMaster_congr frame (by decide) (by decide)]

end

/-! ### The request (R65) -/

/-- A request of an offer, from a position's drawer or from the vault. -/
def offerRequest (p : Option Position) (target : DrawerNo) (l : List CashEntry) (timeout : Fld Nat) : OfferReq :=
  ⟨match p with | some p => .value p.val | none => .absent, .value target.val, .value l, timeout⟩

/-- The Screen Unit once the idle count of a position that the request names has been restarted (R152). -/
def startedScu (s : State) (p : Option Position) : Scu :=
  match p with | some p => restartedScu s p | none => s.scu

theorem startedScu_frame (s : State) (p : Option Position) :
    UnchangedBut [.screens, .idles] s { s with scu := startedScu s p } := by
  cases p with
  | none => exact .refl _ s
  | some q => exact restartedScu_frame q s

/-- The seconds an offer stands: those given, within 60 to 3600, and without any 900 (R65). -/
def secondsOf (timeout : Fld Nat) : Nat := match timeout with | .value x => max 60 (min 3600 x) | _ => 900

theorem offerTimeout_eq (p : Option Position) (target : DrawerNo) (l : List CashEntry) (timeout : Fld Nat) :
    offerTimeout (offerRequest p target l timeout) = secondsOf timeout := by
  cases timeout <;> rfl

theorem offerPosition_eq (p : Option Position) (target : DrawerNo) (l : List CashEntry) (timeout : Fld Nat) :
    offerPosition (offerRequest p target l timeout) = p := by
  cases p with
  | none => rfl
  | some p => exact congrArg some (positionOf_val p)

/-- The request may be made: an offer from the vault by the officer, one from a position by a master that may act for it,
its screen unlocked and bound to the from-drawer (R65). -/
structure MayOffer (h : ReqHead) (s : State) (p : Option Position) (n : DrawerNo) : Prop where
  fromVault : p = none → FromOfficer h ∧ n = vault
  fromPosition : ∀ q, p = some q → MayActFor h s q ∧ (s.store.positions.get q).drawer = some n ∧
    (s.scu.screens.get q).lockHeld = false

section
variable {h : ReqHead} {s : State} {p : Option Position} {n : DrawerNo} (may : MayOffer h s p n) (target : DrawerNo)
  (l : List CashEntry) (timeout : Fld Nat)
include may

theorem offerFrom_eq : offerFrom s (offerRequest p target l timeout) = n := by
  cases p with
  | none => exact (may.fromVault rfl).2.symm
  | some q =>
    obtain ⟨-, bound, -⟩ := may.fromPosition q rfl
    change (boundDrawer s (positionOf (.value q.val))).getD vault = n
    rw [positionOf_val, boundDrawer, bound]
    rfl

theorem MayOffer.spare : h.spare = false := by
  cases p with
  | none => exact (may.fromVault rfl).1.2
  | some q => exact (may.fromPosition q rfl).1.1

theorem offerAuthority_pass : ∀ c ∈ offerAuthority h (offerRequest p target l timeout) s, c.pass = true := by
  cases p with
  | none => exact officerOnly_pass (may.fromVault rfl).1
  | some q => exact positionChecks_pass (may.fromPosition q rfl).1

theorem offerPositionChecks_pass : ∀ c ∈ offerPositionChecks (offerRequest p target l timeout) s, c.pass = true := by
  rw [offerPositionChecks, offerPosition_eq]
  cases p with
  | none => simp
  | some q =>
    obtain ⟨-, bound, unlocked⟩ := may.fromPosition q rfl
    simp [boundDrawer, bound, isLocked, unlocked]

theorem restartNamed_offer : restartNamed (.transferOffer h (offerRequest p target l timeout)) s =
    { s with scu := startedScu s p } := by
  cases p with
  | none => exact restartNamed_none _ rfl s
  | some q => exact restartNamed_named _ q rfl s

/-- A restarted idle count changes nothing of what makes an offer allowed. -/
theorem MayOffer.started : MayOffer h { s with scu := startedScu s p } p n where
  fromVault := may.fromVault
  fromPosition q hq := by
    obtain ⟨act, bound, unlocked⟩ := may.fromPosition q hq
    subst hq
    exact ⟨act, bound, by simpa [startedScu] using unlocked⟩

end

section
variable {h : ReqHead} {s : State} {p : Option Position} {n target : DrawerNo} {l : List CashEntry} {timeout : Fld Nat}

theorem transferOfferChecks_pass (may : MayOffer h s p n)
    (day : s.store.day.state = .opened ∨ s.store.day.state = .closing) (other : target ≠ n) (tender : TenderOk s l)
    (given : timeout ≠ .malformed) (fromOpen : ¬Settled s n) (toOpen : ¬Settled s target)
    (unmarked : (s.store.drawers.get target).excess = false)
    (enough : ∀ x, 0 < (summedCounts l).get x → (s.store.drawers.get n).reserved.get x + (summedCounts l).get x +
      (summedCounts l).get x ≤ (s.store.drawers.get n).current.get x)
    (room : s.store.day.used + s.jsu.holds + 2 ≤ 16352)
    (slot : ∃ j, ∀ a, s.store.transfers.get j = some a → a.state ≠ .offered) :
    ∀ c ∈ transferOfferChecks h (offerRequest p target l timeout) s, c.pass = true := by
  have short : reserveShort (s.store.drawers.get n) (summedCounts l) = none := reserveShort_eq_none enough
  have limited : timeout.optional (fun _ => true) = true := by cases timeout <;> simp_all [Fld.optional]
  have listed : (Fld.value l).required (fun l => lengthOk l && l.all (cashEntryOk s)) = true := tenderOk_given tender
  have number : inRange 0 12 (.value target.val) = true := inRange_val target
  have drawer : drawerOf (offerRequest p target l timeout).toDrawer = target := drawerOf_val target
  have counts : offerTender (offerRequest p target l timeout) = summedCounts l := rfl
  simp only [transferOfferChecks, offerFrom_eq may, drawer, counts, List.forall_mem_append, List.forall_mem_cons]
  refine ⟨⟨⟨offerAuthority_pass may target l timeout, dayIs_open day, by simp⟩, offerPositionChecks_pass may target l timeout⟩,
    ?_, ?_, ?_, ?_, freeTransferSlot_isSome slot, ?_, by simp⟩
  · simp only [offerRequest, may.spare, number, listed, limited, Bool.not_false, Bool.true_and, Bool.and_true]
    simpa using other
  · simp [isSettled_eq_false fromOpen, isSettled_eq_false toOpen]
  · simp [isMarked, unmarked]
  · rw [short]; rfl
  · simpa [roomFor, holdLimit, Config.ordinaryLimit] using room

/-- The transfer that an offer makes, field by field (R63, R66). -/
theorem newTransfer_eq (may : MayOffer h s p n) : newTransfer (offerRequest p target l timeout) s =
    ⟨transferNumber s, .offered, n, target, summedCounts l, secondsOf timeout, secondsOf timeout, s.store.day.used + 1,
      none⟩ := by
  have drawer : drawerOf (offerRequest p target l timeout).toDrawer = target := drawerOf_val target
  simp only [newTransfer, offerFrom_eq may, drawer, offerTimeout_eq]
  rfl

end

end Sys2Proof.Machine

open Sys2Proof Sys2Proof.Machine

/-- Settles O36: the checks are the hypotheses, read on the state with the idle count restarted; slot and number are the
first free ones of the table, and the commit is `offerMade` with the receiver told. -/
theorem offersReserveTheirCash : Obligations.OffersReserveTheirCash := by
  unfold Obligations.OffersReserveTheirCash
  intro h p n target l timeout s i d k sequence seconds served whole day vaults positions other tender given fromOpen toOpen
    unmarked enough room slot current
  let s1 : State := { s with scu := startedScu s p }
  let request := offerRequest p target l timeout
  have may : MayOffer h s1 p n := MayOffer.started ⟨vaults, positions⟩
  have up : s1.power = .up := served.up
  have restarted : restartNamed i s = s1 := restartNamed_offer ⟨vaults, positions⟩ target l timeout
  have passed : ∀ c ∈ transferOfferChecks h request s1, c.pass = true :=
    transferOfferChecks_pass may day other tender given fromOpen toOpen unmarked enough room slot
  obtain ⟨j, free⟩ := Option.isSome_iff_exists.mp (freeTransferSlot_isSome (s := s1) slot)
  let number := transferNumber s1
  let a : Transfer := ⟨number, .offered, n, target, k, seconds, seconds, sequence, none⟩
  let u : State := offerMade j a p s1
  let v : State := notified [(drawerMaster s1 target, .transfer .offered number n target)] u
  obtain ⟨drawers, transfers, nextTransfer⟩ := offerMade_store (j := j) (a := a) (p := p) up
  have commit : commitOffer j a p s1 = v := commitOffer_eq up
  have frame : UnchangedBut [.journal, .day, .windows, .transfers, .nextTransfer, .drawers, .jsu, .buffers, .screens, .idles,
      .inExecution] s v := commit ▸ ((startedScu_frame s p).mono (by decide)).trans ((commitOffer_frame j a p s1).mono (by decide))
  have committed : Committed (offerRecord s1 p a) .none s u := offerMade_committed (j := j) up whole rfl
  have drawer : v.store.drawers.get n = movedDrawer s1 n (reservedDrawer s1 k sequence) :=
    (congrArg (fun x : Table Drawer 13 => x.get n) drawers).trans (Table.get_set_self _ _ _)
  have taken : transferOfferTaken h request s1 = takeMasked v [some [.num number], some [.num sequence], some [.num seconds],
      if h.master ≠ officerMaster ∧ s.store.day.state = .closing then none
      else some [.amount (valueOf s 0 current)]] := by
    have told := shownTotal_eq v h.master n (by rw [drawer]; exact not_closed fromOpen)
    have closing : v.store.day.state = s.store.day.state := (congrArg DayRecord.state committed.2 :)
    have total : homeTotal v (movedDrawer s1 n (reservedDrawer s1 k sequence)) = valueOf s 0 current :=
      valueOf_congr (frame.get .currencies (by decide)) 0 _
    have made : newTransfer request s1 = a := newTransfer_eq may
    rw [drawer, closing, total] at told
    rw [transferOfferTaken, made, free, Option.getD_some, offerPosition_eq, commit, ← told]
  have windows : v.port.windows = notify (highNotice s ++ cashNotices s n current ++
      [(drawerMaster s target, .transfer .offered number n target)]) s.port.windows := by
    rw [notify_append]
    exact congrArg (notify _) (offerMade_windows (j := j) (a := a) (p := p) up)
  refine ⟨_, j, number, exec_taken served rfl restarted passed taken rfl,
    respond_unchangedBut frame h _ _ _ _ (by decide) (by decide), offerMade_rendered (j := j) (a := a) (p := p) up,
    freeTransferSlot_taken free, transferNumber_first s1, nextTransfer, transfers, drawers, offerMade_jsu up, ?_,
    answered_of_frame served frame (by simp [i, unitOf, requestKind]) (by decide) windows _ _ _ _⟩
  have record := transferRecord_signed s1 .transferOut p n target (show (-1 : Int) ≠ 0 by decide) k 0 none
  rw [← negate_toDeltas_eq_signed, neg_one_mul] at record
  rw [show offerRecord s1 p a = _ from record] at committed
  exact committed
end

section
/-! SUPPORT. A return, by a decline or at the end of a timeout (R5, R70, R71), and the checks of the requests that end a
transfer (R68, R70). -/

namespace Sys2Proof.Machine

/-! ### The return (R5, R70) -/

/-- The from-drawer's record after the return, but for its mark. -/
def returnedDrawer (s : State) (k : Counts) (q : Nat) (d : Drawer) : Drawer :=
  { d with
    current := addCounts d.current k
    reserved := subCounts d.reserved k
    transfersOut := subMoney d.transfersOut fun c => valueOf s c k
    lastApplied := q }

theorem returnedDrawer_limitsStand (s : State) (k : Counts) (q : Nat) (d : Drawer) :
    LimitsStand d (returnedDrawer s k q d) := ⟨rfl, rfl, rfl, rfl, rfl⟩

theorem returnCash_eq {s x : State} (h : x.store.currencies = s.store.currencies) (n : DrawerNo) (k : Counts) (q : Nat) :
    returnCash n k q x = cashMoved n (returnedDrawer s k q) x := by
  simp only [returnCash, valueOf_congr h]
  rfl

/-- The record of a return. -/
def returnRecord (s : State) (a : Transfer) (p : Option Position) (narrative : Nat) : Record :=
  transferRecord s .transferReturn p a.fromDrawer a.toDrawer (toDeltas a.tender) narrative (some a.offerSeq)

/-- The record of a return written, with the slot's end, and its hold used up. -/
def returnWritten (j : Fin 8) (a : Transfer) (state : TransferState) (p : Option Position) (narrative : Nat) (s : State) :
    State :=
  dropHold (modifyTransfer j { a with state := state, endSeq := some (s.store.day.used + 1) }
    (appendRecord (returnRecord s a p narrative) s))

section
variable {j : Fin 8} {a : Transfer} {state : TransferState} {p : Option Position} {narrative : Nat} {s : State}
  (up : s.power = .up)
include up

theorem returnWritten_written :
    RecordWritten (returnRecord s a p narrative) s (returnWritten j a state p narrative s) :=
  ((recordWritten_append _ up).modifyTransfer j _).dropHold

theorem commitReturn_eq : commitReturn j a state p narrative s = setApplied (s.store.day.used + 1) .none
    (cashMoved a.fromDrawer (returnedDrawer s a.tender (s.store.day.used + 1)) (returnWritten j a state p narrative s)) := by
  rw [← returnCash_eq (returnWritten_written up).currencies]
  rfl

theorem commitReturn_windows : (commitReturn j a state p narrative s).port.windows = notify (highNotice s ++
    cashNotices s a.fromDrawer (addCounts (s.store.drawers.get a.fromDrawer).current a.tender)) s.port.windows := by
  rw [commitReturn_eq up]
  exact cashMoved_windows (returnWritten_written up) (returnedDrawer_limitsStand s a.tender _)

theorem commitReturn_rendered : Rendered s.scu (commitReturn j a state p narrative s).scu := by
  rw [commitReturn_eq up]
  exact cashMoved_rendered (returnWritten_written (j := j) up)

/-- The cash offered is back at the from-drawer (R5, R70). -/
theorem commitReturn_returned (whole : JournalWhole s) : CashReturned s (commitReturn j a state p narrative s) j a
    { a with state := state, endSeq := some (s.store.day.used + 1) } p narrative := by
  have w := returnWritten_written (j := j) (a := a) (state := state) (p := p) (narrative := narrative) up
  have stand := returnedDrawer_limitsStand s a.tender (s.store.day.used + 1)
  have store := cashMoved_store (n := a.fromDrawer) w stand
  have record : returnRecord s a p narrative = _ :=
    toDeltas_eq_signed a.tender ▸ transferRecord_signed s .transferReturn p a.fromDrawer a.toDrawer one_ne_zero a.tender
      narrative (some a.offerSeq)
  refine ⟨commitReturn_transfers j a state p narrative s, ?_, ?_, ?_⟩
  · rw [commitReturn_eq up]
    exact (congrArg Store.drawers store :)
  · rw [commitReturn_eq up, setApplied_jsu, (cashMoved_frame stand a.fromDrawer _).get .jsu (by decide), returnWritten,
      appendRecord_up _ up]
    rfl
  · have committed := cashMoved_committed (n := a.fromDrawer) w stand whole
    rw [← commitReturn_eq up, record, one_mul] at committed
    exact committed

/-- A return with its notice to the sender (R70 step 4, R71, R73). -/
theorem raise_commitReturn (e : TransferEvent) (b : Transfer) :
    raiseTransfer e b.fromDrawer b (commitReturn j a state p narrative s) = notified
      [(drawerMaster s b.fromDrawer, .transfer e b.number b.fromDrawer b.toDrawer)] (commitReturn j a state p narrative s) := by
  have frame := commitReturn_frame j a state p narrative s
  rw [raiseTransfer, raiseTo_up _ _ ((frame.get .power (by decide)).trans up), drawerMaster_congr frame (by decide) (by decide)]

end

/-! ### Requests that end a transfer (R68, R70) -/

theorem transferEndChecks_pass {h : ReqHead} {s : State} {j : Fin 8} {a : Transfer}
    (first : FirstWith s.store.transfers (fun b => b.number = a.number) j a) (offered : a.state = .offered)
    (may : MayActForDrawer h s a.toDrawer) : ∀ c ∈ transferEndChecks h a.number s, c.pass = true := by
  rw [transferEndChecks, transferSlot_first first]
  exact List.forall_mem_cons.mpr ⟨by simp [isOffered, offered], forDrawer_pass may⟩

theorem transferDeclineChecks_pass {h : ReqHead} {s : State} {j : Fin 8} {a : Transfer}
    (first : FirstWith s.store.transfers (fun b => b.number = a.number) j a) (offered : a.state = .offered)
    (may : MayActForDrawer h s a.toDrawer) (low : 1 ≤ a.number) (high : a.number ≤ 255) :
    ∀ c ∈ transferDeclineChecks h (.value a.number) s, c.pass = true := by
  refine List.forall_mem_cons.mpr ⟨?_, transferEndChecks_pass first offered may⟩
  simp [may.1, (inRange_value 1 255 a.number).mpr ⟨low, high⟩]

/-! ### The timeout (R71) -/

theorem timeoutTransfer_ends {s : State} {j : Fin 8} {a : Transfer}
    (first : FirstWith s.store.transfers (fun b => b.number = a.number) j a) (offered : a.state = .offered)
    (ends : a.remaining ≤ 1) : timeoutTransfer a.number s = returnTimedOut s (j, a) := by
  simp [timeoutTransfer, transferSlot_first first, isOffered, offered, ends]

theorem timeoutTransfer_leaves {s : State} {j : Fin 8} {a : Transfer}
    (first : FirstWith s.store.transfers (fun b => b.number = a.number) j a)
    (stays : a.state ≠ .offered ∨ 1 < a.remaining) : timeoutTransfer a.number s = s := by
  have : (isOffered a && decide (a.remaining ≤ 1)) = false := by
    simpa [isOffered, imp_iff_not_or] using stays
  simp [timeoutTransfer, transferSlot_first first, this]

theorem exec_transferTimeout {s : State} (up : s.power = .up) (number : Nat) : exec (.transferTimeout number) s =
    .next (unlessWaits [.tru, .dru] (timeoutTransfer number) s) := congrArg Host.Outcome.next (if_pos up)

end Sys2Proof.Machine

open Sys2Proof Sys2Proof.Machine

/-- Settles O38: a decline and a timeout are one commit, `commitReturn`, each with its own notice to the sender; the timeout
is had where both units are free, and finds nothing to do at a transfer that goes on or has ended. -/
theorem declinesAndTimeoutsReturnTheCash : Obligations.DeclinesAndTimeoutsReturnTheCash := by
  unfold Obligations.DeclinesAndTimeoutsReturnTheCash
  intro j a s first up
  have free : TakenAt s [.tru, .dru] ↔ UnitFree s .tru ∧ UnitFree s .dru := by
    simp [TakenAt, up]
  have command := exec_transferTimeout up a.number
  refine ⟨?declines, fun waits => ?_, ?returns, fun stays => ?_⟩
  case declines =>
    intro h i served whole may low high offered
    let u : State := commitReturn j a .declined (s.store.drawers.get a.toDrawer).bound 1 s
    let v : State := notified [(drawerMaster s a.fromDrawer, .transfer .declined a.number a.fromDrawer a.toDrawer)] u
    have taken : transferDeclineTaken (.value a.number) s = take v [numField a.number, numField (s.store.day.used + 1)] := by
      simp only [transferDeclineTaken, Fld.nat, Fld.getD, transferSlot_first first, raise_commitReturn up]
      rfl
    have frame : UnchangedBut [.journal, .day, .windows, .transfers, .drawers, .jsu, .buffers, .screens, .inExecution] s v := by
      have own := transferDecline_state_frame (.value a.number) s
      rwa [taken] at own
    have windows : v.port.windows = notify (returnNotices s a .declined) s.port.windows := by
      rw [returnNotices, notify_append, ← commitReturn_windows (j := j) (a := a) up]
      rfl
    exact ⟨_, exec_taken served rfl (restartNamed_none i rfl s) (transferDeclineChecks_pass first offered may low high) taken rfl,
      respond_unchangedBut frame h _ _ _ _ (by decide) (by decide), commitReturn_rendered (j := j) (a := a) up,
      commitReturn_returned up whole,
      answered_of_frame served frame (by simp [i, unitOf, requestKind]) (by decide) windows _ _ _ _⟩
  case returns =>
    intro offered ends whole tru dru
    let b : Transfer := { a with remaining := 0 }
    let v : State := notified [(drawerMaster s a.fromDrawer, .transfer .timedOut a.number a.fromDrawer a.toDrawer)]
      (commitReturn j b .returned none 2 s)
    have returned : timeoutTransfer a.number s = v :=
      (timeoutTransfer_ends first offered ends).trans (raise_commitReturn up .timedOut b)
    have frame := timeoutTransfer_frame a.number s
    rw [unlessWaits_taken _ (free.mpr ⟨tru, dru⟩), returned] at command
    rw [returned] at frame
    refine ⟨v, command, frame.mono (by decide), commitReturn_rendered (j := j) (a := b) up,
      commitReturn_returned (a := b) up whole, ?_⟩
    rw [returnNotices, notify_append]
    exact congrArg (notify _) (commitReturn_windows (j := j) (a := b) up)
  · rw [command, unlessWaits_waits _ (mt free.mp waits)]
  · rw [command, unlessWaits, timeoutTransfer_leaves first stays, ite_self]
end

section
/-! SUPPORT. TRANSFER.ACCEPT: its checks (R68), the acceptance as far as the receive, and the deliver that ends it (R5,
R69). -/

namespace Sys2Proof.Machine

/-! ### The receive (R5) -/

/-- The to-drawer's record after the receive, but for its mark. -/
def receivedDrawer (s : State) (k : Counts) (q : Nat) (d : Drawer) : Drawer :=
  { d with
    current := addCounts d.current k
    transfersIn := addMoney d.transfersIn fun c => valueOf s c k
    lastApplied := q }

theorem receivedDrawer_limitsStand (s : State) (k : Counts) (q : Nat) (d : Drawer) :
    LimitsStand d (receivedDrawer s k q d) := ⟨rfl, rfl, rfl, rfl, rfl⟩

theorem receiveCash_eq {s x : State} (h : x.store.currencies = s.store.currencies) (n : DrawerNo) (k : Counts) (q : Nat) :
    receiveCash n k q x = cashMoved n (receivedDrawer s k q) x := by
  simp only [receiveCash, valueOf_congr h]
  rfl

theorem receiveOver_eq_none {d : Drawer} {k : Counts}
    (h : ∀ x, 0 < k.get x → d.current.get x + k.get x + d.reserved.get x ≤ 65535) : receiveOver d k = none := by
  rw [receiveOver, List.find?_eq_none]
  intro x _ above
  obtain ⟨some', above⟩ := of_decide_eq_true above
  have := h x some'
  simp only [Config.countMax] at above
  omega

/-! ### The acceptance as far as the receive (R69) -/

/-- The record of an acceptance. -/
def acceptRecord (s : State) (a : Transfer) : Record :=
  transferRecord s .transferIn (s.store.drawers.get a.toDrawer).bound a.toDrawer a.fromDrawer (toDeltas a.tender) 0
    (some a.offerSeq)

/-- The record of an acceptance written, with the slot ACCEPTED, and its hold used up. -/
def acceptWritten (j : Fin 8) (a : Transfer) (s : State) : State :=
  dropHold (modifyTransfer j { a with state := .accepted, endSeq := some (s.store.day.used + 1) }
    (appendRecord (acceptRecord s a) s))

/-- The to-drawer's counts after the receive. -/
def receivedCounts (s : State) (a : Transfer) : Counts := addCounts (s.store.drawers.get a.toDrawer).current a.tender

/-- The deliver that is then due, with what the answer gives of the to-drawer. -/
def deliveryOf (h : ReqHead) (a : Transfer) (s : State) : Delivery :=
  ⟨h, a.number, s.store.day.used + 1, a.fromDrawer, a.toDrawer, a.tender, valueOf s 0 (receivedCounts s a),
    markAfter s a.toDrawer (receivedCounts s a)⟩

/-- The state an acceptance leaves: the receive made, the deliver asked and due. -/
def accepted (h : ReqHead) (j : Fin 8) (a : Transfer) (s : State) : State :=
  ask .deliver { commitAccept j a s with delivery := some (deliveryOf h a s) }

section
variable {h : ReqHead} {j : Fin 8} {a : Transfer} {s : State} (up : s.power = .up)
include up

theorem acceptWritten_written : RecordWritten (acceptRecord s a) s (acceptWritten j a s) :=
  ((recordWritten_append _ up).modifyTransfer j _).dropHold

theorem acceptWritten_store : (acceptWritten j a s).store = { (writeAppend (acceptRecord s a) s).store with
    transfers := s.store.transfers.set j (some { a with state := .accepted, endSeq := some (s.store.day.used + 1) }) } := by
  rw [acceptWritten, appendRecord_up _ up]
  rfl

theorem commitAccept_eq : commitAccept j a s =
    cashMoved a.toDrawer (receivedDrawer s a.tender (s.store.day.used + 1)) (acceptWritten j a s) := by
  rw [← receiveCash_eq (acceptWritten_written up).currencies]
  rfl

theorem commitAccept_store : (commitAccept j a s).store = { (writeAppend (acceptRecord s a) s).store with
    transfers := s.store.transfers.set j (some { a with state := .accepted, endSeq := some (s.store.day.used + 1) })
    drawers := s.store.drawers.set a.toDrawer
      (movedDrawer s a.toDrawer (receivedDrawer s a.tender (s.store.day.used + 1))) } := by
  rw [commitAccept_eq up, cashMoved_store (acceptWritten_written up) (receivedDrawer_limitsStand s a.tender _),
    acceptWritten_store up]

theorem commitAccept_jsu : (commitAccept j a s).jsu = { s.jsu with holds := s.jsu.holds - 1 } := by
  rw [commitAccept_eq up, (cashMoved_frame (receivedDrawer_limitsStand s a.tender _) a.toDrawer _).get .jsu (by decide),
    acceptWritten, appendRecord_up _ up]
  rfl

theorem commitAccept_windows : (commitAccept j a s).port.windows =
    notify (highNotice s ++ cashNotices s a.toDrawer (receivedCounts s a)) s.port.windows := by
  rw [commitAccept_eq up]
  exact cashMoved_windows (acceptWritten_written up) (receivedDrawer_limitsStand s a.tender _)

theorem commitAccept_rendered : Rendered s.scu (commitAccept j a s).scu := by
  rw [commitAccept_eq up]
  exact cashMoved_rendered (acceptWritten_written (j := j) up)

/-- An acceptance whose checks pass is not yet answered (R69). -/
theorem transferAcceptTaken_eq {l : Fld (List CashEntry)}
    (first : FirstWith s.store.transfers (fun b => b.number = a.number) j a) :
    transferAcceptTaken h ⟨.value a.number, l⟩ s = { take (accepted h j a s) [] with answered := false } := by
  have store := commitAccept_store (j := j) (a := a) up
  have drawer : (commitAccept j a s).store.drawers.get a.toDrawer =
      movedDrawer s a.toDrawer (receivedDrawer s a.tender (s.store.day.used + 1)) := by
    rw [store]; exact Table.get_set_self _ _ _
  have total (d : Drawer) : homeTotal (commitAccept j a s) d = homeTotal s d := homeTotal_congr (by rw [store]; rfl) d
  simp only [transferAcceptTaken, Fld.nat, Fld.getD, transferSlot_first first, drawer, total, isMarked]
  rfl

end

theorem accepted_frame (h : ReqHead) (j : Fin 8) (a : Transfer) (s : State) :
    UnchangedBut [.journal, .day, .windows, .transfers, .drawers, .jsu, .buffers, .screens, .delivery, .inExecution, .turns]
      s (accepted h j a s) :=
  ask_unchanged _ (by decide) (clearDelivery_unchanged _ (by decide) ((commitAccept_frame j a s).mono (by decide)))

/-! ### The request (R68) -/

/-- The Screen Unit once the idle count of the receiver has been restarted (R68). -/
def receiverScu (s : State) (n : DrawerNo) : Scu :=
  match (s.store.drawers.get n).bound with | some p => restartedScu s p | none => s.scu

theorem receiverScu_frame (s : State) (n : DrawerNo) :
    UnchangedBut [.screens, .idles] s { s with scu := receiverScu s n } := by
  unfold receiverScu
  cases (s.store.drawers.get n).bound with
  | none => exact .refl _ s
  | some p => exact restartedScu_frame p s

@[simp] theorem receiverScu_lockHeld (s : State) (n : DrawerNo) (p : Position) :
    ((receiverScu s n).screens.get p).lockHeld = (s.scu.screens.get p).lockHeld := by
  unfold receiverScu
  cases (s.store.drawers.get n).bound with
  | none => rfl
  | some q => exact restartedScu_lockHeld s q p

/-- The state in which an acceptance is judged. -/
def receiving (a : Transfer) (s : State) : State := { s with scu := receiverScu s a.toDrawer }

theorem restartReceiver_eq {s : State} {j : Fin 8} {a : Transfer}
    (first : FirstWith s.store.transfers (fun b => b.number = a.number) j a) :
    restartReceiver (.value a.number) s = receiving a s := by
  simp only [restartReceiver, Fld.nat, Fld.getD, transferSlot_first first, Option.bind_some, boundPosition, receiving,
    receiverScu]
  cases (s.store.drawers.get a.toDrawer).bound with
  | none => rfl
  | some p => exact restartIdle_eq p s

/-- The acceptance in service, judged on the state with the receiver's idle count restarted. -/
theorem exec_transferAccept {h : ReqHead} {j : Fin 8} {a : Transfer} {l : Fld (List CashEntry)} {s : State}
    (served : InService h (.transferAccept h ⟨.value a.number, l⟩) s)
    (first : FirstWith s.store.transfers (fun b => b.number = a.number) j a) :
    exec (.transferAccept h ⟨.value a.number, l⟩) s = .next (settle h (.transferAccept h ⟨.value a.number, l⟩)
      (acceptBody h ⟨.value a.number, l⟩ (receiving a s))) := by
  refine congrArg Host.Outcome.next ((carry_inService served _).trans ?_)
  rw [restartNamed_none _ rfl, restartReceiver_eq first]

/-- What R68 asks before it compares the tender counted with the one offered. -/
structure MayAccept (h : ReqHead) (a : Transfer) (l : List CashEntry) (s : State) : Prop where
  low : 1 ≤ a.number
  high : a.number ≤ 255
  offered : a.state = .offered
  act : MayActForDrawer h s a.toDrawer
  tender : TenderOk s l
  unlocked : ∀ p, (s.store.drawers.get a.toDrawer).bound = some p → (s.scu.screens.get p).lockHeld = false

theorem MayAccept.receiving {h : ReqHead} {a : Transfer} {l : List CashEntry} {s : State} (may : MayAccept h a l s) :
    MayAccept h a l (receiving a s) where
  low := may.low
  high := may.high
  offered := may.offered
  act := may.act
  tender := may.tender
  unlocked p bound := (receiverScu_lockHeld s a.toDrawer p).trans (may.unlocked p bound)

section
variable {h : ReqHead} {s : State} {j : Fin 8} {a : Transfer} {l : List CashEntry} (may : MayAccept h a l s)
  (first : FirstWith s.store.transfers (fun b => b.number = a.number) j a)
include may first

/-- With what is asked before passed, an acceptance fails by the checks from the comparison of the tenders on. -/
theorem firstFailure_accept : firstFailure (transferAcceptChecks h ⟨.value a.number, .value l⟩ s) = firstFailure
    [⟨summedCounts l == a.tender, .tenderMismatch, mismatchDetail s (summedCounts l) a.tender⟩,
      ⟨!isSettled s a.toDrawer, .wrongState, []⟩, ⟨!isMarked s a.toDrawer, .excessRestricted, []⟩,
      ⟨(receiveOver (s.store.drawers.get a.toDrawer) a.tender).isNone, .countLimit, []⟩] := by
  have fields : (!h.spare && inRange 1 255 (.value a.number) && (lengthOk l && l.all (cashEntryOk s))) = true := by
    rw [may.act.1, (inRange_value 1 255 a.number).mpr ⟨may.low, may.high⟩, tenderOk_given may.tender]
    rfl
  have listed : ((Fld.value l).required fun l => lengthOk l && l.all (cashEntryOk s)) =
    (lengthOk l && l.all (cashEntryOk s)) := rfl
  have ends := firstFailure_eq_none.mpr (transferEndChecks_pass first may.offered may.act)
  have unlocked : receiverUnlocked s a.toDrawer = true := by
    rw [receiverUnlocked, boundPosition]
    cases bound : (s.store.drawers.get a.toDrawer).bound with
    | none => rfl
    | some p => simp [isLocked, may.unlocked p bound]
  simp only [transferAcceptChecks, Fld.nat, Fld.getD, transferSlot_first first, firstFailure_append, firstFailure_cons,
    listed, fields, ends, unlocked, firstFailure_nil, if_true, Option.none_or]

theorem accept_mismatch (differs : summedCounts l ≠ a.tender) :
    firstFailure (transferAcceptChecks h ⟨.value a.number, .value l⟩ s) =
      some ⟨summedCounts l == a.tender, .tenderMismatch, mismatchDetail s (summedCounts l) a.tender⟩ := by
  rw [firstFailure_accept may first, firstFailure_cons, if_neg (by simpa using differs)]

theorem accept_passes (agrees : summedCounts l = a.tender) (settled : ¬Settled s a.toDrawer)
    (unmarked : (s.store.drawers.get a.toDrawer).excess = false)
    (room : ∀ x, 0 < a.tender.get x → (s.store.drawers.get a.toDrawer).current.get x + a.tender.get x +
      (s.store.drawers.get a.toDrawer).reserved.get x ≤ 65535) :
    firstFailure (transferAcceptChecks h ⟨.value a.number, .value l⟩ s) = none := by
  rw [firstFailure_accept may first, firstFailure_eq_none]
  simp [agrees, isSettled_eq_false settled, isMarked, unmarked, receiveOver_eq_none room]

end

end Sys2Proof.Machine
end

section
/-! SUPPORT. The deliver that ends an acceptance: when its turn has come (R29), and what it does (R5, R15, R69). -/

namespace Sys2Proof.Machine

/-! ### Its turn (R29) -/

/-- What waits behind the operations listed is what waits behind them where they are all that is asked. -/
theorem waitsAt_ahead {units : List UnitName} {ahead : List Asked} {s : State} :
    waitsAt units ahead s = false ↔ TakenAt (setOrder ahead s) units :=
  waitsAt_eq_false (s := setOrder ahead s)

/-- An acceptance whose request stood behind the operations asked in `s` is in progress: its deliver is due, asked after
those, and `later` after it. -/
structure InProgress (s : State) (d : Delivery) (later : List Asked) (y : State) : Prop where
  up : y.power = .up
  due : y.delivery = some d
  order : y.port.order = s.port.order ++ .deliver :: later
  inExecution : y.port.inExecution = s.port.inExecution
  once : .deliver ∉ s.port.order

section
variable {s y : State} {d : Delivery} {later : List Asked} (p : InProgress s d later y)
include p

theorem InProgress.before : askedBefore .deliver y = s.port.order := by
  have others : ∀ x ∈ s.port.order, (x != .deliver) = true := fun x hx => by
    simpa using fun e : x = .deliver => p.once (e ▸ hx)
  rw [askedBefore, p.order, List.takeWhile_append_of_pos others]
  simp

theorem InProgress.turn : waitsAt [.dru] (askedBefore .deliver y) y = false ↔ UnitFree s .dru := by
  rw [p.before, waitsAt_ahead]
  have here : (setOrder s.port.order y).port.inExecution = s.port.inExecution := p.inExecution
  simp [TakenAt, p.up, UnitFree, NoneStandsAt, standsAt_congr here]

theorem InProgress.exec_waits (busy : ¬UnitFree s .dru) : exec .deliver y = .next y := by
  have waits : waitsAt [.dru] (askedBefore .deliver y) y = true := by rwa [← Bool.not_eq_false, p.turn]
  exact congrArg Host.Outcome.next ((if_pos p.up).trans (deliver_waits waits))

theorem InProgress.exec_made (free : UnitFree s .dru) :
    exec .deliver y = .next (takeWaiting (finishDelivery y)) :=
  congrArg Host.Outcome.next ((if_pos p.up).trans (deliver_taken (by rw [p.due]; rfl) (p.turn.mpr free)))

/-- The second tick, a timeout and whatever else is asked of the Transfer Unit find it taken (R67, R72). -/
theorem InProgress.tru_busy : ¬UnitFree y .tru := fun free => by
  have none := free.2 rfl
  rw [p.due] at none
  cases none

theorem InProgress.timeout_waits (number : Nat) : exec (.transferTimeout number) y = .next y := by
  rw [exec_transferTimeout p.up, unlessWaits_waits]
  exact fun taken => p.tru_busy (taken p.up _ (by simp))

end

/-! ### What it does (R69) -/

/-- The deliver made and the record marked, the answer not yet placed. -/
def delivered (d : Delivery) (y : State) : State :=
  setApplied d.sequence .none (deliverCash d.fromDrawer d.tender d.sequence
    (setOrder (y.port.order.erase .deliver) { y with delivery := none }))

section
variable (d : Delivery) (y : State)

theorem delivered_transfers : (delivered d y).store.transfers = y.store.transfers := rfl
theorem delivered_drawers : (delivered d y).store.drawers = y.store.drawers.set d.fromDrawer
    { y.store.drawers.get d.fromDrawer with
      reserved := subCounts (y.store.drawers.get d.fromDrawer).reserved d.tender
      lastApplied := max (y.store.drawers.get d.fromDrawer).lastApplied d.sequence } := rfl
theorem delivered_used : (delivered d y).store.day.used = y.store.day.used := rfl
theorem delivered_jsu : (delivered d y).jsu = y.jsu := rfl
theorem delivered_scu : (delivered d y).scu = y.scu := rfl
theorem delivered_power : (delivered d y).power = y.power := rfl
theorem delivered_delivery : (delivered d y).delivery = none := rfl
theorem delivered_inExecution : (delivered d y).port.inExecution = y.port.inExecution := rfl
theorem delivered_windows : (delivered d y).port.windows = y.port.windows := rfl

end

/-- The record that the deliver marks stands committed (R86). -/
theorem delivered_committed {d : Delivery} {r : Record} {s y : State} (whole : JournalWhole s)
    (sequence : d.sequence = s.store.day.used + 1) (journal : y.store.journal = (writeAppend r s).store.journal)
    (day : y.store.day = (writeAppend r s).store.day) : Committed r .none s (delivered d y) := by
  rw [delivered, sequence]
  exact setApplied_committed whole journal day

/-- The fields of the answer, with the home total as the day state lets the master know it (R15). -/
def deliveryFields (s : State) (d : Delivery) : List (Option (List Item)) :=
  [some [.num d.number], some [.num d.sequence],
    if d.head.master ≠ officerMaster ∧ s.store.day.state = .closing then none else some [.amount d.total],
    some [.flag d.excess]]

theorem finishDelivery_eq {d : Delivery} {y : State} (due : y.delivery = some d) (other : d.fromDrawer ≠ d.toDrawer)
    (open' : (y.store.drawers.get d.toDrawer).state ≠ .closed) :
    finishDelivery y = respond d.head 65 .done true (deliveryFields y d) (delivered d y) := by
  have still : ((delivered d y).store.drawers.get d.toDrawer).state ≠ .closed := by
    rwa [show (delivered d y).store.drawers.get d.toDrawer = y.store.drawers.get d.toDrawer from
      Table.get_set_ne _ _ other]
  have closing : blind (delivered d y) d.toDrawer = true ↔ y.store.day.state = .closing := by
    simp only [blind, Bool.and_eq_true, beq_iff_eq, bne_iff_ne, still, ne_eq, not_false_eq_true, and_true]
    rfl
  have told : (disclosed (delivered d y) d.head.master d.toDrawer d.total).map (fun t => [Item.amount t]) =
      if d.head.master ≠ officerMaster ∧ y.store.day.state = .closing then none else some [.amount d.total] := by
    simp only [disclosed, Bool.and_eq_true, decide_eq_true_eq, closing]
    split <;> rfl
  rw [deliveryFields, ← told]
  simp only [finishDelivery, due]
  rfl

theorem InProgress.delivered_order {s y : State} {d : Delivery} {later : List Asked} (p : InProgress s d later y) :
    (delivered d y).port.order = s.port.order ++ later := by
  change y.port.order.erase .deliver = _
  rw [p.order, List.erase_append_right _ p.once]
  simp

end Sys2Proof.Machine
end

section
/-! SUPPORT. A second tick that comes while an acceptance is in progress: it waits behind the deliver, and is taken when the
acceptance has ended (R67, R71, R72). -/

namespace Sys2Proof.Machine

/-! ### Taking what waits, one place after another -/

/-- Where an operation that does not take itself stands, or one whose turn has not come, the next is looked at. -/
theorem takeFrom_passes {fuel k : Nat} {x : Asked} {s : State} (here : s.port.order[k]? = some x)
    (stays : takesItself x = false ∨ ¬TakenAt (setOrder (s.port.order.take k) s) (unitsAsked x s)) :
    takeFrom (fuel + 1) k s = takeFrom fuel (k + 1) s := by
  rw [takeFrom, here]
  refine if_neg fun h => ?_
  simp only [Bool.and_eq_true, Bool.not_eq_true', waitsAt_ahead] at h
  rcases stays with own | waits
  · simp [own] at h
  · exact waits h.2

/-- An operation whose turn has come is taken. -/
theorem takeFrom_takes {fuel k : Nat} {x : Asked} {s : State} (here : s.port.order[k]? = some x)
    (itself : takesItself x = true) (turn : TakenAt (setOrder (s.port.order.take k) s) (unitsAsked x s)) :
    takeFrom (fuel + 1) k s = takeFrom fuel k (askedEffect x (setOrder (s.port.order.eraseIdx k) s)) := by
  rw [takeFrom, here]
  refine if_pos ?_
  simp only [Bool.and_eq_true, Bool.not_eq_true', waitsAt_ahead]
  exact ⟨itself, turn⟩

/-- Operations that do not take themselves are passed. -/
theorem takeFrom_passes_all {before mid after : List Asked} {fuel : Nat} {s : State}
    (order : s.port.order = before ++ mid ++ after) (own : ∀ x ∈ mid, takesItself x = false) :
    takeFrom (mid.length + fuel) before.length s = takeFrom fuel (before ++ mid).length s := by
  induction mid generalizing before with
  | nil => simp
  | cons x mid ih =>
    obtain ⟨first, rest⟩ := List.forall_mem_cons.mp own
    have here : s.port.order[before.length]? = some x := by simp [order]
    rw [List.length_cons, Nat.add_right_comm, takeFrom_passes here (.inl first)]
    have next := ih (before := before ++ [x]) (by simpa using order) rest
    simpa using next

/-! ### What can be asked around a tick of the Transfer Unit and leaves its table alone -/

/-- An operation asked that, taken from the order of its own accord, leaves the transfer table. -/
def LeavesTransfers (x : Asked) : Prop := takesItself x = false ∨ (∃ l, x = .report l) ∨ ∃ u, u ≠ .tru ∧ x = .tick u

theorem not_leavesTransfers_tick : ¬LeavesTransfers (.tick .tru) := by
  rintro (own | ⟨l, e⟩ | ⟨u, other, e⟩)
  · cases own
  · cases e
  · exact other (Asked.tick.inj e).symm

/-- The parts that a tick at a unit other than the Transfer Unit can touch. -/
theorem tickEffect_other {u : UnitName} (other : u ≠ .tru) (s : State) :
    UnchangedBut [.exu, .windows, .buffers, .screens, .locks, .idles, .sender, .out, .day, .fault, .inExecution] s
      (tickEffect u s) := by
  cases u
  case tru => exact absurd rfl other
  case exu => exact (tickExu_frame s).mono (by decide)
  case scu => exact (tickScu_frame s).mono (by decide)
  case dlu => exact .ite _ ((tickDlu_frame s).mono (by decide)) (.refl _ s)
  all_goals exact .refl _ s

theorem tickEffect_transfers {u : UnitName} (other : u ≠ .tru) (s : State) :
    (tickEffect u s).store.transfers = s.store.transfers := (tickEffect_other other s).get .transfers (by decide)

theorem beside_of_not_report (x : Asked) : (∀ l, x ≠ .report l) → (!x matches .report _) = true := by
  intro h
  cases x
  case report l => exact absurd rfl (h l)
  all_goals rfl

/-- What a tick asks besides is source reports. -/
theorem tickEffect_order {u : UnitName} {s : State} {x : Asked} (hx : x ∈ (tickEffect u s).port.order) :
    x ∈ s.port.order ∨ ∃ l, x = .report l := by
  by_cases report : ∃ l, x = .report l
  · exact .inr report
  · have asked : x ∈ askedBesideReports (tickEffect u s) :=
      List.mem_filter.mpr ⟨hx, beside_of_not_report x fun l e => report ⟨l, e⟩⟩
    rw [(tickEffect_turns u s).2.1] at asked
    exact .inl (List.mem_filter.mp asked).1

theorem tickEffect_leavesTransfers {u : UnitName} {s : State} (h : ∀ x ∈ s.port.order, LeavesTransfers x) :
    ∀ x ∈ (tickEffect u s).port.order, LeavesTransfers x := fun x hx => by
  rcases tickEffect_order hx with old | report
  · exact h x old
  · exact .inr (.inl report)

/-- Taking such operations leaves the transfer table, and only such are left. -/
theorem takeFrom_leavesTransfers (fuel : Nat) : ∀ (k : Nat) (s : State), (∀ x ∈ s.port.order, LeavesTransfers x) →
    (takeFrom fuel k s).store.transfers = s.store.transfers ∧
      ∀ x ∈ (takeFrom fuel k s).port.order, LeavesTransfers x := by
  induction fuel with
  | zero => exact fun _ _ h => ⟨rfl, h⟩
  | succ fuel ih =>
    intro k s h
    cases here : s.port.order[k]? with
    | none => rw [takeFrom, here]; exact ⟨rfl, h⟩
    | some x =>
      by_cases taken : takesItself x = true ∧ TakenAt (setOrder (s.port.order.take k) s) (unitsAsked x s)
      · rw [takeFrom_takes here taken.1 taken.2]
        let u : State := setOrder (s.port.order.eraseIdx k) s
        have left : ∀ x ∈ u.port.order, LeavesTransfers x := fun x hx => h x (List.mem_of_mem_eraseIdx hx)
        rcases h x (List.mem_of_getElem? here) with own | ⟨l, rfl⟩ | ⟨v, other, rfl⟩
        · rw [own] at taken
          cases taken.1
        · exact ih k (takeReports l u) left
        · obtain ⟨transfers, order⟩ := ih k (tickEffect v u) (tickEffect_leavesTransfers left)
          exact ⟨transfers.trans (tickEffect_transfers other u), order⟩
      · rw [takeFrom_passes here ((not_and_or.mp taken).imp_left Bool.eq_false_of_not_eq_true)]
        exact ih (k + 1) s h

end Sys2Proof.Machine
end

section
/-! SUPPORT. The second tick around an acceptance: what it leaves asked while the acceptance is in progress, and how the
Transfer Unit takes it afterwards (R67, R71). -/

namespace Sys2Proof.Machine

/-! ### The tick while the acceptance is in progress -/

theorem serveTick_inExecution (v : UnitName) (s : State) :
    (serve (.tick v) s).port.inExecution = s.port.inExecution := by
  rcases serve_cases (.tick v) s with h | h <;> rw [h]
  · exact (tickEffect_turns v s).1
  · rfl

/-- With nothing standing at the Screen Unit a tick served at another unit is taken, or waits at the end. -/
theorem serveTick_asks {v : UnitName} (other : v ≠ .scu) {s : State} (free : NoneStandsAt s .scu) :
    NoneStandsAt (serve (.tick v) s) .scu ∧ ∃ l, (serve (.tick v) s).port.order = s.port.order ++ l ∧
      (l = [] ∨ l = [.tick v] ∧ ¬TakesTick s v) := by
  by_cases taken : TakesTick s v
  · obtain ⟨order, free⟩ := serveTick_order taken free
    exact ⟨free, [], by simp [order], .inl rfl⟩
  · rw [serveTick_waits taken]
    refine ⟨fun x hx => ?_, [.tick v], rfl, .inr ⟨rfl, taken⟩⟩
    rcases List.mem_append.mp hx with old | new
    · exact free x old
    · obtain rfl := List.mem_singleton.mp new
      simpa [standsAt] using other

/-- The tick leaves the acceptance in progress; the Transfer Unit's part waits behind the deliver, the Exchange Unit's before
it where that unit is not free. -/
theorem allTicked_inProgress {s t : State} {d : Delivery} (p : InProgress s d [] t) (free : NoneStandsAt t .scu) :
    ∃ l k, InProgress s d (l ++ .tick .tru :: k) (allTicked t) ∧
      (l = [] ∨ l = [.tick .exu] ∧ ¬UnitFree t .exu) ∧ (k = [] ∨ k = [.tick .dlu]) := by
  have waits : ¬TakesTick t .tru := fun h => p.tru_busy (h p.up).1
  have scu : TakesTick (truTicked t) .scu := (takesTick_scu t).mpr fun _ =>
    (tickTaken_iff (by decide) (by decide) t).mpr ⟨free, fun e => nomatch e⟩
  obtain ⟨exuFree, l, exuOrder, exu⟩ := serveTick_asks (v := .exu) (by decide) (s := clockTicked t) free
  have truFree : NoneStandsAt (truTicked t) .scu := (serveTick_asks (by decide) exuFree).1
  have truOrder : (truTicked t).port.order = (exuTicked t).port.order ++ [.tick .tru] := by
    rw [truTicked_waits waits]; rfl
  obtain ⟨scuOrder, scuFree⟩ := serveTick_order scu truFree
  obtain ⟨-, k, dluOrder, dlu⟩ := serveTick_asks (v := .dlu) (by decide) scuFree
  have inExecution : (allTicked t).port.inExecution = t.port.inExecution :=
    (serveTick_inExecution .dlu _).trans ((serveTick_inExecution .scu _).trans
      ((serveTick_inExecution .tru _).trans (serveTick_inExecution .exu _)))
  have order : (allTicked t).port.order = t.port.order ++ l ++ [.tick .tru] ++ k := by
    have exuOrder : (exuTicked t).port.order = t.port.order ++ l := exuOrder
    refine dluOrder.trans (congrArg (· ++ k) (scuOrder.trans ?_))
    rw [truOrder, exuOrder]
  refine ⟨l, k, ⟨?_, ?_, ?_, inExecution.trans p.inExecution, p.once⟩, exu.imp_right (And.imp_right fun busy free => ?_),
    dlu.imp_right And.left⟩
  · exact ((allTicked_parts t).get .power (by decide)).trans p.up
  · exact ((allTicked_parts t).get .delivery (by decide)).trans p.due
  · simp [order, p.order]
  · exact busy ((takesTick_exu t).mpr fun _ => (tickTaken_iff (by decide) (by decide) t).mpr free)

/-! ### The tick appends no record where the Transfer Unit does not take it -/

/-- As many records stand in the journal. -/
abbrev SameUsed (s t : State) : Prop := t.store.day.used = s.store.day.used

theorem SenderStopped.sameUsed {s t : State} {reason : SendFailure} {kind : FaultKind} {source : UnitName}
    {items : List Item} (h : SenderStopped s t reason kind source items) : SameUsed s t := by
  obtain ⟨-, -, -, -, day, -⟩ := h
  exact (congrArg DayRecord.used day :)

theorem BlocksSent.sameUsed {s t : State} {blocks : List Nat} (h : BlocksSent s t blocks) : SameUsed s t := by
  unfold BlocksSent at h
  split at h
  · rw [h]
  · exact (SenderStopped.sameUsed h :)

theorem Retried.sameUsed {s t : State} {b : OutBlock} (h : Retried s t b) : SameUsed s t := by
  unfold Retried at h
  dsimp only at h
  split at h
  · exact SenderStopped.sameUsed h
  · exact (BlocksSent.sameUsed h :)

/-- A second at the sender appends no record. -/
theorem SenderTicks.sameUsed {s t : State} (h : SenderTicks s t) : SameUsed s t := by
  have sent {f : Frame} {x : Sender} (h : FrameSent s t f x) : SameUsed s t := by rw [h]
  unfold SenderTicks at h
  dsimp only at h
  split at h
  case h_1 =>
    obtain ⟨due, waits⟩ := h
    cases wait : s.sender.wait with
    | none => exact sent (due wait)
    | some n =>
      have counted := waits (by rw [wait]; rfl)
      rw [wait] at counted
      dsimp only at counted
      split at counted
      · exact sent counted
      · rw [counted]
  case h_2 | h_3 =>
    split at h
    · split at h
      · split at h
        · exact sent h
        · exact SenderStopped.sameUsed h
      · rw [h]
    · rw [h]
  case h_4 =>
    split at h
    · split at h
      · exact (Retried.sameUsed h :)
      · rw [h]
    · rw [h]
  case h_5 => rw [h]

/-- While an acceptance is in progress the tick appends no record: the Transfer Unit's part of it waits. -/
theorem allTicked_sameUsed {t : State} (up : t.power = .up) (waits : ¬TakesTick t .tru) : SameUsed t (allTicked t) := by
  have earlier : SameUsed t (scuTicked t) := by
    have later : (scuTicked t).store.day = (truTicked t).store.day := (scuTicked_frame t).get .day (by decide)
    rw [SameUsed, later, truTicked_waits waits, ask_store, exuTicked_store]
  have sender := allTicked_sender up
  by_cases taken : TickTaken (scuTicked t) .dlu
  · exact (SenderTicks.sameUsed (sender.1 taken)).trans earlier
  · rw [SameUsed, sender.2 taken]
    exact earlier

/-! ### The tick after the acceptance -/

/-- Behind operations that do not take themselves, and a tick of the Exchange Unit that still waits, the Transfer Unit's tick
is taken; what is then taken behind it leaves the transfer table. -/
theorem takeWaiting_tick {s : State} {before l later : List Asked} (up : s.power = .up)
    (order : s.port.order = before ++ l ++ .tick .tru :: later) (own : ∀ x ∈ before, takesItself x = false)
    (exu : l = [] ∨ l = [.tick .exu] ∧ ¬UnitFree (setOrder before s) .exu)
    (rest : later = [] ∨ later = [.tick .dlu])
    (tru : UnitFree (setOrder (before ++ l) s) .tru) (dru : UnitFree (setOrder (before ++ l) s) .dru) :
    (takeWaiting s).store.transfers = (countTransfers (setOrder (before ++ l ++ later) s)).store.transfers ∧
      .tick .tru ∉ (takeWaiting s).port.order := by
  let u : State := setOrder (before ++ l ++ later) s
  have length : s.port.order.length + 1 = before.length + (l.length + ((later.length + 1) + 1)) := by
    simp [order]; omega
  have passed : takeFrom (l.length + ((later.length + 1) + 1)) before.length s =
      takeFrom ((later.length + 1) + 1) (before ++ l).length s := by
    rcases exu with rfl | ⟨rfl, busy⟩
    · simp
    · have here : s.port.order[before.length]? = some (.tick .exu) := by simp [order]
      rw [List.length_singleton, Nat.add_comm 1, takeFrom_passes here (.inr fun turn => ?_)]
      · simp
      · have behind : s.port.order.take before.length = before := by simp [order]
        rw [behind] at turn
        exact busy (turn up .exu (by simp [unitsAsked, standsAt]))
  have taken : takeFrom ((later.length + 1) + 1) (before ++ l).length s =
      takeFrom (later.length + 1) (before ++ l).length (tickEffect .tru u) := by
    have here : s.port.order[(before ++ l).length]? = some (.tick .tru) := by rw [order]; simp
    have behind : s.port.order.take (before ++ l).length = before ++ l := by
      rw [order, List.take_left]
    have left : s.port.order.eraseIdx (before ++ l).length = before ++ l ++ later := by
      rw [order, List.eraseIdx_append_of_length_le (Nat.le_refl _)]; simp
    have turn : TakenAt (setOrder (before ++ l) s) (unitsAsked (.tick .tru) s) := fun _ v hv => by
      simp only [unitsAsked] at hv
      split at hv <;> simp only [List.mem_cons, List.not_mem_nil, or_false] at hv
      · rcases hv with rfl | rfl
        · exact tru
        · exact dru
      · exact hv ▸ tru
    rw [takeFrom_takes here rfl (by rwa [behind]), left]
    rfl
  have leaves : ∀ x ∈ u.port.order, LeavesTransfers x := by
    have ticks (v : UnitName) (hv : v ≠ .tru) : LeavesTransfers (.tick v) := .inr (.inr ⟨v, hv, rfl⟩)
    have exus : ∀ x ∈ l, LeavesTransfers x := by
      rcases exu with rfl | ⟨rfl, -⟩
      · simp
      · simpa using ticks .exu (by decide)
    have dlus : ∀ x ∈ later, LeavesTransfers x := by
      rcases rest with rfl | rfl
      · simp
      · simpa using ticks .dlu (by decide)
    simp only [u, setOrder_port_order, List.forall_mem_append]
    exact ⟨⟨fun x hx => .inl (own x hx), exus⟩, dlus⟩
  have start := takeFrom_passes_all (before := []) (after := l ++ .tick .tru :: later)
    (fuel := l.length + ((later.length + 1) + 1)) (by simpa using order) own
  have whole : takeWaiting s = takeFrom (later.length + 1) (before ++ l).length (tickEffect .tru u) := by
    rw [takeWaiting, length, ← taken, ← passed]
    exact start
  have effect : tickEffect .tru u = countTransfers u := if_pos up
  obtain ⟨transfers, asked⟩ := takeFrom_leavesTransfers (later.length + 1) (before ++ l).length (tickEffect .tru u)
    (tickEffect_leavesTransfers leaves)
  rw [whole]
  exact ⟨transfers.trans (congrArg (fun x => x.store.transfers) effect), fun h => not_leavesTransfers_tick (asked _ h)⟩

end Sys2Proof.Machine
end

section
/-! SUPPORT. An acceptance in service, the deliver that ends it, and the tick between them (R67 to R72). -/

namespace Sys2Proof.Machine

/-- A part that stands need not be listed. -/
theorem UnchangedBut.without {L : List Part} {p : Part} {s t : State} (h : UnchangedBut (p :: L) s t) (same : p.same s t) :
    UnchangedBut L s t := fun q hq => by
  by_cases e : q = p
  · exact e ▸ same
  · exact h q fun m => (List.mem_cons.mp m).elim e hq

/-! ### The request in service -/

section
variable {h : ReqHead} {r : AcceptReq} {s : State} (served : InService h (.transferAccept h r) s)
include served

/-- An acceptance in service finds no other in progress (R67). -/
theorem InService.noDelivery : s.delivery = none := by
  have turn : TakenAt (setOrder (askedBefore (.request h.master) s) s) (turnsAt (.transferAccept h r)) :=
    waitsAt_ahead.mp served.turn
  exact (turn served.up .tru (by simp [turnsAt, unitOf, requestKind])).2 rfl

/-- An acceptance leaves itself in progress, its deliver the last operation asked. -/
theorem accepted_inProgress (j : Fin 8) (a : Transfer) (once : .deliver ∉ s.port.order) :
    InProgress s (deliveryOf h a s) [] (accepted h j a (receiving a s)) := by
  have frame := commitAccept_frame j a (receiving a s)
  obtain ⟨inExecution, -, order⟩ := frame.get .turns (by decide)
  have free : NoneStandsAt (receiving a s) .scu := served.screenFree (by simp [unitOf, requestKind])
  refine ⟨(frame.get .power (by decide)).trans served.up, rfl, ?_, inExecution, once⟩
  rw [accepted, ask_port_order]
  exact congrArg (· ++ [Asked.deliver]) (order free)

/-- Only the acceptance itself stands at the Transfer Unit for it, and its deliver at the Drawer Unit: the Screen Unit is
free. -/
theorem InProgress.screenFree {t : State} {d : Delivery} (p : InProgress s d [] t) : NoneStandsAt t .scu := by
  have free := served.screenFree (by simp [unitOf, requestKind])
  simp only [NoneStandsAt, p.order, standsAt_congr p.inExecution, List.forall_mem_append, List.forall_mem_singleton]
  exact ⟨free, by simp [standsAt]⟩

end

/-! ### The deliver with nothing asked after it -/

section
variable {s y : State} {d : Delivery}

theorem InProgress.exec_ended (p : InProgress s d [] y) (free : UnitFree s .dru) (other : d.fromDrawer ≠ d.toDrawer)
    (open' : (y.store.drawers.get d.toDrawer).state ≠ .closed) (quiet : NothingWaits s) :
    exec .deliver y = .next (respond d.head 65 .done true (deliveryFields y d) (delivered d y)) := by
  rw [p.exec_made free, finishDelivery_eq p.due other open', takeWaiting_quiet]
  intro x hx
  rw [respond_port_order, p.delivered_order, List.append_nil] at hx
  exact quiet x (List.mem_of_mem_erase hx)

end

/-! ### What the acceptance with its deliver leaves -/

/-- The acceptance answered: the state after the deliver. -/
def ended (h : ReqHead) (j : Fin 8) (a : Transfer) (s : State) : State :=
  respond h 65 .done true (deliveryFields (accepted h j a (receiving a s)) (deliveryOf h a s))
    (delivered (deliveryOf h a s) (accepted h j a (receiving a s)))

section
variable {h : ReqHead} {j : Fin 8} {a : Transfer} {s : State} (up : s.power = .up)
include up

theorem accepted_store : (accepted h j a (receiving a s)).store = { (writeAppend (acceptRecord s a) s).store with
    transfers := s.store.transfers.set j (some { a with state := .accepted, endSeq := some (s.store.day.used + 1) })
    drawers := s.store.drawers.set a.toDrawer
      (movedDrawer s a.toDrawer (receivedDrawer s a.tender (s.store.day.used + 1))) } :=
  commitAccept_store (s := receiving a s) up

theorem accepted_windows : (accepted h j a (receiving a s)).port.windows =
    notify (highNotice s ++ cashNotices s a.toDrawer (receivedCounts s a)) s.port.windows :=
  commitAccept_windows (s := receiving a s) up

theorem accepted_toDrawer_state : ((accepted h j a (receiving a s)).store.drawers.get a.toDrawer).state =
    (s.store.drawers.get a.toDrawer).state := by
  rw [accepted_store up, Table.get_set_self]
  rfl

/-- The receive leaves the from-drawer's record. -/
theorem accepted_fromDrawer (other : a.fromDrawer ≠ a.toDrawer) :
    (accepted h j a (receiving a s)).store.drawers.get a.fromDrawer = s.store.drawers.get a.fromDrawer := by
  rw [accepted_store up]
  exact Table.get_set_ne _ _ other.symm

theorem ended_transfers : (ended h j a s).store.transfers =
    s.store.transfers.set j (some { a with state := .accepted, endSeq := some (s.store.day.used + 1) }) := by
  rw [ended, respond_store, delivered_transfers, accepted_store up]

theorem ended_drawers (other : a.fromDrawer ≠ a.toDrawer) : (ended h j a s).store.drawers =
    (s.store.drawers.set a.toDrawer (movedDrawer s a.toDrawer (receivedDrawer s a.tender (s.store.day.used + 1)))).set
      a.fromDrawer { s.store.drawers.get a.fromDrawer with
        reserved := subCounts (s.store.drawers.get a.fromDrawer).reserved a.tender
        lastApplied := max (s.store.drawers.get a.fromDrawer).lastApplied (s.store.day.used + 1) } := by
  rw [ended, respond_store, delivered_drawers, show (deliveryOf h a s).fromDrawer = a.fromDrawer from rfl,
    accepted_fromDrawer up other, accepted_store up]
  rfl

theorem ended_jsu : (ended h j a s).jsu = { s.jsu with holds := s.jsu.holds - 1 } := by
  rw [ended, respond_jsu, delivered_jsu]
  exact commitAccept_jsu (s := receiving a s) up

theorem ended_rendered : Rendered (receiverScu s a.toDrawer) (ended h j a s).scu := by
  rw [ended, respond_scu, delivered_scu]
  exact commitAccept_rendered (j := j) (s := receiving a s) up

theorem ended_committed (whole : JournalWhole s) : Committed { emptyRecord .transferIn with
    position := (s.store.drawers.get a.toDrawer).bound
    teller := (s.store.drawers.get a.toDrawer).bound.bind fun p => (s.store.positions.get p).teller
    drawer := some a.toDrawer
    second := some a.fromDrawer
    homeAmount := some (valueOf s 0 a.tender)
    tender := signedEntries 1 a.tender
    narrative := some 0
    reverses := some a.offerSeq } .none s (ended h j a s) := by
  have store := accepted_store (h := h) (j := j) (a := a) up
  have record : acceptRecord s a = _ :=
    toDeltas_eq_signed a.tender ▸ transferRecord_signed s .transferIn (s.store.drawers.get a.toDrawer).bound a.toDrawer
      a.fromDrawer one_ne_zero a.tender 0 (some a.offerSeq)
  rw [one_mul] at record
  rw [← record]
  exact (delivered_committed (d := deliveryOf h a s) whole rfl (congrArg Store.journal store :)
    (congrArg Store.day store :)).congr rfl

end

section
variable {h : ReqHead} {r : AcceptReq} {s : State} {j : Fin 8} {a : Transfer}
  (served : InService h (.transferAccept h r) s) (once : .deliver ∉ s.port.order)
include served

theorem ended_frame : UnchangedBut [.journal, .day, .transfers, .drawers, .jsu, .buffers, .screens, .idles, .windows,
    .responses, .inExecution, .turns] s (ended h j a s) := by
  have before := receiverScu_frame s a.toDrawer
  have accept := accepted_frame h j a (receiving a s)
  have deliver : UnchangedBut [.drawers, .journal, .day, .inExecution, .turns, .delivery] (accepted h j a (receiving a s))
      (delivered (deliveryOf h a s) (accepted h j a (receiving a s))) :=
    setApplied_unchanged _ _ (by decide) (deliverCash_unchanged _ _ _ (by decide)
      (setOrder_unchanged _ (by decide) (clearDelivery_unchanged _ (by decide) (.refl _ _))))
  refine UnchangedBut.without (p := .delivery) ?_ served.noDelivery.symm
  exact respond_unchanged _ _ _ _ _ (by decide)
    ((before.mono (by decide)).trans ((accept.mono (by decide)).trans (deliver.mono (by decide))))

include once

theorem ended_answered : Answered h 65 .done true
    [some [.num a.number], some [.num (s.store.day.used + 1)],
      if h.master ≠ officerMaster ∧ s.store.day.state = .closing then none
      else some [.amount (valueOf s 0 (receivedCounts s a))], some [.flag (markAfter s a.toDrawer (receivedCounts s a))]]
    (highNotice s ++ cashNotices s a.toDrawer (receivedCounts s a)) s (ended h j a s) := by
  have p := accepted_inProgress served j a once
  have here : (delivered (deliveryOf h a s) (accepted h j a (receiving a s))).port.inExecution = s.port.inExecution :=
    p.inExecution
  have closing : (accepted h j a (receiving a s)).store.day.state = s.store.day.state :=
    (congrArg (fun x : Store => x.day.state) (accepted_store (h := h) (j := j) (a := a) served.up) :)
  have windows := accepted_windows (h := h) (j := j) (a := a) served.up
  refine ⟨?_, ?_, ?_⟩
  · rw [ended, respond_windows _ _ _ _ _ (by rw [here]; exact served.here), deliveryFields, closing]
    exact congrArg _ windows
  · rw [ended, respond_port_inExecution, here]
  · rw [ended, respond_port_order, p.delivered_order, List.append_nil]

end

end Sys2Proof.Machine
end

section
/-! SUPPORT. The deliver with the day CLOSING (R15), and with a second tick behind it (R67, R72); O37. -/

namespace Sys2Proof.Machine

/-- A slot's second looks at nothing of the state but how many records there are. -/
theorem SlotTicked.of_sameUsed {s u : State} {before after : Option Transfer} (h : SlotTicked s before after)
    (used : SameUsed u s) : SlotTicked u before after := by
  unfold SlotTicked at h ⊢
  rwa [used] at h

/-- What the tick makes of the slots of a state is told by another that has the same slots and as many records. -/
theorem slotTicked_counted {t y : State} (l : List Asked) (transfers : y.store.transfers = t.store.transfers)
    (used : SameUsed t y) (k : Fin 8) :
    SlotTicked t (t.store.transfers.get k) ((countTransfers (setOrder l y)).store.transfers.get k) := by
  have slot : SlotTicked (setOrder l y) (y.store.transfers.get k) _ := countTransfers_slot (setOrder l y) k
  rw [transfers] at slot
  exact slot.of_sameUsed used

theorem respond_delivered_transfers (d : Delivery) (l : List (Option (List Item))) (y : State) :
    (respond d.head 65 .done true l (delivered d y)).store.transfers = y.store.transfers := by
  rw [respond_store, delivered_transfers]

theorem respond_delivered_used (d : Delivery) (l : List (Option (List Item))) (y : State) :
    (respond d.head 65 .done true l (delivered d y)).store.day.used = y.store.day.used := by
  rw [respond_store, delivered_used]

/-- Raised notices leave the responses. -/
theorem notify_responses (l : List (Master × Detail)) (w : Table Window 5) (m : Master) :
    ((notify l w).get m).responses = (w.get m).responses := (congrArg Window.responses (notify_noticesOnly l w m) :)

theorem withResponse_responses (h : ReqHead) (k : Nat) (c : Code) (masked : Bool) (fields : List (Option (List Item)))
    (w : Table Window 5) : ((withResponse h k c masked fields w).get h.master).responses =
      (w.get h.master).responses ++ [⟨k, h.tag, c, masked, fields⟩] :=
  congrArg Window.responses (Table.get_modify_self w h.master _)

/-- With the day CLOSING, the answer that the deliver places keeps the home total from a station master (R15). -/
theorem InProgress.closing_response {s y : State} {d : Delivery} {later : List Asked} {i : Instr}
    (p : InProgress s d later y) (here : s.port.inExecution.get d.head.master = some ⟨i, false⟩)
    (closing : y.store.day.state = .closing) :
    ((respond d.head 65 .done true (deliveryFields y d) (delivered d y)).port.windows.get d.head.master).responses =
      (y.port.windows.get d.head.master).responses ++ [⟨65, d.head.tag, .done, true,
        [some [.num d.number], some [.num d.sequence],
          if d.head.master ≠ officerMaster then none else some [.amount d.total], some [.flag d.excess]]⟩] := by
  rw [respond_windows _ _ _ _ _ (by rw [delivered_inExecution, p.inExecution]; exact here), delivered_windows,
    withResponse_responses, deliveryFields]
  simp only [closing, and_true]

/-- Where an operation stands once a request has been answered. -/
theorem standsAt_answered {s y : State} {m : Master} (here : y.port.inExecution = s.port.inExecution.set m none) (x : Asked) :
    (x = .request m ∧ standsAt y x = none) ∨ (x ≠ .request m ∧ standsAt y x = standsAt s x) := by
  cases x
  case request k =>
    by_cases own : k = m
    · exact .inl ⟨congrArg _ own, by simp [standsAt, here, own]⟩
    · exact .inr ⟨fun e => own (Asked.request.inj e), by simp [standsAt, here, Table.get_set_ne _ _ (Ne.symm own)]⟩
  all_goals exact .inr ⟨Asked.noConfusion, rfl⟩

/-- The state in which the acceptance has just been answered, with a tick asked behind its deliver. -/
structure Answering (s y : State) (m : Master) (later : List Asked) : Prop where
  up : y.power = .up
  due : y.delivery = none
  inExecution : y.port.inExecution = s.port.inExecution.set m none
  order : y.port.order = s.port.order.erase (.request m) ++ later

@[simp] theorem standsAt_setOrder (l : List Asked) (s : State) (x : Asked) : standsAt (setOrder l s) x = standsAt s x :=
  standsAt_congr rfl x

/-- What stood before the acceptance at its units has ended, and of what waits behind it only a tick of the Exchange Unit
stands before the Transfer Unit's: both units that it needs are free. -/
theorem Answering.unitFree {s y : State} {m : Master} {later l : List Asked} (e : Answering s y m later)
    (ticks : ∀ x ∈ l, x = .tick .exu) {u : UnitName} (other : u ≠ .exu)
    (free : ∀ x ∈ s.port.order, x ≠ .request m → standsAt s x ≠ some u) :
    UnitFree (setOrder (s.port.order.erase (.request m) ++ l) y) u := by
  refine ⟨fun x hx => ?_, fun _ => e.due⟩
  rw [standsAt_setOrder]
  rcases List.mem_append.mp hx with before | tick
  · rcases standsAt_answered e.inExecution x with ⟨-, gone⟩ | ⟨not, stands⟩
    · simp [gone]
    · rw [stands]; exact free x (List.mem_of_mem_erase before) not
  · rw [ticks x tick]
    simpa [standsAt] using other.symm

/-- What keeps a unit other than the Transfer and Drawer Units busy while the acceptance is in progress does so after it. -/
theorem Answering.busy {h : ReqHead} {r : AcceptReq} {s t y : State} {d : Delivery} {later : List Asked}
    (served : InService h (.transferAccept h r) s) (p : InProgress s d [] t) (e : Answering s y h.master later)
    {u : UnitName} (tru : u ≠ .tru) (dru : u ≠ .dru) (busy : ¬UnitFree t u) :
    ¬UnitFree (setOrder (s.port.order.erase (.request h.master)) y) u := by
  refine fun free => busy ⟨fun x hx => ?_, fun e => absurd e tru⟩
  rw [p.order] at hx
  rw [standsAt_congr p.inExecution]
  rcases List.mem_append.mp hx with before | deliver
  · rcases standsAt_answered e.inExecution x with ⟨own, -⟩ | ⟨not, stands⟩
    · rw [own, standsAt, served.here]
      simpa [unitOf, requestKind] using tru.symm
    · rw [← stands, ← standsAt_setOrder (s.port.order.erase (.request h.master))]
      exact free.1 x ((List.mem_erase_of_ne not).mpr before)
  · obtain rfl := List.mem_singleton.mp deliver
    simpa [standsAt] using dru.symm

/-- A second tick that finds an acceptance in progress is taken by the Transfer Unit when the acceptance has ended (R67,
R72). -/
theorem InProgress.tick_taken {h : ReqHead} {r : AcceptReq} {s t : State} {d : Delivery}
    (served : InService h (.transferAccept h r) s) (p : InProgress s d [] t) (own : d.head = h)
    (other : d.fromDrawer ≠ d.toDrawer) (open' : (t.store.drawers.get d.toDrawer).state ≠ .closed)
    (free : UnitFree s .dru)
    (alone : ∀ x ∈ s.port.order, x ≠ .request h.master → standsAt s x ≠ some .tru) :
    ∃ v w, exec .secondTick t = .next v ∧ exec .deliver v = .next w ∧ v.store.transfers = t.store.transfers ∧
      .tick .tru ∉ w.port.order ∧ ∀ k, SlotTicked t (t.store.transfers.get k) (w.store.transfers.get k) := by
  obtain ⟨l, k, q, exu, dlu⟩ := allTicked_inProgress p (p.screenFree served)
  have waits : ¬TakesTick t .tru := fun h => p.tru_busy (h p.up).1
  obtain ⟨transfers, drawers, -⟩ := allTicked_store_waits waits
  have used := allTicked_sameUsed p.up waits
  let v : State := allTicked t
  let y : State := respond d.head 65 .done true (deliveryFields v d) (delivered d v)
  have finished : finishDelivery v = y := finishDelivery_eq q.due other (by rwa [drawers])
  have ticks : ∀ x ∈ l, x = .tick .exu := by
    rcases exu with rfl | ⟨rfl, -⟩ <;> simp
  have answering : Answering s y h.master (l ++ .tick .tru :: k) := by
    refine ⟨by rw [respond_power, delivered_power, q.up], by rw [respond_delivery, delivered_delivery], ?_, ?_⟩
    · rw [respond_port_inExecution, delivered_inExecution, q.inExecution, own]
    · have none : .request h.master ∉ l ++ .tick .tru :: k := by
        rcases exu with rfl | ⟨rfl, -⟩ <;> rcases dlu with rfl | rfl <;> simp
      rw [respond_port_order, q.delivered_order, own, List.erase_append, List.erase_of_not_mem none]
      split
      · rfl
      · rw [List.erase_of_not_mem ‹_›]
  have taken := takeWaiting_tick (s := y) (before := s.port.order.erase (.request h.master)) (l := l) (later := k)
    answering.up (by rw [answering.order, List.append_assoc])
    (fun x hx => served.quiet x (List.mem_of_mem_erase hx))
    (exu.imp_right (And.imp_right (answering.busy served p (by decide) (by decide)))) dlu
    (answering.unitFree ticks (by decide) alone)
    (answering.unitFree ticks (by decide) fun x hx _ => free.1 x hx)
  refine ⟨v, takeWaiting y, exec_secondTick (by rw [p.up]; decide), ?_, transfers, taken.2, fun i => ?_⟩
  · rw [q.exec_made free, finished]
  · rw [taken.1]
    exact slotTicked_counted _ ((respond_delivered_transfers _ _ _).trans transfers)
      ((respond_delivered_used _ _ _).trans used) i

end Sys2Proof.Machine

open Sys2Proof Sys2Proof.Machine

/-- Settles O37: an acceptance that passes its checks leaves itself in progress, `accepted`; the deliver, in its turn, comes
to `ended`, whatever the day state makes of the home total, and a second tick that came between is taken behind it. -/
theorem acceptancesReceiveThenDeliver : Obligations.AcceptancesReceiveThenDeliver := by
  unfold Obligations.AcceptancesReceiveThenDeliver
  intro h j a l s i n d f sequence current receiver mark served whole first once low high offered may tender unlocked
  let s1 : State := receiving a s
  have accept : MayAccept h a l s1 := MayAccept.receiving ⟨low, high, offered, may, tender, unlocked⟩
  have judged := exec_transferAccept served first
  refine ⟨fun differs => ?_, fun agrees other settled unmarked room => ?_⟩
  · have refused : acceptBody h ⟨.value a.number, .value l⟩ s1 = _ := judge_refused (accept_mismatch accept first differs)
    rw [refused] at judged
    exact ⟨_, mismatchDetail s1 (summedCounts l) a.tender, judged,
      respond_unchangedBut (receiverScu_frame s n) h _ _ _ _ (by decide) (by decide), rfl,
      respond_answered served.here rfl _ _ _ _⟩
  · let t : State := accepted h j a s1
    have taken : acceptBody h ⟨.value a.number, .value l⟩ s1 = { take t [] with answered := false } :=
      (judge_taken _ _ (accept_passes accept first agrees settled unmarked room)).trans
        (transferAcceptTaken_eq (s := s1) served.up first)
    rw [taken] at judged
    have p : InProgress s (deliveryOf h a s) [] t := accepted_inProgress served j a once
    have open' : (t.store.drawers.get n).state ≠ .closed := by
      rw [accepted_toDrawer_state served.up]
      exact not_closed settled
    refine ⟨t, judged, p.inExecution, p.order, by rw [p.due]; rfl, p.timeout_waits, accepted_windows served.up,
      congrArg Drawer.reserved (accepted_fromDrawer served.up other), p.exec_waits, fun free => ?closes, fun free => ?delivers⟩
    case closes =>
      let y : State := { t with store := { t.store with day := { t.store.day with state := .closing } } }
      have q : InProgress s (deliveryOf h a s) [] y := ⟨p.up, p.due, p.order, p.inExecution, p.once⟩
      refine ⟨_, q.exec_ended free other open' served.quiet, (q.closing_response served.here rfl).trans ?_⟩
      rw [show y.port.windows = _ from accepted_windows served.up, notify_responses]
      rfl
    case delivers =>
      refine ⟨_, p.exec_ended free other open' served.quiet, fun alone => ?_, ended_frame served, ended_rendered served.up,
        ended_transfers served.up, ended_drawers served.up other, ended_jsu served.up, ended_committed served.up whole,
        ended_answered served once⟩
      obtain ⟨v, w, ticks, delivers, still, taken, slots⟩ := p.tick_taken served rfl other open' free alone
      exact ⟨v, w, ticks, delivers, still, taken, fun k => (slots k).of_sameUsed rfl⟩
end

section
/-! SUPPORT. The order of the journal and the ranges of the clock: what leaves them standing, operation by operation,
and that every step keeps them (R84, R188). -/

namespace Sys2Proof.Machine

/-! ### States that keep them -/

/-- From `s` to `t` a journal in order stays in order and a clock in range stays in range. -/
structure KeepsOrder (s t : State) : Prop where
  journal : JournalInv s → JournalInv t
  clock : ClockInv s → ClockInv t

theorem KeepsOrder.refl (s : State) : KeepsOrder s s := ⟨id, id⟩

theorem KeepsOrder.trans {s t u : State} (h : KeepsOrder s t) (k : KeepsOrder t u) : KeepsOrder s u :=
  ⟨k.journal ∘ h.journal, k.clock ∘ h.clock⟩

/-- The same, last operation first. -/
theorem KeepsOrder.after {s t u : State} (k : KeepsOrder t u) (h : KeepsOrder s t) : KeepsOrder s u := h.trans k

theorem KeepsOrder.ite {s t u : State} (c : Prop) [Decidable c] (h : KeepsOrder s t) (k : KeepsOrder s u) :
    KeepsOrder s (if c then t else u) := by
  split <;> assumption

theorem KeepsOrder.foldl {α : Type} {f : State → α → State} (hf : ∀ s a, KeepsOrder s (f s a)) (l : List α)
    (s : State) : KeepsOrder s (l.foldl f s) := by
  induction l generalizing s with
  | nil => exact .refl s
  | cons x l ih => exact (hf s x).trans (ih _)

/-- What keeps the order of the store in use, the store kept beside it and the clock. -/
theorem KeepsOrder.of_stands {s t : State} (stands : sequencesStand s.store → sequencesStand t.store)
    (kept : t.kept = s.kept) (clock : t.clock = s.clock) : KeepsOrder s t :=
  ⟨fun a => ⟨stands a.1, kept ▸ a.2⟩, fun a => by rwa [ClockInv, clock]⟩

/-- Whether sequences stand is a matter of the journal and journal used. -/
theorem sequencesStand_congr {x y : Store} (journal : y.journal = x.journal) (used : y.day.used = x.day.used) :
    sequencesStand y ↔ sequencesStand x := by
  rw [sequencesStand, sequencesStand, journal, used]

theorem KeepsOrder.of_eq {s t : State} (journal : t.store.journal = s.store.journal)
    (used : t.store.day.used = s.store.day.used) (kept : t.kept = s.kept) (clock : t.clock = s.clock) :
    KeepsOrder s t :=
  .of_stands (sequencesStand_congr journal used).mpr kept clock

/-- A frame that leaves out journal, day record, kept store and clock keeps the order. -/
theorem UnchangedBut.keepsOrder {L : List Part} {s t : State} (h : UnchangedBut L s t)
    (hL : ∀ p ∈ [Part.journal, .day, .kept, .clock], p ∉ L) : KeepsOrder s t :=
  .of_eq (h.get .journal (hL _ (by simp))) (congrArg DayRecord.used (h.get .day (hL _ (by simp))))
    (h.get .kept (hL _ (by simp))) (h.get .clock (hL _ (by simp)))

/-! ### The writes of the journal (R84, R86) -/

theorem writeAppend_stands (r : Record) {s : State} (h : sequencesStand s.store) :
    sequencesStand (writeAppend r s).store := by
  obtain ⟨whole, named⟩ := h
  have before : (s.store.journal.take s.store.day.used).length = s.store.day.used := by simp [whole]
  refine ⟨?_, fun n hn x hx => ?_⟩
  · simp [writeAppend]
    omega
  · change n < s.store.day.used + 1 at hn
    change (s.store.journal.take s.store.day.used ++
      stampRecord s r :: s.store.journal.drop (s.store.day.used + 1))[n]? = some x at hx
    by_cases old : n < s.store.day.used
    · rw [List.getElem?_append_left (by rw [before]; exact old), List.getElem?_take_of_lt old] at hx
      exact named n old x hx
    · obtain rfl : n = s.store.day.used := by omega
      rw [List.getElem?_append_right (by rw [before]), before, Nat.sub_self] at hx
      cases hx
      rfl

theorem appendRecord_keepsOrder (r : Record) (s : State) : KeepsOrder s (appendRecord r s) := by
  have written : KeepsOrder s (writeAppend r s) := .of_stands (writeAppend_stands r) rfl rfl
  exact .ite _ (written.trans ((raiseOfficer_frame _ _).keepsOrder (by decide))) written

theorem setApplied_keepsOrder (q : Nat) (d : Disposition) (s : State) : KeepsOrder s (setApplied q d s) := by
  refine .of_stands (fun h => ⟨?_, fun n hn x hx => ?_⟩) rfl rfl
  · simpa [setApplied] using h.1
  · change (s.store.journal.modify (q - 1) (markedRecord d))[n]? = some x at hx
    rw [List.getElem?_modify] at hx
    obtain ⟨r, hr, rfl⟩ := Option.map_eq_some_iff.mp hx
    have named := h.2 n hn r hr
    split
    · exact named
    · exact named

theorem modifyDay_keepsOrder {f : DayRecord → DayRecord} (hf : ∀ d, (f d).used = d.used) (s : State) :
    KeepsOrder s (modifyDay f s) := .of_eq rfl (hf _) rfl rfl

theorem setDayState_keepsOrder (x : DayState) (s : State) : KeepsOrder s (setDayState x s) :=
  modifyDay_keepsOrder (fun _ => by rfl) s

theorem setAckThrough_keepsOrder (k : Nat) (s : State) : KeepsOrder s (setAckThrough k s) :=
  modifyDay_keepsOrder (fun _ => by rfl) s

theorem appendDay_keepsOrder (k : RecordKind) (date : Option Nat) {f : DayRecord → DayRecord}
    (hf : ∀ d, (f d).used = d.used) (s : State) : KeepsOrder s (appendDay k date f s) :=
  (appendRecord_keepsOrder _ s).trans (modifyDay_keepsOrder hf _)

theorem dayChanged_keepsOrder (x : DayState) (s : State) : KeepsOrder s (dayChanged x s) :=
  (dayChanged_frame x s).keepsOrder (by decide)

/-! ### Commits (R17, R47, R66, R69 to R71, R77) -/

/-- An operation between the append and the applied mark, whose frame leaves the journal out. -/
theorem committed_keepsOrder {L : List Part} {s t : State} (r : Record) (q : Nat) (d : Disposition)
    (h : UnchangedBut L (appendRecord r s) t) (hL : ∀ p ∈ [Part.journal, .day, .kept, .clock], p ∉ L) :
    KeepsOrder s (setApplied q d t) :=
  ((appendRecord_keepsOrder r s).trans (h.keepsOrder hL)).trans (setApplied_keepsOrder q d t)

theorem closeDrawer_keepsOrder (n : DrawerNo) (s : State) : KeepsOrder s (closeDrawer n s) :=
  .after ((report_frame _ _).keepsOrder (by decide))
    (committed_keepsOrder (L := [.drawers, .counted]) _ _ _ (setCounted_unchanged _ _ (by decide)
      (modifyDrawer_unchanged _ _ (fun _ => rfl) (by decide) (.refl _ _))) (by decide))

theorem acceptCurrency_keepsOrder (n : DrawerNo) (counted : Counts) (s : State) (c : Currency) :
    KeepsOrder s (acceptCurrency n counted s c) :=
  committed_keepsOrder _ _ _ (cashChange_frame n _ _ _ _) (by decide)

theorem commitBoard_keepsOrder (f : Foreign) (e : BoardEntry) (k : Nat) (s : State) :
    KeepsOrder s (commitBoard f e k s) :=
  committed_keepsOrder _ _ _ (modifyBoard_frame _ _) (by decide)

theorem commitOffer_keepsOrder (i : Fin 8) (a : Transfer) (p : Option Position) (s : State) :
    KeepsOrder s (commitOffer i a p s) := by
  have moved (u : State) : UnchangedBut [.transfers, .nextTransfer, .jsu, .drawers, .windows, .buffers, .screens,
      .inExecution] u (reserveCash a.fromDrawer a.tender a.offerSeq
        (addHolds 1 (setNextTransfer (numberAfter 255 a.number) (modifyTransfer i a u)))) :=
    reserveCash_unchanged _ _ _ (by decide) (addHolds_unchanged _ (by decide)
      (setNextTransfer_unchanged _ (by decide) (modifyTransfer_unchanged _ _ (by decide) (.refl _ u))))
  exact .after ((raiseTransfer_frame _ _ _ _).keepsOrder (by decide))
    (committed_keepsOrder _ _ _ (moved _) (by decide))

theorem commitAccept_keepsOrder (i : Fin 8) (a : Transfer) (s : State) : KeepsOrder s (commitAccept i a s) := by
  have moved (b : Transfer) (u : State) : UnchangedBut [.transfers, .jsu, .drawers, .windows, .buffers, .screens,
      .inExecution] u (receiveCash a.toDrawer a.tender (nextSequence s) (dropHold (modifyTransfer i b u))) :=
    receiveCash_unchanged _ _ _ (by decide) (dropHold_unchanged (by decide)
      (modifyTransfer_unchanged _ _ (by decide) (.refl _ u)))
  exact (appendRecord_keepsOrder _ s).trans ((moved _ _).keepsOrder (by decide))

theorem commitReturn_keepsOrder (i : Fin 8) (a : Transfer) (x : TransferState) (p : Option Position) (n : Nat)
    (s : State) : KeepsOrder s (commitReturn i a x p n s) := by
  have moved (b : Transfer) (u : State) : UnchangedBut [.transfers, .jsu, .drawers, .windows, .buffers, .screens,
      .inExecution] u (returnCash a.fromDrawer a.tender (nextSequence s) (dropHold (modifyTransfer i b u))) :=
    returnCash_unchanged _ _ _ (by decide) (dropHold_unchanged (by decide)
      (modifyTransfer_unchanged _ _ (by decide) (.refl _ u)))
  exact committed_keepsOrder _ _ _ (moved _ _) (by decide)

theorem returnTimedOut_keepsOrder (s : State) (e : Fin 8 × Transfer) : KeepsOrder s (returnTimedOut s e) :=
  .after ((raiseTransfer_frame _ _ _ _).keepsOrder (by decide)) (commitReturn_keepsOrder _ _ _ _ _ s)

theorem countTransfers_keepsOrder (s : State) : KeepsOrder s (countTransfers s) :=
  .after (.foldl returnTimedOut_keepsOrder _ _) (.of_eq rfl rfl rfl rfl)

theorem timeoutTransfer_keepsOrder (n : Nat) (s : State) : KeepsOrder s (timeoutTransfer n s) := by
  unfold timeoutTransfer
  split
  · exact .ite _ (returnTimedOut_keepsOrder s _) (.refl s)
  · exact .refl s

theorem finishDelivery_keepsOrder (s : State) : KeepsOrder s (finishDelivery s) := by
  unfold finishDelivery
  split
  · exact .refl s
  · refine .after ((respond_frame _ _ _ _ _ _).keepsOrder (by decide)) (.after (setApplied_keepsOrder _ _ _)
      (.after ((deliverCash_frame _ _ _ _).keepsOrder (by decide)) (.of_eq rfl rfl rfl rfl)))

/-! ### The sender (R170 to R175) -/

theorem failSender_keepsOrder (reason : SendFailure) (s : State) : KeepsOrder s (failSender reason s) :=
  .after ((raiseOfficer_frame _ _).keepsOrder (by decide)) (.after (dayChanged_keepsOrder _ _)
    (.after (setDayState_keepsOrder _ _) (((failureFault_frame reason s).keepsOrder (by decide)).trans
      (.of_eq rfl rfl rfl rfl))))

theorem sendBlock_keepsOrder (b : Nat) (s : State) : KeepsOrder s (sendBlock b s) := by
  unfold sendBlock
  split
  · exact .after (failSender_keepsOrder _ _) ((storeCheckFault_frame _ s).keepsOrder (by decide))
  · exact .of_eq rfl rfl rfl rfl

theorem sendNext_keepsOrder (s : State) : KeepsOrder s (sendNext s) :=
  .ite _ (.after (sendBlock_keepsOrder _ _) (.of_eq rfl rfl rfl rfl)) (.refl s)

theorem goOn_keepsOrder (s : State) : KeepsOrder s (goOn s) :=
  .ite _ (.of_eq rfl rfl rfl rfl) ((sendNext_keepsOrder s).trans (sendNext_keepsOrder _))

theorem resendBlock_keepsOrder (b : Nat) (s : State) : KeepsOrder s (resendBlock s b) :=
  .ite _ (.after (sendBlock_keepsOrder _ _) (.of_eq rfl rfl rfl rfl)) (.refl s)

theorem retryBlock_keepsOrder (b : Nat) (s : State) : KeepsOrder s (retryBlock b s) :=
  .ite _ (failSender_keepsOrder _ s) (.after (resendBlock_keepsOrder _ _)
    (.after (resendBlock_keepsOrder _ _) (.of_eq rfl rfl rfl rfl)))

theorem takeReady_keepsOrder (e : Nat) (s : State) : KeepsOrder s (takeReady e s) :=
  .ite _ (.of_eq rfl rfl rfl rfl) (.ite _ (.after (failSender_keepsOrder _ _) (.of_eq rfl rfl rfl rfl))
    (.after (goOn_keepsOrder _) ((setAckThrough_keepsOrder _ s).trans (.of_eq rfl rfl rfl rfl))))

theorem takeBusy_keepsOrder (s : State) : KeepsOrder s (takeBusy s) :=
  .ite _ (.of_eq rfl rfl rfl rfl) (failSender_keepsOrder _ s)

theorem takeAck_keepsOrder (b : Nat) (s : State) : KeepsOrder s (takeAck b s) :=
  .after (goOn_keepsOrder _) ((setAckThrough_keepsOrder b s).trans (.of_eq rfl rfl rfl rfl))

theorem takeClosed_keepsOrder (l : List Byte) (s : State) : KeepsOrder s (takeClosed l s) :=
  .after ((raiseOfficer_frame _ _).keepsOrder (by decide)) (.after (dayChanged_keepsOrder _ _)
    (.of_eq rfl rfl rfl rfl))

theorem anomaly_keepsOrder (s : State) : KeepsOrder s (anomaly s) := .of_eq rfl rfl rfl rfl

theorem waitEnds_keepsOrder (s : State) : KeepsOrder s (waitEnds s) := .ite _ (.of_eq rfl rfl rfl rfl) (.refl s)

theorem callTimesOut_keepsOrder (s : State) : KeepsOrder s (callTimesOut s) :=
  .ite _ (.of_eq rfl rfl rfl rfl) (failSender_keepsOrder _ s)

theorem endTimesOut_keepsOrder (s : State) : KeepsOrder s (endTimesOut s) :=
  .ite _ (.of_eq rfl rfl rfl rfl) (failSender_keepsOrder _ s)

theorem blockAgeDue_keepsOrder (s : State) : KeepsOrder s (blockAgeDue s) := by
  refine .ite _ ?_ (.refl s)
  split
  · exact .ite _ (retryBlock_keepsOrder _ s) (.refl s)
  · exact .refl s

theorem tickTimer_keepsOrder {expire : State → State} (h : ∀ s, KeepsOrder s (expire s)) (s : State) :
    KeepsOrder s (tickTimer expire s) := by
  unfold tickTimer
  split
  · exact .ite _ (h s) (.of_eq rfl rfl rfl rfl)
  · exact .refl s

theorem tickDlu_keepsOrder (s : State) : KeepsOrder s (tickDlu s) := by
  unfold tickDlu
  split
  · unfold tickCalling
    split
    · exact .ite _ (waitEnds_keepsOrder s) (.of_eq rfl rfl rfl rfl)
    · exact waitEnds_keepsOrder s
  · exact tickTimer_keepsOrder callTimesOut_keepsOrder s
  · have aged : KeepsOrder s (modifySender (fun x => { x with
        outstanding := x.outstanding.map fun b => { b with age := b.age + 1 } }) s) := .of_eq rfl rfl rfl rfl
    unfold tickSending
    split
    · exact .ite _ (.after (retryBlock_keepsOrder _ _) aged) aged
    · exact aged
  · exact tickTimer_keepsOrder endTimesOut_keepsOrder s
  · exact .refl s

theorem takeFrame_keepsOrder (f : Frame) (check : Word) {k : State → State} {s : State} (h : KeepsOrder s (k s)) :
    KeepsOrder s (takeFrame f check k s) := .ite _ h (.refl s)

/-! ### What waits and is taken (R29, R144, R159) -/

theorem eventEffect_keepsOrder (i : Instr) (s : State) : KeepsOrder s (eventEffect i s) := by
  unfold eventEffect
  split
  case h_5 => exact takeFrame_keepsOrder _ _ (.ite _ (takeReady_keepsOrder _ s) (anomaly_keepsOrder s))
  case h_6 => exact takeFrame_keepsOrder _ _ (.ite _ (takeBusy_keepsOrder s) (anomaly_keepsOrder s))
  case h_7 => exact takeFrame_keepsOrder _ _ (.ite _ (takeAck_keepsOrder _ s) (anomaly_keepsOrder s))
  case h_8 => exact takeFrame_keepsOrder _ _ (.ite _ (retryBlock_keepsOrder _ s) (anomaly_keepsOrder s))
  case h_9 => exact takeFrame_keepsOrder _ _ (.ite _ (takeClosed_keepsOrder _ s) (anomaly_keepsOrder s))
  case h_1 => exact (ackTimesOut_frame _ s).keepsOrder (by decide)
  case h_2 => exact (probeTimesOut_frame _ s).keepsOrder (by decide)
  case h_3 => exact (takeRowAck_frame _ _ _ s).keepsOrder (by decide)
  case h_4 => exact (takeProbeAnswer_frame _ _ _ s).keepsOrder (by decide)
  case h_10 => exact (unknownArrives_frame _ s).keepsOrder (by decide)
  case h_11 => exact (bookArrives_frame _ s).keepsOrder (by decide)
  case h_12 => exact (bookLeaves_frame _ s).keepsOrder (by decide)
  case h_13 => exact (edgeFound_frame _ _ s).keepsOrder (by decide)
  case h_14 => exact (limitReached_frame _ s).keepsOrder (by decide)
  case h_15 => exact (stripeReadEnds_frame _ _ s).keepsOrder (by decide)
  case h_16 => exact (stripeWriteEnds_frame _ _ s).keepsOrder (by decide)
  case h_17 => exact (lineEnds_frame _ s).keepsOrder (by decide)
  case h_18 => exact (headArrives_frame _ s).keepsOrder (by decide)
  case h_19 => exact (ejectEnds_frame _ s).keepsOrder (by decide)
  case h_20 => exact (jamTimesOut_frame _ s).keepsOrder (by decide)
  case h_21 => exact .refl s

theorem tickEffect_keepsOrder (u : UnitName) (s : State) : KeepsOrder s (tickEffect u s) := by
  cases u
  case exu => exact (tickExu_frame s).keepsOrder (by decide)
  case scu => exact (tickScu_frame s).keepsOrder (by decide)
  case tru => exact .ite _ (countTransfers_keepsOrder s) (.refl s)
  case dlu => exact .ite _ (tickDlu_keepsOrder s) (.refl s)
  all_goals exact .refl s

theorem askedEffect_keepsOrder (x : Asked) (s : State) : KeepsOrder s (askedEffect x s) := by
  cases x with
  | request _ | deliver => exact .refl s
  | tick u => exact tickEffect_keepsOrder u s
  | reraise d => exact (reraiseOffers_frame d s).keepsOrder (by decide)
  | report l => exact (takeReports_frame l s).keepsOrder (by decide)
  | binding p b => exact (takeBinding_frame p b s).keepsOrder (by decide)
  | event i => exact eventEffect_keepsOrder i s

theorem serve_keepsOrder (x : Asked) (s : State) : KeepsOrder s (serve x s) := by
  rcases serve_cases x s with h | h <;> rw [h]
  · exact askedEffect_keepsOrder x s
  · exact .of_eq rfl rfl rfl rfl

theorem takeFrom_keepsOrder (fuel : Nat) : ∀ (k : Nat) (s : State), KeepsOrder s (takeFrom fuel k s) := by
  induction fuel with
  | zero => exact fun _ s => .refl s
  | succ fuel ih =>
    intro k s
    unfold takeFrom
    split
    · exact .refl s
    · exact .ite _ (.after (ih _ _) (.after (askedEffect_keepsOrder _ _) (.of_eq rfl rfl rfl rfl))) (ih _ s)

theorem takeWaiting_keepsOrder (s : State) : KeepsOrder s (takeWaiting s) := takeFrom_keepsOrder _ _ s

theorem unlessWaits_keepsOrder (units : List UnitName) {f : State → State} {s : State} (h : KeepsOrder s (f s)) :
    KeepsOrder s (unlessWaits units f s) := .ite _ (.refl s) h

theorem deliver_keepsOrder (s : State) : KeepsOrder s (deliver s) :=
  .ite _ ((finishDelivery_keepsOrder s).trans (takeWaiting_keepsOrder _)) (.refl s)

/-! ### Requests -/

/-- A request keeps the order where its own part does. -/
theorem carry_keepsOrder (h : ReqHead) (i : Instr) {body : State → Verdict}
    (hb : ∀ u, KeepsOrder u (body u).state) (s : State) : KeepsOrder s (carry h i body s) := by
  have settled (v : Verdict) : KeepsOrder v.state (settle h i v) := (settle_frame h i v).keepsOrder (by decide)
  unfold carry
  split
  · exact .refl s
  · rename_i t e
    have entered : KeepsOrder s t := (handed_frame e).keepsOrder (by decide)
    have restarted : KeepsOrder s (restartNamed i t) :=
      entered.trans ((restartNamed_frame i t).keepsOrder (by decide))
    have answered := (restarted.trans (hb _)).trans (settled _)
    dsimp only
    refine .ite _ (.after (settled _) (by rwa [invalidVerdict_state])) (.ite _ entered (.ite _ ?_ answered))
    exact answered.trans (takeWaiting_keepsOrder _)

theorem judge_keepsOrder {l : List Check} {s : State} {v : Verdict} (h : KeepsOrder s v.state) :
    KeepsOrder s (judge l s v).state := by
  rcases judge_state l s v with e | e <;> rw [e]
  · exact .refl s
  · exact h

/-- A judged request keeps the order where what it comes to does. -/
theorem request_keepsOrder (h : ReqHead) (i : Instr) {checks : State → List Check} {taken : State → Verdict}
    (hk : ∀ u, KeepsOrder u (taken u).state) (s : State) :
    KeepsOrder s (carry h i (fun u => judge (checks u) u (taken u)) s) :=
  carry_keepsOrder h i (fun u => judge_keepsOrder (hk u)) s

/-- So does one whose frame leaves out journal, day record, kept store and clock. -/
theorem framed_keepsOrder {L : List Part} (h : ReqHead) (i : Instr) {checks : State → List Check}
    {taken : State → Verdict} (hf : ∀ u, UnchangedBut L u (taken u).state)
    (hL : ∀ p ∈ [Part.journal, .day, .kept, .clock], p ∉ L) (s : State) :
    KeepsOrder s (carry h i (fun u => judge (checks u) u (taken u)) s) :=
  request_keepsOrder h i (fun u => (hf u).keepsOrder hL) s

theorem drawerCount_keepsOrder (r : CountReq) (s : State) : KeepsOrder s (drawerCountTaken r s).state := by
  unfold drawerCountTaken
  dsimp only
  split
  · exact closeDrawer_keepsOrder _ s
  · exact (storeDifference_frame _ _ s).keepsOrder (by decide)

theorem drawerAccept_keepsOrder (x : Fld Nat) (s : State) : KeepsOrder s (drawerAcceptTaken x s).state := by
  unfold drawerAcceptTaken
  dsimp only [take_state]
  split
  · exact .after (closeDrawer_keepsOrder _ _) (.foldl (acceptCurrency_keepsOrder _ _) _ s)
  · exact .refl s

theorem cashPost_keepsOrder (r : PostReq) (s : State) : KeepsOrder s (cashPostTaken r s).state :=
  .after (setApplied_keepsOrder _ _ _) (.after ((handLine_frame _ _).keepsOrder (by decide))
    (.after ((cashChange_frame _ _ _ _ _).keepsOrder (by decide)) (.after (appendRecord_keepsOrder _ _)
      ((useCited_frame r s).keepsOrder (by decide)))))

theorem cashReverseTaken_keepsOrder (r : ReverseReq) (o : Record) (s : State) :
    KeepsOrder s (cashReverseTaken r o s).state :=
  .after (setApplied_keepsOrder _ _ _) (.after ((handReversalLine_frame _ _ _).keepsOrder (by decide))
    (.after ((cashChange_frame _ _ _ _ _).keepsOrder (by decide)) (appendRecord_keepsOrder _ s)))

theorem cashReverse_keepsOrder (h : ReqHead) (r : ReverseReq) (s : State) :
    KeepsOrder s (cashReverseBody h r s).state := by
  refine judge_keepsOrder ?_
  have looked : KeepsOrder s (reversalLookup r.sequence.nat s).1 :=
    (reversalLookup_frame r.sequence.nat s).keepsOrder (by decide)
  unfold reverseFound
  split <;> rename_i e <;> rw [e] at looked
  · exact looked
  · exact looked
  · exact looked.trans (judge_keepsOrder (cashReverseTaken_keepsOrder r _ _))

theorem transferAccept_keepsOrder (h : ReqHead) (r : AcceptReq) (s : State) :
    KeepsOrder s (acceptBody h r (restartReceiver r.number s)).state := by
  refine .after (judge_keepsOrder ?_) ((restartReceiver_frame r.number s).keepsOrder (by decide))
  unfold transferAcceptTaken
  split
  · exact .refl _
  · exact (commitAccept_keepsOrder _ _ _).trans (.of_eq rfl rfl rfl rfl)

theorem transferDecline_keepsOrder (x : Fld Nat) (s : State) : KeepsOrder s (transferDeclineTaken x s).state := by
  unfold transferDeclineTaken
  split
  · exact .refl _
  · exact .after ((raiseTransfer_frame _ _ _ _).keepsOrder (by decide)) (commitReturn_keepsOrder _ _ _ _ _ s)

theorem vault_keepsOrder (k : RecordKind) (r : VaultReq) (x : Deltas) (s : State) :
    KeepsOrder s (vaultTaken k r x s).state :=
  committed_keepsOrder _ _ _ (cashChange_frame _ _ _ _ _) (by decide)

theorem dayOpen_keepsOrder (x : Fld Nat) (s : State) : KeepsOrder s (dayOpenTaken x s).state :=
  .after (dayChanged_keepsOrder _ _) (.after (setApplied_keepsOrder _ _ _)
    (.after ((openDrawers_frame _ _).keepsOrder (by decide)) (appendDay_keepsOrder _ _ (fun _ => by rfl) s)))

theorem dayClose_keepsOrder (s : State) : KeepsOrder s (dayCloseTaken s).state :=
  .after (dayChanged_keepsOrder _ _) (.after (setApplied_keepsOrder _ _ _)
    (.after ((expireDayClose_frame _).keepsOrder (by decide)) (appendDay_keepsOrder _ _ (fun _ => by rfl) s)))

theorem dayReopen_keepsOrder (s : State) : KeepsOrder s (dayReopenTaken s).state :=
  .after (dayChanged_keepsOrder _ _) (.after (setApplied_keepsOrder _ _ _)
    (appendDay_keepsOrder _ _ (fun _ => by rfl) s))

theorem commitSeal_keepsOrder (s : State) : KeepsOrder s (commitSeal s) :=
  .after (dayChanged_keepsOrder _ _) (.after (setApplied_keepsOrder _ _ _)
    ((appendDay_keepsOrder _ _ (fun _ => by rfl) s).trans (.of_eq rfl rfl rfl rfl)))

theorem daySeal_keepsOrder (s : State) : KeepsOrder s (daySealTaken s).state := by
  have cancelled : KeepsOrder s (sealPrinters s) := (sealPrinters_frame s).keepsOrder (by decide)
  unfold daySealTaken
  dsimp only
  split
  · exact cancelled
  · rw [take_state]
    exact cancelled.trans (commitSeal_keepsOrder _)

theorem daySend_keepsOrder (s : State) : KeepsOrder s (daySendTaken s).state := by
  have called (u : State) : KeepsOrder u (sendCall (setLineReady true { u with sender := freshSender })) :=
    .of_eq rfl rfl rfl rfl
  have told : KeepsOrder s (dayChanged .sending (setDayState .sending s)) :=
    (setDayState_keepsOrder .sending s).trans (dayChanged_keepsOrder .sending _)
  exact told.trans (called _)

/-- A day without records is in order (R96). -/
theorem sequencesStand_of_empty {x : Store} (h : x.day.used = 0) : sequencesStand x :=
  ⟨by omega, fun n hn => absurd hn (by omega)⟩

theorem dayClear_keepsOrder (s : State) : KeepsOrder s (dayClearTaken s).state := by
  have cleared : KeepsOrder s (clearDay s) := .of_stands (fun _ => sequencesStand_of_empty rfl) rfl rfl
  refine .after (dayChanged_keepsOrder _ _) (.after (.foldl (fun t p => ?_) _ _)
    (.after ((report_frame _ _).keepsOrder (by decide)) (cleared.trans (.of_eq rfl rfl rfl rfl))))
  exact (bindScreen_frame p false t).keepsOrder (by decide)

/-! ### Format, clock and power-up (R90, R93, R188) -/

theorem formatStore_stands (x : Header) : sequencesStand (formatStore x) := sequencesStand_of_empty rfl

theorem storeFormat_keepsOrder (s : State) : KeepsOrder s (storeFormatTaken s).state := by
  have raised : KeepsOrder s (raiseFormatted (clearNotices s)) :=
    .after ((raiseFormatted_frame _).keepsOrder (by decide)) (.of_eq rfl rfl rfl rfl)
  have formatted (u : State) : KeepsOrder u (formatUnits u) :=
    ⟨fun _ => ⟨formatStore_stands _, fun x e => nomatch (show none = some x from e)⟩, id⟩
  have notice (u v : State) : KeepsOrder v (formatNotice u v) := .ite _ (.refl v) (dayChanged_keepsOrder _ v)
  exact .after (notice _ _) ((raised.trans (formatted _)).trans (.of_eq rfl rfl rfl rfl))

theorem clockSet_keepsOrder (h : ReqHead) (r : ClockReq) (s : State) :
    KeepsOrder s (judge (clockSetChecks h r) s (clockSetTaken r s)).state := by
  rcases judge_cases (clockSetChecks h r) s (clockSetTaken r s) with e | ⟨e, passed⟩ <;> rw [e]
  · exact .refl s
  · have fields := passed ⟨!h.spare && inRange 0 65535 r.day && inRange 0 86399 r.seconds, .badField, []⟩
      (by simp [clockSetChecks])
    simp only [Bool.and_eq_true] at fields
    have below {hi : Nat} {f : Fld Nat} (h : inRange 0 hi f = true) : f.nat ≤ hi := by
      cases f <;> simp_all [inRange, Fld.required, between, Fld.nat, Fld.getD]
    have set : KeepsOrder s { s with clock := ⟨r.day.nat, r.seconds.nat, true⟩ } :=
      ⟨id, fun _ => ⟨Nat.lt_succ_of_le (below fields.2), Nat.lt_succ_of_le (below fields.1.2)⟩⟩
    exact .after ((report_frame _ _).keepsOrder (by decide)) set

theorem advanceClock_inRange {s : State} (h : ClockInv s) : ClockInv { s with clock := advanceClock s.clock } := by
  obtain ⟨seconds, day⟩ := h
  unfold ClockInv advanceClock Config.daySeconds
  dsimp only
  split
  · exact ⟨by assumption, day⟩
  · exact ⟨Nat.zero_lt_succ _, Nat.mod_lt _ (Nat.zero_lt_succ _)⟩

theorem secondTick_keepsOrder {s t : State} (e : execSecondTick s = .next t) : KeepsOrder s t := by
  cases e
  have clock : KeepsOrder s { s with clock := advanceClock s.clock } := ⟨id, advanceClock_inRange⟩
  refine clock.trans ?_
  unfold tickUnits
  split
  · exact .foldl (fun s u => serve_keepsOrder (.tick u) s) _ _
  · exact .after ((tickScu_frame _).keepsOrder (by decide)) ((tickExu_frame _).keepsOrder (by decide))
  · exact .refl _

theorem replayRecord_keepsOrder (r : Record) (s : State) : KeepsOrder s (replayRecord r s) := by
  suffices parts : KeepsOrder s (replayParts r s).1 from parts.trans (setApplied_keepsOrder _ _ _)
  have cash (u : State) : KeepsOrder u (atDrawer r (fun n u =>
      cashChange n (entryDeltas r.tender) r.sequence (remainderOf r) u) u) :=
    (atParty_frame _ r (fun d u => cashChange_frame d _ _ _ u) u).keepsOrder (by decide)
  have line (u : State) : KeepsOrder u (replayLine r u).1 := (replayLine_frame r u).keepsOrder (by decide)
  unfold replayParts
  split
  · exact (cash s).trans (line _)
  · exact (cash s).trans (line _)
  · exact (atParty_frame _ r (fun d u => reserveCash_frame d _ _ u) s).keepsOrder (by decide)
  · exact ((atParty_frame _ r (fun d u => receiveCash_frame d _ _ u) s).keepsOrder (by decide)).trans
      ((atParty_frame _ r (fun d u => deliverCash_frame d _ _ u) _).keepsOrder (by decide))
  · exact (atParty_frame _ r (fun d u => returnCash_frame d _ _ u) s).keepsOrder (by decide)
  · exact cash s
  · exact cash s
  · exact cash s
  · exact (atParty_frame (L := [.drawers]) _ r
      (fun d u => modifyDrawer_frame d _ (fun _ => by rfl) u) s).keepsOrder (by decide)
  · unfold replayBoard
    split
    · exact .ite _ (.of_eq rfl rfl rfl rfl) (.refl s)
    · exact .refl s
  · exact (openDrawers_frame _ s).keepsOrder (by decide)
  all_goals exact .refl s

theorem replayList_keepsOrder (l : List Nat) : ∀ s, KeepsOrder s (replayList l s).1 := by
  induction l with
  | nil => exact KeepsOrder.refl
  | cons q rest ih =>
    intro s
    unfold replayList
    split
    · exact (replayRecord_keepsOrder _ s).trans (ih _)
    · exact (storeCheckFault_frame _ s).keepsOrder (by decide)

theorem finishRestore_keepsOrder (l : List Nat) (s : State) : KeepsOrder s (finishRestore l s) := by
  have marks (u : State) : KeepsOrder u (recomputeMarks u) :=
    .foldl (fun u n => (evaluateExcess_frame n u).keepsOrder (by decide)) _ u
  have sending (u : State) : KeepsOrder u (endSending u) := .ite _ (setDayState_keepsOrder _ u) (.refl u)
  have noted : KeepsOrder s (noteReplay l s) := (noteReplay_frame l s).keepsOrder (by decide)
  have settled (u : State) : KeepsOrder u (powerUpPlu (restoreTransfers (settleReserved u))) := .of_eq rfl rfl rfl rfl
  have shown (u : State) : KeepsOrder u (powerUpScu (powerUpPrinters false u)) := .of_eq rfl rfl rfl rfl
  exact .after (shown _) (.after (sending _) (.after (marks _) (noted.trans (settled _))))

theorem enterInvalid_keepsOrder (s : State) : KeepsOrder s (enterInvalid s) :=
  ⟨fun a => ⟨formatStore_stands _, fun x e => by cases e; exact a.1⟩, id⟩

theorem restore_keepsOrder (s : State) : KeepsOrder s (restore s) := by
  unfold restore
  split
  · have replayed := replayList_keepsOrder s.store.day.openCommits s
    dsimp only
    split <;> rename_i e <;> rw [e] at replayed
    · exact replayed.trans (finishRestore_keepsOrder _ _)
    · exact replayed.trans (enterInvalid_keepsOrder _)
  · exact enterInvalid_keepsOrder s

theorem findClock_keepsOrder (s : State) : KeepsOrder s (findClock s) := by
  refine .ite _ (.refl s) (.after ((captureFault_frame _ _ _ _).keepsOrder (by decide)) ⟨id, fun _ => ?_⟩)
  exact ⟨Nat.zero_lt_succ _, Nat.zero_lt_succ _⟩

theorem powerUp_keepsOrder (battery : Bool) (s : State) : KeepsOrder s (powerUp battery s) := by
  have opened : KeepsOrder s (openStore { loseVolatile s with power := .up }) := by
    refine ⟨fun a => ⟨?_, fun x e => nomatch (show none = some x from e)⟩, id⟩
    show sequencesStand (s.kept.getD s.store)
    cases k : s.kept with
    | none => exact a.1
    | some x => exact a.2 x k
  have lost (u : State) : KeepsOrder u (loseBattery u) := ⟨fun a => a, id⟩
  exact .after (restore_keepsOrder _) (.after (findClock_keepsOrder _) (.ite _ opened (opened.trans (lost _))))

/-! ### Every command -/

theorem rateSet_keepsOrder (r : RateReq) (s : State) : KeepsOrder s (rateSetTaken r s).state :=
  .after ((report_frame _ _).keepsOrder (by decide)) (commitBoard_keepsOrder _ _ _ s)

theorem warnPower_keepsOrder (s : State) : KeepsOrder s (if s.power = .up then warnPower s else s) := by
  have shut (u : State) : KeepsOrder u { setLineReady false (stopPrinters (abandonRequests u)) with power := .shut } :=
    .of_eq rfl rfl rfl rfl
  exact .ite _ (((finishDelivery_keepsOrder s).trans (shut _)).trans (takeWaiting_keepsOrder _)) (.refl s)

/-- Each command keeps the order of the journal and the ranges of the clock: those that append, apply or clear records,
set or advance the clock, format or restore, by their own laws, and every other because its frame leaves both out. -/
theorem exec_keepsOrder (i : Instr) {s t : State} (e : exec i s = .next t) : KeepsOrder s t := by
  cases i with
  | currencyDefine h r => cases e; exact framed_keepsOrder h _ (currencyDefine_state_frame _) (by decide) s
  | drawerSignon h r => cases e; exact framed_keepsOrder h _ (drawerSignon_state_frame h r) (by decide) s
  | drawerSignoff h position => cases e; exact framed_keepsOrder h _ (drawerSignoff_state_frame position) (by decide) s
  | drawerLimits h r => cases e; exact framed_keepsOrder h _ (drawerLimits_state_frame _) (by decide) s
  | drawerCount h r => cases e; exact request_keepsOrder h _ (drawerCount_keepsOrder r) s
  | drawerAccept h drawer => cases e; exact request_keepsOrder h _ (drawerAccept_keepsOrder drawer) s
  | drawerEnquire h drawer => cases e; exact framed_keepsOrder h _ (drawerEnquire_state_frame _ _) (by decide) s
  | cashPost h r => cases e; exact request_keepsOrder h _ (cashPost_keepsOrder r) s
  | cashReverse h r => cases e; exact carry_keepsOrder h _ (cashReverse_keepsOrder h r) s
  | rateSet h r => cases e; exact request_keepsOrder h _ (rateSet_keepsOrder r) s
  | feeSet h r => cases e; exact request_keepsOrder h _ (fun u => commitBoard_keepsOrder _ _ _ u) s
  | quoteRequest h r => cases e; exact framed_keepsOrder h _ (quoteRequest_state_frame _) (by decide) s
  | quoteRelease h r => cases e; exact framed_keepsOrder h _ (quoteRelease_state_frame _) (by decide) s
  | transferOffer h r => cases e; exact request_keepsOrder h _ (fun u => commitOffer_keepsOrder _ _ _ u) s
  | transferAccept h r => cases e; exact carry_keepsOrder h _ (transferAccept_keepsOrder h r) s
  | transferDecline h number => cases e; exact request_keepsOrder h _ (transferDecline_keepsOrder number) s
  | vaultReceive h r => cases e; exact request_keepsOrder h _ (vault_keepsOrder _ r _) s
  | vaultDispatch h r => cases e; exact request_keepsOrder h _ (vault_keepsOrder _ r _) s
  | journalRead h r => cases e; exact framed_keepsOrder h _ (journalRead_state_frame _ _) (by decide) s
  | storeFormat h => cases e; exact request_keepsOrder h _ storeFormat_keepsOrder s
  | classSet h r => cases e; exact framed_keepsOrder h _ (classSet_state_frame _) (by decide) s
  | passbookEnquire h r => cases e; exact framed_keepsOrder h _ (passbookEnquire_state_frame _) (by decide) s
  | passbookNewbook h r => cases e; exact framed_keepsOrder h _ (passbookNewbook_state_frame _) (by decide) s
  | printStart h r => cases e; exact framed_keepsOrder h _ (printStart_state_frame _) (by decide) s
  | printCancel h r => cases e; exact framed_keepsOrder h _ (printCancel_state_frame _) (by decide) s
  | printerPace h r => cases e; exact framed_keepsOrder h _ (printerPace_state_frame _) (by decide) s
  | printerReset h printer => cases e; exact framed_keepsOrder h _ (printerReset_state_frame _) (by decide) s
  | rowClaim h => cases e; exact framed_keepsOrder h _ (rowClaim_state_frame _) (by decide) s
  | rowFree h buffer => cases e; exact framed_keepsOrder h _ (rowFree_state_frame _) (by decide) s
  | rowWrite h r => cases e; exact framed_keepsOrder h _ (rowWrite_state_frame _) (by decide) s
  | mapSet h r => cases e; exact framed_keepsOrder h _ (mapSet_state_frame _) (by decide) s
  | fieldBind h r => cases e; exact framed_keepsOrder h _ (fieldBind_state_frame _) (by decide) s
  | screenActivity h position => cases e; exact framed_keepsOrder h _ (screenActivity_state_frame _) (by decide) s
  | screenUnlock h r => cases e; exact framed_keepsOrder h _ (screenUnlock_state_frame _) (by decide) s
  | screenSettings h r => cases e; exact framed_keepsOrder h _ (screenSettings_state_frame _) (by decide) s
  | dayOpen h date => cases e; exact request_keepsOrder h _ (dayOpen_keepsOrder date) s
  | dayClose h => cases e; exact request_keepsOrder h _ dayClose_keepsOrder s
  | dayReopen h => cases e; exact request_keepsOrder h _ dayReopen_keepsOrder s
  | daySeal h => cases e; exact request_keepsOrder h _ daySeal_keepsOrder s
  | daySend h => cases e; exact request_keepsOrder h _ daySend_keepsOrder s
  | dayClear h => cases e; exact request_keepsOrder h _ dayClear_keepsOrder s
  | lineSettings h r => cases e; exact framed_keepsOrder h _ (lineSettings_state_frame _) (by decide) s
  | positionBind h r => cases e; exact framed_keepsOrder h _ (positionBind_state_frame r) (by decide) s
  | portSettings h burst => cases e; exact framed_keepsOrder h _ (portSettings_state_frame _) (by decide) s
  | faultRead h => cases e; exact request_keepsOrder h _ .refl s
  | faultClear h => cases e; exact framed_keepsOrder h _ faultClear_state_frame (by decide) s
  | clockSet h r => cases e; exact carry_keepsOrder h _ (clockSet_keepsOrder h r) s
  | partStatus h => cases e; exact framed_keepsOrder h _ partStatus_state_frame (by decide) s
  | postAreaWrite m offset w => exact (execPostAreaWrite_frame m offset w e).keepsOrder (by decide)
  | postWord m w => exact (execPostWord_frame m w e).keepsOrder (by decide)
  | responseTake r => exact (execResponseTake_frame r e).keepsOrder (by decide)
  | portStatusRead m => exact (execPortStatusRead_frame m e).keepsOrder (by decide)
  | noticeTake m => exact (execNoticeTake_frame m e).keepsOrder (by decide)
  | noticeEnd m => exact (execNoticeEnd_frame m e).keepsOrder (by decide)
  | requestHandout => exact (execRequestHandout_frame e).keepsOrder (by decide)
  | powerWarning => cases e; exact warnPower_keepsOrder s
  | powerWarningWithdrawn => cases e; exact .ite _ (powerUp_keepsOrder true s) (.refl s)
  | powerUp battery => cases e; exact powerUp_keepsOrder battery s
  | backplaneReset => exact (execBackplaneReset_frame e).keepsOrder (by decide)
  | secondTick => exact secondTick_keepsOrder e
  | quoteTimeExpiry number => exact (execQuoteTimeExpiry_frame number e).keepsOrder (by decide)
  | transferTimeout number =>
    cases e
    exact .ite _ (unlessWaits_keepsOrder _ (timeoutTransfer_keepsOrder number s)) (.refl s)
  | idleCountExpiry position => exact (execIdleCountExpiry_frame position e).keepsOrder (by decide)
  | rowSend screen => exact (execRowSend_frame screen e).keepsOrder (by decide)
  | callWaitExpiry => exact (execCallWaitExpiry_frame e).keepsOrder (by decide)
  | responseTimerExpiry => cases e; exact unlessWaits_keepsOrder _ (.ite _ (callTimesOut_keepsOrder s) (.refl s))
  | endTimerExpiry => cases e; exact unlessWaits_keepsOrder _ (.ite _ (endTimesOut_keepsOrder s) (.refl s))
  | blockAgeTimeout => cases e; exact unlessWaits_keepsOrder _ (blockAgeDue_keepsOrder s)
  | deliver => cases e; exact .ite _ (deliver_keepsOrder s) (.refl s)
  | mainSupplyFall => exact (execMainSupplyFall_frame e).keepsOrder (by decide)
  | ackTimerExpiry | probeTimerExpiry | rowAck | probeAnswer | ready | busy | ack | nak | closed
  | unknownFrame | bookPresent | bookRemoved | topEdge | stepLimit | stripeReadComplete | stripeWriteComplete
  | lineDone | headHome | ejectDone | jamTimerExpiry =>
    cases e; exact serve_keepsOrder _ s

end Sys2Proof.Machine

open Sys2Proof Sys2Proof.Machine

/-- Settles O9, by the case split over the commands in `exec_keepsOrder`. -/
theorem journalOrderAndClockRangesAreKept : Obligations.JournalOrderAndClockRangesAreKept := by
  unfold Obligations.JournalOrderAndClockRangesAreKept
  intro s t e
  unfold step at e
  split at e
  · cases e; exact ⟨id, id⟩
  · have kept := exec_keepsOrder _ e
    exact ⟨kept.journal, kept.clock⟩
end

section
/-! SUPPORT. The sender's expiries taken at once or not at all (R159, R171 to R174). -/

namespace Sys2Proof.Machine

/-! ### Whether an expiry is taken -/

/-- An operation at two units is taken at once where both are free. -/
theorem takenAt_two {s : State} {u v : UnitName} (hu : UnitFree s u) (hv : UnitFree s v) : TakenAt s [u, v] :=
  takenAt_cons.mpr ⟨fun _ => hu, takenAt_cons.mpr ⟨fun _ => hv, takenAt_nil s⟩⟩

theorem takenAt_one {s : State} {u : UnitName} (hu : UnitFree s u) : TakenAt s [u] :=
  takenAt_cons.mpr ⟨fun _ => hu, takenAt_nil s⟩

/-- One unit that is not free holds the operation back. -/
theorem not_takenAt {s : State} (up : s.power = .up) {units : List UnitName} {u : UnitName} (hu : u ∈ units)
    (busy : ¬UnitFree s u) : ¬TakenAt s units := fun h => busy (h up u hu)

/-- The units of BLOCK_AGE_TIMEOUT (R100, R173). -/
theorem execBlockAgeTimeout_eq (s : State) : ∃ units, exec .blockAgeTimeout s = .next (unlessWaits units blockAgeDue s) ∧
    .dlu ∈ units ∧ (readsCarry s (blockAgeDue s) = true → .plu ∈ units) ∧ ∀ u ∈ units, u = .dlu ∨ u = .plu := by
  refine ⟨_, rfl, ?_, ?_, ?_⟩ <;> split <;> simp_all

/-- While the Day and Line Unit is taken no expiry of the sender changes anything. -/
theorem senderExpiry_waits {s : State} (up : s.power = .up) (busy : ¬UnitFree s .dlu) {i : Instr}
    (hi : i ∈ [Instr.callWaitExpiry, .responseTimerExpiry, .endTimerExpiry, .blockAgeTimeout]) : exec i s = .next s := by
  have one (f : State → State) : unlessWaits [.dlu] f s = s :=
    unlessWaits_waits f (not_takenAt up (List.mem_singleton_self _) busy)
  simp only [List.mem_cons, List.not_mem_nil, or_false] at hi
  obtain rfl | rfl | rfl | rfl := hi
  · exact congrArg Host.Outcome.next (one callWaitDue)
  · exact congrArg Host.Outcome.next (one responseTimerDue)
  · exact congrArg Host.Outcome.next (one endTimerDue)
  · obtain ⟨units, e, dlu, -⟩ := execBlockAgeTimeout_eq s
    rw [e, unlessWaits_waits _ (not_takenAt up dlu busy)]

/-! ### What each expiry comes to -/

/-- With the timer at its last second or less (R171, R174). -/
theorem timerDue_iff {s : State} : timerDue s = true ↔ ∃ n, s.sender.timer = some n ∧ n ≤ 1 := by
  unfold timerDue
  cases s.sender.timer <;> simp

theorem callWaitDue_eq {s : State} (up : s.power = .up) :
    callWaitDue s = if s.sender.state = .calling ∧ s.sender.wait.getD 0 ≤ 1 then sendCall s else s := by
  unfold callWaitDue waitEnds
  by_cases ready : s.sender.wait.getD 0 ≤ 1 <;> by_cases calling : s.sender.state = .calling <;>
    simp [up, ready, calling]

theorem responseTimerDue_eq {s : State} (up : s.power = .up) : responseTimerDue s =
    if s.sender.state = .waitReady ∧ ∃ n, s.sender.timer = some n ∧ n ≤ 1 then callTimesOut s else s := by
  simp [responseTimerDue, up, timerDue_iff]

theorem endTimerDue_eq {s : State} (up : s.power = .up) : endTimerDue s =
    if s.sender.state = .waitClosed ∧ ∃ n, s.sender.timer = some n ∧ n ≤ 1 then endTimesOut s else s := by
  simp [endTimerDue, up, timerDue_iff]

/-- The oldest outstanding block at its timeout is retried (R173). -/
theorem blockAgeDue_retried {s : State} (up : s.power = .up) (sending : s.sender.state = .sending) {b : OutBlock}
    (oldest : s.sender.outstanding.head? = some b) (due : b.limit ≤ b.age + 1) : Retried s (blockAgeDue s) b := by
  have e : blockAgeDue s = retryBlock b.block s := by
    simp [blockAgeDue, up, sending, oldestBlock, oldest, agesOut, due]
  obtain ⟨l, hl⟩ := List.head?_eq_some_iff.mp oldest
  rw [e]
  exact retryBlock_retried up sending hl

theorem blockAgeDue_none {s : State} (h : s.sender.state ≠ .sending ∨
    ¬∃ b, s.sender.outstanding.head? = some b ∧ b.limit ≤ b.age + 1) : blockAgeDue s = s := by
  unfold blockAgeDue oldestBlock agesOut
  split
  · rename_i sending
    split
    · rename_i b oldest
      refine if_neg fun due => ?_
      exact (h.resolve_left (· sending.2)) ⟨b, oldest, by simpa using due⟩
    · rfl
  · rfl

end Sys2Proof.Machine

open Sys2Proof Sys2Proof.Machine

/-- Settles O60: each expiry is had at once where its units are free, and its effect where it is due is the one the second
tick has (`callTimesOut_sent`, `endTimesOut_sent`, `retryBlock_retried`). -/
theorem senderExpiriesResendOrFail : Obligations.SenderExpiriesResendOrFail := by
  unfold Obligations.SenderExpiriesResendOrFail
  intro s up x due timed
  have carry := execBlockAgeTimeout_eq s
  refine ⟨fun busy i => senderExpiry_waits up busy, fun busy reads => ?_, fun dlu => ?_⟩
  · obtain ⟨units, e, -, plu, -⟩ := carry
    rw [e, unlessWaits_waits _ (not_takenAt up (plu reads) busy)]
  · have taken (f : State → State) : unlessWaits [.dlu] f s = f s := unlessWaits_taken f (takenAt_one dlu)
    have call : exec .callWaitExpiry s = .next (callWaitDue s) := congrArg Host.Outcome.next (taken callWaitDue)
    have response : exec .responseTimerExpiry s = .next (responseTimerDue s) :=
      congrArg Host.Outcome.next (taken responseTimerDue)
    have ends : exec .endTimerExpiry s = .next (endTimerDue s) := congrArg Host.Outcome.next (taken endTimerDue)
    refine ⟨⟨fun state ready => ⟨_, call, ?_⟩, fun other => ?_⟩, ⟨fun state ready => ⟨_, response, ?_⟩, fun other => ?_⟩,
      ⟨fun state ready => ⟨_, ends, ?_⟩, fun other => ?_⟩, fun plu => ⟨fun state ready => ?_, fun other => ?_⟩⟩
    · rw [callWaitDue_eq up, if_pos ⟨state, ready⟩]
      exact sendCall_sent s
    · rw [call, callWaitDue_eq up, if_neg (not_and_or.mpr other)]
    · rw [responseTimerDue_eq up, if_pos ⟨state, ready⟩]
      exact callTimesOut_sent up
    · rw [response, responseTimerDue_eq up, if_neg (not_and_or.mpr other)]
    · rw [endTimerDue_eq up, if_pos ⟨state, ready⟩]
      exact endTimesOut_sent up
    · rw [ends, endTimerDue_eq up, if_neg (not_and_or.mpr other)]
    all_goals
      obtain ⟨units, e, -, -, both⟩ := carry
      have free : TakenAt s units := fun _ u hu => by
        rcases both u hu with rfl | rfl
        · exact dlu
        · exact plu
      rw [unlessWaits_taken _ free] at e
    · obtain ⟨b, oldest, age⟩ := ready
      refine ⟨_, e, fun c hc => ?_⟩
      obtain rfl : b = c := Option.some.inj (oldest.symm.trans hc)
      exact blockAgeDue_retried up state oldest age
    · rw [e, blockAgeDue_none other]
end

section
/-! SUPPORT. Frames from head office as they are taken: whether a frame waits (R100, R159, R169), and what each kind of
frame comes to (R170 to R174, R193). -/

namespace Sys2Proof.Machine

/-! ### Whether a frame is taken or waits -/

/-- The commands that bring what head office sends. -/
def fromHeadOffice : Instr → Bool
  | .ready _ _ | .busy _ | .ack _ _ | .nak _ _ | .closed _ _ | .unknownFrame _ => true
  | _ => false

theorem exec_fromHeadOffice {i : Instr} (hi : fromHeadOffice i = true) (s : State) :
    exec i s = .next (takeEvent i s) := by
  cases i <;> first | rfl | exact Bool.noConfusion hi

/-- What head office sends leaves the jobs as they are. -/
theorem eventEffect_pru {i : Instr} (hi : fromHeadOffice i = true) (s : State) : (eventEffect i s).pru = s.pru := by
  cases i
  case ready e c => exact (readyArrives_frame e c s).get .pru (by decide)
  case busy c => exact (busyArrives_frame c s).get .pru (by decide)
  case ack b c => exact (ackArrives_frame b c s).get .pru (by decide)
  case nak b c => exact (nakArrives_frame b c s).get .pru (by decide)
  case closed l c => exact (closedArrives_frame l c s).get .pru (by decide)
  case unknownFrame l => exact (unknownArrives_frame l s).get .pru (by decide)
  all_goals exact Bool.noConfusion hi

theorem asksForJob_same {s t : State} (h : t.pru = s.pru) : asksForJob s t = false := by
  simp only [asksForJob, h, List.any_eq_false, Table.entries, List.mem_map]
  rintro _ ⟨i, -, rfl⟩
  cases s.pru.jobs.get i <;> simp

/-- A frame is taken at the Day and Line Unit, and at the Passbook Line Unit where it sends a block of the carry-over
section (R100, R159, R169). -/
theorem unitsAsked_fromHeadOffice {i : Instr} (hi : fromHeadOffice i = true) (s : State) :
    unitsAsked (.event i) s = if readsCarry s (eventEffect i s) = true then [.dlu, .plu] else [.dlu] := by
  have unit : eventUnit i = .dlu := by cases i <;> first | rfl | exact Bool.noConfusion hi
  have entry : readsEntry i s = false := by cases i <;> first | rfl | exact Bool.noConfusion hi
  simp [unitsAsked, unit, entry, asksForJob_same (eventEffect_pru hi s)]

theorem fromHeadOffice_taken {i : Instr} (hi : fromHeadOffice i = true) {s : State} (dlu : UnitFree s .dlu)
    (plu : readsCarry s (eventEffect i s) = true → UnitFree s .plu) : exec i s = .next (eventEffect i s) := by
  rw [exec_fromHeadOffice hi, takeEvent, serve_taken]
  · rfl
  · rw [unitsAsked_fromHeadOffice hi]
    split
    · exact takenAt_two dlu (plu ‹_›)
    · exact takenAt_one dlu

theorem fromHeadOffice_waits {i : Instr} (hi : fromHeadOffice i = true) {s : State} (up : s.power = .up)
    (reads : readsCarry s (eventEffect i s) = true) (plu : ¬UnitFree s .plu) : exec i s = .next (ask (.event i) s) := by
  rw [exec_fromHeadOffice hi, takeEvent, serve_waits]
  rw [unitsAsked_fromHeadOffice hi, if_pos reads]
  exact not_takenAt up (by simp) plu

/-- Where the frames sent are of another kind than BLOCK, no block of the carry-over section has been read. -/
theorem readsCarry_of_others {s t : State} {l : List Frame} (h : t.out.line = s.out.line ++ l)
    (other : ∀ f ∈ l, f.kind ≠ 2) : readsCarry s t = false := by
  simp only [readsCarry, h, List.drop_left, List.any_eq_false]
  intro f hf
  simp [other f hf]

theorem readsCarry_of_line {s t : State} (h : t.out.line = s.out.line) : readsCarry s t = false :=
  readsCarry_of_others (l := []) (by rw [h, List.append_nil]) (by simp)

/-- A frame that sends nothing is taken where the Day and Line Unit is free. -/
theorem fromHeadOffice_quiet {i : Instr} (hi : fromHeadOffice i = true) {s t : State} (dlu : UnitFree s .dlu)
    (effect : eventEffect i s = t) (line : t.out.line = s.out.line) : exec i s = .next t := by
  rw [fromHeadOffice_taken hi dlu, effect]
  rw [effect, readsCarry_of_line line]
  exact fun h => Bool.noConfusion h

/-! ### Frames that are dropped or counted (R170) -/

theorem listens_iff {s : State} : listening s = true ↔ Listens s := by
  unfold listening Listens
  cases s.sender.state <;> simp

theorem takeFrame_taken {f : Frame} {check : Word} {s : State} (up : s.power = .up) (good : check = f.check)
    (hears : Listens s) (k : State → State) : takeFrame f check k s = k s :=
  if_pos ⟨up, good, listens_iff.mpr hears⟩

theorem takeFrame_dropped {f : Frame} {check : Word} {s : State} (bad : ¬check = f.check ∨ ¬Listens s)
    (k : State → State) : takeFrame f check k s = s :=
  if_neg fun ⟨_, good, hears⟩ => bad.elim (· good) (· (listens_iff.mp hears))

theorem anomaly_anomalous (s : State) : Anomalous s (anomaly s) := rfl

/-! ### The sender stopped, and its frames -/

theorem failSender_line (reason : SendFailure) (s : State) : (failSender reason s).out.line = s.out.line := by
  rw [failSender_eq, stopSender_out]
  have fault : (failureFault reason s).out = s.out := (failureFault_frame reason s).get .out (by decide)
  rw [fault]

/-! ### Blocks that fill the window (R172) -/

/-- The block after those listed, or k + 1 (R172). -/
def blockAfter (s : State) (l : List OutBlock) : Nat :=
  (l.getLast?.map fun b => b.block + 1).getD (s.store.day.ackThrough + 1)

/-- A block as it becomes outstanding (R170, R172). -/
def newBlock (s : State) (b : Nat) : OutBlock := ⟨b, 0, 0, s.store.lineSettings.timeout⟩

theorem sendNext_eq {s : State} (sending : s.sender.state = .sending) (l : List OutBlock) :
    sendNext (withOutstanding l s) =
      if l.length < 2 ∧ blockAfter s l ≤ totalBlocks s then
        sendBlock (blockAfter s l) (withOutstanding (l ++ [newBlock s (blockAfter s l)]) s)
      else withOutstanding l s := by
  have state : (withOutstanding l s).sender.state = .sending := sending
  unfold sendNext
  simp only [state, true_and]
  rfl

theorem blocksToSend_none {s : State} {l : List OutBlock}
    (h : ¬(l.length < 2 ∧ blockAfter s l ≤ totalBlocks s)) :
    blocksToSend l s.store.day.ackThrough (totalBlocks s) = [] := by
  unfold blocksToSend
  refine List.filter_eq_nil_iff.mpr fun b hb => ?_
  obtain ⟨i, hi, rfl⟩ := List.mem_map.mp hb
  have room : l.length < 2 := by
    have := List.mem_range.mp hi
    omega
  have beyond : ¬blockAfter s l ≤ totalBlocks s := fun k => h ⟨room, k⟩
  unfold blockAfter at beyond
  simp only [decide_eq_true_eq]
  omega

theorem blocksToSend_one {s : State} {l : List OutBlock} (room : l.length < 2)
    (low : blockAfter s l ≤ totalBlocks s) (full : ¬(l.length + 1 < 2 ∧ blockAfter s l + 1 ≤ totalBlocks s)) :
    blocksToSend l s.store.day.ackThrough (totalBlocks s) = [blockAfter s l] := by
  unfold blocksToSend
  change List.filter _ ((List.range (2 - l.length)).map (blockAfter s l + ·)) = _
  obtain h | h : l.length = 1 ∨ l.length = 0 := by omega
  · simp [h, low]
  · have high : ¬blockAfter s l + 1 ≤ totalBlocks s := fun k => full ⟨by omega, k⟩
    simp [h, List.range_succ, low, high]

theorem blocksToSend_two {s : State} {l : List OutBlock} (room : l.length + 1 < 2)
    (low : blockAfter s l + 1 ≤ totalBlocks s) :
    blocksToSend l s.store.day.ackThrough (totalBlocks s) = [blockAfter s l, blockAfter s l + 1] := by
  unfold blocksToSend
  change List.filter _ ((List.range (2 - l.length)).map (blockAfter s l + ·)) = _
  have h : l.length = 0 := by omega
  have first : blockAfter s l ≤ totalBlocks s := by omega
  simp [h, List.range_succ, low, first]

theorem blockAfter_snoc (s : State) (l : List OutBlock) (b : Nat) : blockAfter s (l ++ [newBlock s b]) = b + 1 := by
  simp [blockAfter, newBlock]

theorem sendNext_stopped {s : State} (h : s.sender.state = .failed) : sendNext s = s :=
  if_neg fun k => by simp [h] at k

/-- Filling the window sends the blocks that it still admits, up to the first that is built from an unsound record
(R169, R172). -/
theorem fillWindow_sent {s : State} (up : s.power = .up) (sending : s.sender.state = .sending) (l : List OutBlock) :
    let new := blocksToSend l s.store.day.ackThrough (totalBlocks s)
    BlocksSent (withOutstanding (l ++ new.map (newBlock s)) s) (fillWindow (withOutstanding l s)) new := by
  intro new
  let b := blockAfter s l
  by_cases first : l.length < 2 ∧ b ≤ totalBlocks s
  case neg =>
    have none : sendNext (withOutstanding l s) = withOutstanding l s := (sendNext_eq sending l).trans (if_neg first)
    have empty : new = [] := blocksToSend_none first
    rw [fillWindow, none, none, empty]
    exact blocksSent_of_sound rfl (by simp [emitted_nil])
  have one : sendNext (withOutstanding l s) = sendBlock b (withOutstanding (l ++ [newBlock s b]) s) :=
    (sendNext_eq sending l).trans (if_pos first)
  have starts : ∃ rest, new = b :: rest := by
    by_cases second : l.length + 1 < 2 ∧ b + 1 ≤ totalBlocks s
    · exact ⟨_, blocksToSend_two second.1 second.2⟩
    · exact ⟨_, blocksToSend_one first.1 first.2 second⟩
  rw [fillWindow, one]
  cases sound : failingRecord s b with
  | some r =>
    rw [sendBlock_unsound (by exact sound), sendNext_stopped (by rw [stopSender_sender])]
    obtain ⟨rest, e⟩ := starts
    refine blocksSent_of_unsound (before := []) (r := r) ?_ ?_
    · rw [firstUnsound_withOutstanding, e, firstUnsound_cons, sound]
    · rw [emitted_nil]
      exact (stopSender_captured _ _ _ _ (by exact up)).withOutstanding _
  | none =>
    rw [sendBlock_sound (by exact sound)]
    let sent := emitLine (blockFrame s b) s
    have next : sendNext (withOutstanding (l ++ [newBlock s b]) sent) =
        if l.length + 1 < 2 ∧ b + 1 ≤ totalBlocks s then
          sendBlock (b + 1) (withOutstanding (l ++ [newBlock s b] ++ [newBlock s (b + 1)]) sent)
        else withOutstanding (l ++ [newBlock s b]) sent := by
      have e := sendNext_eq (s := sent) sending (l ++ [newBlock s b])
      have after : blockAfter sent (l ++ [newBlock s b]) = b + 1 := blockAfter_snoc s l b
      rw [after, List.length_append] at e
      exact e
    change BlocksSent _ (sendNext (withOutstanding (l ++ [newBlock s b]) sent)) _
    rw [next]
    by_cases second : l.length + 1 < 2 ∧ b + 1 ≤ totalBlocks s
    case neg =>
      have single : new = [b] := blocksToSend_one first.1 first.2 second
      rw [if_neg second, single]
      refine blocksSent_of_sound ?_ rfl
      rw [firstUnsound_withOutstanding, firstUnsound_cons, sound]; rfl
    case pos =>
      have both : new = [b, b + 1] := blocksToSend_two second.1 second.2
      rw [if_pos second, both, List.append_assoc]
      cases sound' : failingRecord s (b + 1) with
      | some r =>
        rw [sendBlock_unsound (by exact sound')]
        refine blocksSent_of_unsound (before := [b]) (r := r) ?_ ?_
        · rw [firstUnsound_withOutstanding, firstUnsound_cons, sound, firstUnsound_cons, sound']; rfl
        · exact stopSender_captured _ _ _ _ (by exact up)
      | none =>
        rw [sendBlock_sound (by exact sound')]
        refine blocksSent_of_sound ?_ (emitted_two b (b + 1) (withOutstanding _ s)).symm
        rw [firstUnsound_withOutstanding, firstUnsound_cons, sound, firstUnsound_cons, sound']; rfl

/-- From an acknowledgement the transfer goes on (R171, R172). -/
theorem goOn_goesOn {s : State} (up : s.power = .up) (k : Nat) {x : Sender} (sending : x.state = .sending) :
    TransferGoesOn s (goOn (modifySender (fun _ => x) (setAckThrough k s))) k x.outstanding x := by
  unfold TransferGoesOn goOn
  dsimp only
  have through : ackThrough (modifySender (fun _ => x) (setAckThrough k s)) = k := rfl
  have total : totalBlocks (modifySender (fun _ => x) (setAckThrough k s)) = totalBlocks s := rfl
  rw [through, total]
  split
  · exact sendEnd_sent 1 _
  · exact fillWindow_sent (s := modifySender (fun _ => x) (setAckThrough k s)) up sending x.outstanding

/-- A retry of an outstanding block found by its number (R173). -/
theorem retryBlock_found {s : State} (up : s.power = .up) (sending : s.sender.state = .sending) {n : Nat} {b : OutBlock}
    (found : (s.sender.outstanding.find? fun x => x.block == n) = some b) : Retried s (retryBlock n s) b := by
  have own : b.block = n := by simpa using List.find?_some found
  subst own
  have retries : retriesOf s b.block = b.retries := by simp [retriesOf, found]
  have here : (s.sender.outstanding.any fun x => x.block == b.block) = true :=
    List.any_eq_true.mpr ⟨b, List.mem_of_find?_eq_some found, by simp⟩
  unfold Retried
  rw [retryBlock_eq, retries]
  dsimp only
  split
  · exact failSender_failed (by decide) up
  · exact resent_blocksSent up sending here

/-! ### The day delivered (R174) -/

/-- No fault is captured. -/
theorem takeClosed_faultless (reference : List Byte) (s : State) :
    UnchangedBut [.sender, .out, .day, .buffers, .screens, .windows, .inExecution] s (takeClosed reference s) := by
  simp (maxDischargeDepth := 30) [takeClosed]

theorem takeClosed_reportsAlone (reference : List Byte) (s : State) : ReportsAlone s (takeClosed reference s) :=
  .after (raiseTo_reportsAlone _ _ _) (.after (dayChanged_reportsAlone _ _) (.of_eq rfl rfl rfl rfl))

theorem takeClosed_sender (reference : List Byte) (s : State) :
    (takeClosed reference s).sender = { s.sender with state := .done, timer := none } := by
  simp only [takeClosed, raiseOfficer, dayChanged, raiseTo_sender, report_sender]
  rfl

theorem takeClosed_out (reference : List Byte) (s : State) :
    (takeClosed reference s).out = { s.out with lineReady := false } := by
  simp only [takeClosed, raiseOfficer, dayChanged, raiseTo_out, report_out]
  rfl

theorem takeClosed_day (reference : List Byte) (s : State) : (takeClosed reference s).store.day =
    { s.store.day with reference := some reference, state := .delivered } := by
  simp only [takeClosed, raiseOfficer, dayChanged, raiseTo_store, report_store]
  rfl

theorem takeClosed_windows (reference : List Byte) {s : State} (up : s.power = .up) :
    (takeClosed reference s).port.windows = notify [(officerMaster, .dayChanged .delivered),
      (officerMaster, .delivered reference)] s.port.windows := by
  have told (d : Detail) {t : State} (up : t.power = .up) :
      (raiseOfficer d t).port.windows = notify [(officerMaster, d)] t.port.windows := by
    rw [raiseOfficer_up _ up]; rfl
  rw [takeClosed, told _ (by rw [dayChanged, report_power]; simpa [raiseOfficer] using up), dayChanged,
    report_port_windows, told _ (by exact up)]
  rfl

theorem referenceOk_iff {reference : List Byte} : referenceOk reference = true ↔
    1 ≤ reference.length ∧ reference.length ≤ 16 ∧ ∀ b ∈ reference, 32 ≤ b.toNat ∧ b.toNat ≤ 126 := by
  simp [referenceOk, between, and_assoc]

theorem isOutstanding_iff {s : State} {n : Nat} : isOutstanding s n = true ↔
    s.sender.state = .sending ∧ ∃ b ∈ s.sender.outstanding, b.block = n := by
  simp [isOutstanding]

/-! ### Each frame, good and bad -/

/-- A frame that the sender does not take changes nothing. -/
theorem fromHeadOffice_drops {i : Instr} (hi : fromHeadOffice i = true) {s : State} (dlu : UnitFree s .dlu)
    (same : eventEffect i s = s) : exec i s = .next s := fromHeadOffice_quiet hi dlu same rfl

/-- A frame that the state does not take is counted (R170). -/
theorem fromHeadOffice_counts {i : Instr} (hi : fromHeadOffice i = true) {s : State} (dlu : UnitFree s .dlu)
    (counted : eventEffect i s = anomaly s) : ∃ t, exec i s = .next t ∧ Anomalous s t :=
  ⟨_, fromHeadOffice_quiet hi dlu counted rfl, anomaly_anomalous s⟩

end Sys2Proof.Machine

open Sys2Proof Sys2Proof.Machine

/-- Settles O59: every frame is taken at once where the units that it needs are free (`fromHeadOffice_taken`), and what it
comes to is `goOn_goesOn`, `retryBlock_found` or `failSender_failed`. -/
theorem headOfficeFramesAreTaken : Obligations.HeadOfficeFramesAreTaken := by
  unfold Obligations.HeadOfficeFramesAreTaken
  intro s up dlu x k Counts Drops Waits
  refine ⟨fun e check => ?_, fun check => ?_, fun n check => ?_, fun n check => ?_, fun reference check => ?_,
    fun bytes => ?_⟩
  · intro i good
    have own : fromHeadOffice i = true := rfl
    have arrives : eventEffect i s = takeFrame ⟨17, bytesOf 2 e.toNat⟩ check (fun s =>
      if s.sender.state = .waitReady then takeReady e.toNat s else anomaly s) s := rfl
    refine ⟨fun bad => fromHeadOffice_drops own dlu (arrives.trans (takeFrame_dropped bad _)),
      fun reads plu => fromHeadOffice_waits own up reads plu, fun ok hears => ?_⟩
    have effect := arrives.trans (takeFrame_taken up ok hears _)
    have zero : e = 0 ↔ e.toNat = 0 := ⟨fun h => by simp [h], fun h => BitVec.eq_of_toNat_eq h⟩
    refine ⟨fun other => fromHeadOffice_counts own dlu ?_, fun state some within plu => ?_, fun state beyond => ?_⟩
    · rw [effect]
      split
      · exact if_pos (zero.mp (other.resolve_left (· ‹_›)))
      · rfl
    · refine ⟨_, fromHeadOffice_taken own dlu fun _ => plu, ?_⟩
      rw [effect, if_pos state, takeReady, if_neg (mt zero.mpr some),
        if_neg (show ¬ackThrough s + 1 < _ from Nat.not_lt.mpr within)]
      exact goOn_goesOn up (e.toNat - 1) (x := { s.sender with state := .sending, timer := none, outstanding := [] }) rfl
    · rw [if_pos state, takeReady, if_neg (by omega), if_pos (by exact beyond)] at effect
      refine ⟨_, fromHeadOffice_taken own dlu fun reads => ?_, ?_⟩
      · have line : (eventEffect i s).out.line = s.out.line ++ [⟨4, []⟩] := by rw [effect, failSender_line]; rfl
        rw [readsCarry_of_others line (by simp)] at reads
        exact Bool.noConfusion reads
      · rw [effect]
        exact failSender_failed (by decide) (s := emitLine ⟨4, []⟩ s) up
  · intro i good
    have own : fromHeadOffice i = true := rfl
    have arrives : eventEffect i s = takeFrame ⟨18, []⟩ check (fun s =>
      if s.sender.state = .waitReady then takeBusy s else anomaly s) s := rfl
    refine ⟨fun bad => fromHeadOffice_drops own dlu (arrives.trans (takeFrame_dropped bad _)), fun ok hears => ?_⟩
    have effect := arrives.trans (takeFrame_taken up ok hears _)
    refine ⟨fun other => fromHeadOffice_counts own dlu (effect.trans (if_neg other)), fun state few => ?_,
      fun state many => ?_⟩
    · exact fromHeadOffice_quiet own dlu (effect.trans ((if_pos state).trans (if_pos few))) rfl
    · rw [if_pos state, takeBusy, if_neg (Nat.not_lt.mpr many)] at effect
      exact ⟨_, fromHeadOffice_quiet own dlu effect (failSender_line _ s), failSender_failed (by decide) up⟩
  · intro i good out kept
    have own : fromHeadOffice i = true := rfl
    have arrives : eventEffect i s = takeFrame ⟨19, bytesOf 2 n.toNat⟩ check (fun s =>
      if isOutstanding s n.toNat = true then takeAck n.toNat s else anomaly s) s := rfl
    refine ⟨fun bad => fromHeadOffice_drops own dlu (arrives.trans (takeFrame_dropped bad _)),
      fun reads plu => fromHeadOffice_waits own up reads plu, fun ok hears => ?_⟩
    have effect := arrives.trans (takeFrame_taken up ok hears _)
    refine ⟨fun other => fromHeadOffice_counts own dlu (effect.trans (if_neg (mt isOutstanding_iff.mp other))),
      fun here plu => ⟨_, fromHeadOffice_taken own dlu fun _ => plu, ?_⟩⟩
    rw [effect, if_pos (isOutstanding_iff.mpr here)]
    exact goOn_goesOn up n.toNat (x := { s.sender with outstanding := kept }) here.1
  · intro i good found
    have own : fromHeadOffice i = true := rfl
    have arrives : eventEffect i s = takeFrame ⟨20, bytesOf 2 n.toNat⟩ check (fun s =>
      if isOutstanding s n.toNat = true then retryBlock n.toNat s else anomaly s) s := rfl
    refine ⟨fun bad => fromHeadOffice_drops own dlu (arrives.trans (takeFrame_dropped bad _)),
      fun reads plu => fromHeadOffice_waits own up reads plu, fun ok hears => ?_⟩
    have effect := arrives.trans (takeFrame_taken up ok hears _)
    refine ⟨fun other => fromHeadOffice_counts own dlu (effect.trans (if_neg fun here => ?_)),
      fun b state here plu => ⟨_, fromHeadOffice_taken own dlu fun _ => plu, ?_⟩⟩
    · obtain ⟨state, b, held, number⟩ := isOutstanding_iff.mp here
      have absent := List.find?_eq_none.mp (other.resolve_left (· state)) b held
      exact absent (by simp [number])
    · have own' : b.block = n.toNat := by simpa using List.find?_some here
      rw [effect, if_pos (isOutstanding_iff.mpr ⟨state, b, List.mem_of_find?_eq_some here, own'⟩)]
      exact retryBlock_found up state here
  · intro i good ends
    have own : fromHeadOffice i = true := rfl
    have arrives : eventEffect i s = takeFrame ⟨21, bytesOf 1 reference.length ++ reference⟩ check (fun s =>
      if s.sender.state = .waitClosed ∧ referenceOk reference = true
        then takeClosed reference s else anomaly s) s := rfl
    refine ⟨fun bad => fromHeadOffice_drops own dlu (arrives.trans (takeFrame_dropped bad _)), fun ok hears => ?_⟩
    have effect := arrives.trans (takeFrame_taken up ok hears _)
    have admitted : (s.sender.state = .waitClosed ∧ referenceOk reference = true) ↔ ends :=
      and_congr_right' referenceOk_iff
    refine ⟨fun other => fromHeadOffice_counts own dlu (effect.trans (if_neg (mt admitted.mp other))), fun here => ?_⟩
    have closed := effect.trans (if_pos (admitted.mpr here))
    have out := takeClosed_out reference s
    exact ⟨_, fromHeadOffice_quiet own dlu closed (by rw [out]), takeClosed_faultless reference s,
      (takeClosed_reportsAlone reference s).rendered, takeClosed_sender reference s, out, takeClosed_day reference s,
      takeClosed_windows reference up⟩
  · intro i good
    have own : fromHeadOffice i = true := rfl
    have effect : eventEffect i s = if s.power = .up ∧ frameStands bytes = true ∧ isKnownFrame bytes = false ∧
        listening s = true then anomaly s else s := rfl
    refine ⟨fun bad => fromHeadOffice_drops own dlu (effect.trans (if_neg ?_)),
      fun ok hears => fromHeadOffice_counts own dlu (effect.trans (if_pos ⟨up, ok.1, ok.2, listens_iff.mpr hears⟩))⟩
    rintro ⟨-, stands, known, hears⟩
    exact bad.elim (· ⟨stands, known⟩) (· (listens_iff.mp hears))
end

section
/-! SUPPORT. The part after its first power-up, area by area. -/

namespace Sys2Proof.Machine

/-! ### The invariants -/

theorem reset_noticesOk : ∀ m : Master,
    noticesOk (State.reset.port.windows.get m).waiting ∧ noticesOk (State.reset.port.windows.get m).service := by
  unfold noticesOk; decide

theorem reset_portInv : PortInv State.reset where
  requests := by decide
  responses := by decide
  dropped := by decide
  waiting m := (reset_noticesOk m).1
  service m := (reset_noticesOk m).2
  lost := by decide
  delivery _ due := nomatch due
  order := by decide
  asked := rfl

theorem reset_buffers (b : BufferNo) : (State.reset.scu.buffers.get b).refs = 0 ∧
    (State.reset.scu.buffers.get b).owner = if b.val < 27 then .part else .free := by
  have own : State.reset.scu.buffers.get b = resetBuffer b := Table.get_ofFn _ b
  by_cases part : b.val < 27 <;> by_cases day : b.val = 2 <;>
    simp [own, resetBuffer, partBuffer, freeBuffer, partOwned, part, day]

/-- Every map entry is empty after the first power-up, so none names a buffer. -/
theorem reset_namings (b : BufferNo) : namings State.reset.scu b = 0 := by
  have unnamed (p : Position) : (State.reset.scu.screens.get p).map.list.count (some b) = 0 := by
    have own : State.reset.scu.screens.get p = powerUpScreen false := Table.get_fill _ p
    rw [own, List.count_eq_zero]
    simp [powerUpScreen, Table.fill]
  simp [namings, unnamed]

theorem reset_refInv : RefInv State.reset := fun b =>
  ⟨(reset_buffers b).1.trans (reset_namings b).symm, fun _ => (reset_buffers b).1⟩

theorem reset_bindInv : BindInv State.reset :=
  ⟨formatStore_agree _, fun _ kept => by cases kept; exact formatStore_agree _⟩

/-- No teller is signed on, and no idle count runs. -/
theorem reset_idleInv : IdleInv State.reset := fun _ p => by
  have none : (bindingsWaiting State.reset p).getLast? = none := rfl
  simp only [none]
  revert p; decide

theorem reset_clockInv : ClockInv State.reset := ⟨Nat.zero_lt_succ _, Nat.zero_lt_succ _⟩

theorem reset_journalInv : JournalInv State.reset :=
  ⟨formatStore_stands _, fun _ kept => by cases kept; exact formatStore_stands _⟩

/-! ### Its part rows (R140, R145) -/

/-- The live fields of a part row are a list of fields 1 to 20 wide within the row, no two of which share a column. -/
theorem partFields_listed (b : BufferNo) : ∃ l : List LiveField, partFields b = (Table.ofFn fun k => l[k.val]?) ∧
    l.Pairwise LiveField.Apart ∧ ∀ f ∈ l, 1 ≤ f.width ∧ f.width ≤ 20 ∧ f.column + f.width ≤ 80 := by
  unfold partFields LiveField.Apart
  split_ifs
  case neg => exact ⟨[], rfl, by simp, by simp⟩
  all_goals exact ⟨_, rfl, by simp, by simp⟩

theorem partFields_beyond {b : BufferNo} (beyond : ¬b.val < 27) : partFields b = Table.fill 5 none := by
  have others : b.val ≠ 0 ∧ b.val ≠ 1 ∧ b.val ≠ 2 ∧ ¬b.val < 15 := by omega
  simp [partFields, others, beyond]

theorem partFields_part {b : BufferNo} {k : Fin 5} {f : LiveField} (field : (partFields b).get k = some f) :
    b.val < 27 := by
  by_contra beyond
  rw [partFields_beyond beyond, Table.get_fill] at field
  exact nomatch field

theorem partFields_placed {b : BufferNo} {k : Fin 5} {f : LiveField} (field : (partFields b).get k = some f) :
    1 ≤ f.width ∧ f.width ≤ 20 ∧ f.column + f.width ≤ 80 := by
  obtain ⟨l, own, -, within⟩ := partFields_listed b
  rw [own, Table.get_ofFn] at field
  exact within f (List.mem_of_getElem? field)

theorem partFields_apart {b : BufferNo} {j k : Fin 5} {f g : LiveField} (first : (partFields b).get j = some f)
    (second : (partFields b).get k = some g) (other : j ≠ k) : f.Apart g := by
  obtain ⟨l, own, apart, -⟩ := partFields_listed b
  rw [own, Table.get_ofFn] at first second
  obtain ⟨below, rfl⟩ := List.getElem?_eq_some_iff.mp first
  obtain ⟨above, rfl⟩ := List.getElem?_eq_some_iff.mp second
  have ordered := List.pairwise_iff_getElem.mp apart
  rcases Nat.lt_or_gt_of_ne (Fin.val_ne_of_ne other) with before | after
  · exact ordered _ _ below above before
  · exact (ordered _ _ above below after).symm

/-- No label stands in a live field; of the day row `reset_day` speaks. -/
theorem partLabels_blank {b : BufferNo} {k : Fin 5} {f : LiveField} {i : Fin 80} (other : b.val ≠ 2)
    (field : (partFields b).get k = some f) (holds : f.Holds i) : (partLabels b).get i = blankCell := by
  have listed {l : List LiveField} (here : (Table.ofFn fun k : Fin 5 => l[k.val]?).get k = some f) : f ∈ l :=
    List.mem_of_getElem? ((Table.get_ofFn _ k).symm.trans here)
  have blank : blankRow.get i = blankCell := Table.get_fill _ i
  have clear (column : Nat) (text : String) (cells : RowCells)
      (out : i.val < column ∨ column + (codes text).length ≤ i.val) (rest : cells.get i = blankCell) :
      (putText column (codes text) cells).get i = blankCell := (putText_outside cells out).trans rest
  have lengths : (codes "C1 BUY").length = 6 ∧ (codes "C2 BUY").length = 6 ∧ (codes "C3 BUY").length = 6 ∧
    (codes "SELL").length = 4 ∧ (codes "JOB").length = 3 ∧ (codes "QUOTE").length = 5 := by decide
  obtain ⟨buy1, buy2, buy3, sell, job, quote⟩ := lengths
  obtain ⟨left, right⟩ := holds
  unfold partFields at field
  unfold partLabels
  split_ifs at field ⊢
  · rcases (by simpa using listed field) with rfl | rfl | rfl | rfl <;>
      exact clear _ _ _ (by grind) (clear _ _ _ (by grind) (clear _ _ _ (by grind) (clear _ _ _ (by grind) blank)))
  · rcases (by simpa using listed field) with rfl | rfl <;>
      exact clear _ _ _ (by grind) (clear _ _ _ (by grind) blank)
  · rcases (by simpa using listed field) with rfl | rfl <;>
      exact clear _ _ _ (by grind) (clear _ _ _ (by grind) blank)
  all_goals exact blank

theorem reset_fields (b : BufferNo) : (State.reset.scu.buffers.get b).fields = partFields b := by
  have own : State.reset.scu.buffers.get b = resetBuffer b := Table.get_ofFn _ b
  by_cases part : b.val < 27
  · by_cases day : b.val = 2 <;> simp [own, resetBuffer, partBuffer, partOwned, part, day]
  · rw [own, partFields_beyond part]
    simp [resetBuffer, freeBuffer, partOwned, part, show b.val ≠ 2 by omega]

/-- The day field shows STORE_INVALID and the clock's midnight. -/
theorem reset_day : ∀ k, ∀ f ∈ (State.reset.scu.buffers.get 2).fields.get k,
    Showing State.reset .part f (State.reset.scu.buffers.get 2).cells := by
  unfold Showing LiveField.Holds; decide +kernel

/-- Nothing is shown in the fields of the other rows: no rate stands, no quote, no job and no binding. -/
theorem reset_blank : ∀ b k, ∀ f ∈ (partFields b).get k, b.val ≠ 2 → shown State.reset .part f.source = .blank := by
  decide +kernel

/-- A part row other than the day's shows its labels alone, and a blank field shows blanks. -/
theorem reset_showing {b : BufferNo} {k : Fin 5} {f : LiveField} (field : (partFields b).get k = some f)
    (other : b.val ≠ 2) : Showing State.reset .part f (resetBuffer b).cells := fun i holds => by
  have part : b.val < 27 := partFields_part field
  have blank : shown State.reset .part f.source = .blank := reset_blank b k f field other
  have cells : (resetBuffer b).cells = partLabels b := by simp [resetBuffer, partBuffer, partOwned, part, other]
  rw [cells, partLabels_blank other field holds, blank, fitted, List.getElem?_replicate]
  split <;> rfl

theorem reset_liveFieldInv : LiveFieldInv State.reset where
  placed b k f field := partFields_placed ((reset_fields b) ▸ field)
  apart b j k f g first second := partFields_apart ((reset_fields b) ▸ first) ((reset_fields b) ▸ second)
  showing _ b k f field _ := by
    have own : State.reset.scu.buffers.get b = resetBuffer b := Table.get_ofFn _ b
    by_cases day : b = 2
    · subst day; exact reset_day k f field
    · have other : b.val ≠ 2 := fun same => day (Fin.ext same)
      rw [reset_fields] at field
      rw [(reset_buffers b).2, if_pos (partFields_part field), own]
      exact reset_showing field other

/-! ### The tables -/

theorem reset_windows : ∀ m : Master, let w := State.reset.port.windows.get m
    w.requests = [] ∧ w.responses = [] ∧ w.dropped = 0 ∧ State.reset.port.inExecution.get m = none ∧
      (∀ k, w.service.get k = none) ∧
      ∀ k, (w.waiting.get k).isSome ↔ m = officerMaster ∧ k = 7 := by decide

end Sys2Proof.Machine

open Sys2Proof Sys2Proof.Machine

/-- Settles O1, area by area: the invariants by a lemma each, the tables by their entries, and the rest as the reset
state spells it. -/
theorem resetFindsTheStoreInvalid : Obligations.ResetFindsTheStoreInvalid := by
  unfold Obligations.ResetFindsTheStoreInvalid
  refine ⟨⟨reset_portInv, reset_refInv, reset_bindInv, reset_idleInv, reset_clockInv, reset_journalInv,
      reset_liveFieldInv⟩, rfl, rfl, rfl, rfl, rfl, ⟨_, rfl, rfl⟩, fun n => ⟨Table.get_fill _ n, Table.get_fill _ n⟩,
    fun p => Table.get_ofFn _ p, rfl, rfl, rfl, reset_windows, rfl, rfl, rfl, rfl, rfl,
    fun i => Table.get_fill _ i, fun i => Table.get_fill _ i, fun p => Table.get_fill _ p, by decide, rfl, rfl,
    fun p => Table.get_fill _ p, rfl, reset_buffers⟩
end

section
/-! SUPPORT. The port's own answer in STORE_INVALID (R90, R179, R182). -/

namespace Sys2Proof.Machine

/-! ### Requests are carried out, whatever their kind -/

theorem exec_carries {i : Instr} {h : ReqHead} (head : headOf i = some h) (s : State) :
    ∃ body, exec i s = .next (carry h i body s) := by
  cases i <;> cases head <;> exact ⟨_, rfl⟩

/-- With no teller signed on, no idle count runs that a request could restart (R152). -/
theorem restartNamed_unbound {s : State} (unbound : ∀ p, (s.store.positions.get p).teller = none) (i : Instr) :
    restartNamed i s = s := by
  unfold restartNamed
  split
  · rw [restartIdle_eq, restartedScu, if_neg (by simp [unbound])]
  · rfl

/-! ### The port's checks (R179, R182, R183) -/

/-- A check that the port makes: of a field, or of the authority, which master 4 has. -/
def PortCheck (h : ReqHead) (c : Check) : Prop :=
  c.detail = [] ∧ (c.code = .badField ∨
    (c.code = .notPermitted ∨ c.code = .notYourPosition) ∧ (h.master = officerMaster → c.pass = true))

section
variable {h : ReqHead}

theorem flagAllowed_officer (officer : h.master = officerMaster) : flagAllowed h = true :=
  flagAllowed_eq fun _ => officer

theorem isOfficer_officer (officer : h.master = officerMaster) : isOfficer h = true := by simp [isOfficer, officer]

theorem serves_officer (s : State) (p : Position) (officer : h.master = officerMaster) : serves h s p = true := by
  simp [serves, isOfficer_officer officer]

theorem portCheck_flag : PortCheck h ⟨flagAllowed h, .notPermitted, []⟩ := ⟨rfl, .inr ⟨.inl rfl, flagAllowed_officer⟩⟩

theorem portCheck_officer : PortCheck h ⟨isOfficer h, .notPermitted, []⟩ := ⟨rfl, .inr ⟨.inl rfl, isOfficer_officer⟩⟩

theorem portCheck_serves (s : State) (p : Position) : PortCheck h ⟨serves h s p, .notYourPosition, []⟩ :=
  ⟨rfl, .inr ⟨.inr rfl, serves_officer s p⟩⟩

theorem portCheck_field (b : Bool) : PortCheck h ⟨b, .badField, []⟩ := ⟨rfl, .inl rfl⟩

theorem officerOnly_portCheck : ∀ c ∈ officerOnly h, PortCheck h c := List.forall_mem_singleton.mpr portCheck_officer

theorem anyMaster_portCheck : ∀ c ∈ anyMaster h, PortCheck h c := List.forall_mem_singleton.mpr portCheck_flag

theorem positionChecks_portCheck (s : State) (f : Fld Nat) : ∀ c ∈ positionChecks h s f, PortCheck h c :=
  List.forall_mem_cons.mpr ⟨portCheck_field _, List.forall_mem_cons.mpr
    ⟨portCheck_flag, List.forall_mem_singleton.mpr (portCheck_serves s _)⟩⟩

theorem forDrawer_portCheck (s : State) (d : DrawerNo) : ∀ c ∈ forDrawer h s d, PortCheck h c := by
  unfold forDrawer
  refine List.forall_mem_cons.mpr ⟨portCheck_flag, ?_⟩
  split
  · exact List.forall_mem_singleton.mpr (portCheck_serves s _)
  · exact officerOnly_portCheck

end

/-- The port makes no other check before it answers STORE_INVALID. -/
theorem authority_portCheck (h : ReqHead) (s : State) (i : Instr) : ∀ c ∈ authority h s i, PortCheck h c := by
  unfold authority
  split
  case h_5 | h_7 => exact List.forall_mem_cons.mpr ⟨portCheck_field _, forDrawer_portCheck s _⟩
  all_goals first
    | exact officerOnly_portCheck
    | exact anyMaster_portCheck
    | exact positionChecks_portCheck s _
    | (split; exacts [positionChecks_portCheck s _, officerOnly_portCheck])
    | (split; exacts [anyMaster_portCheck, officerOnly_portCheck])
    | (split; exacts [officerOnly_portCheck, anyMaster_portCheck])

/-- A request whose rule requires a position has that checked first. -/
theorem authority_position {i : Instr} {h : ReqHead} (s : State) (head : headOf i = some h) (needs : needsPosition i = true)
    (other : ∀ r, i ≠ .positionBind h r) : authority h s i = positionChecks h s (namedPosition i) := by
  cases i <;> first | rfl | exact Bool.noConfusion needs | (cases head; exact absurd rfl (other _))

/-- Master 4 has the authority of every request that names neither a position nor a drawer. -/
theorem authority_passes {i : Instr} {h : ReqHead} (s : State) (head : headOf i = some h)
    (officer : h.master = officerMaster) (unnamed : namedPosition i = .absent) (free : needsPosition i = false)
    (count : ∀ r, i ≠ .drawerCount h r) (enquire : ∀ x, i ≠ .drawerEnquire h x) :
    ∀ c ∈ authority h s i, c.pass = true := by
  have only : ∀ c ∈ officerOnly h, c.pass = true := List.forall_mem_singleton.mpr (isOfficer_officer officer)
  have any : ∀ c ∈ anyMaster h, c.pass = true := List.forall_mem_singleton.mpr (flagAllowed_officer officer)
  cases i
  case drawerCount => cases head; exact absurd rfl (count _)
  case drawerEnquire => cases head; exact absurd rfl (enquire _)
  case transferOffer g r =>
    have absent : r.position.present = false := by
      have e : r.position = .absent := unnamed
      rw [e]; rfl
    simpa [authority, absent] using only
  case printerPace g r => simp only [authority]; split; exacts [any, only]
  case lineSettings g r => simp only [authority]; split; exacts [any, only]
  case portSettings g b => simp only [authority]; split; exacts [only, any]
  all_goals first | exact Bool.noConfusion free | exact only | exact any

/-! ### The port's answer -/

/-- The port refuses by the first check that fails, and by STORE_INVALID where none does. -/
theorem invalidVerdict_refuses (h : ReqHead) (i : Instr) (s : State) : ∃ c,
    firstFailure (authority h s i ++ [⟨false, .storeInvalid, []⟩]) = some c ∧ invalidVerdict h i s = refuse s c := by
  have ends : firstFailure [⟨false, .storeInvalid, []⟩] = some ⟨false, .storeInvalid, []⟩ := rfl
  cases e : firstFailure (authority h s i) with
  | some c =>
    have first : firstFailure (authority h s i ++ [⟨false, .storeInvalid, []⟩]) = some c := by
      rw [firstFailure_append, e]; rfl
    exact ⟨c, first, judge_refused first⟩
  | none =>
    have first : firstFailure (authority h s i ++ [⟨false, .storeInvalid, []⟩]) = some ⟨false, .storeInvalid, []⟩ := by
      rw [firstFailure_append, e, ends]; rfl
    exact ⟨_, first, judge_refused first⟩

/-- What stops a request in STORE_INVALID fails, and is one of the port's checks or the last. -/
theorem stops_cases {h : ReqHead} {i : Instr} {s : State} {c : Check}
    (first : firstFailure (authority h s i ++ [⟨false, .storeInvalid, []⟩]) = some c) :
    c.pass = false ∧ (c ∈ authority h s i ∨ c = ⟨false, .storeInvalid, []⟩) := by
  have failed := List.find?_some first
  have found := List.mem_append.mp (List.mem_of_find?_eq_some first)
  exact ⟨by simpa using failed, found.imp_right List.mem_singleton.mp⟩

end Sys2Proof.Machine

open Sys2Proof Sys2Proof.Machine

/-- Settles O16: the port answers by its first failing check (`invalidVerdict_refuses`), and nothing but the response is
left of the request (`respond_frame`). -/
theorem storeInvalidRefusesRequests : Obligations.StoreInvalidRefusesRequests := by
  unfold Obligations.StoreInvalidRefusesRequests
  intro i h s head up kept unbound here format status clock fault
  have shut : shutOut i s = true := by
    have unserved : servedInvalid i = false := by
      cases i
      case storeFormat => cases head; exact absurd rfl format
      case partStatus => cases head; exact absurd rfl status
      case clockSet => cases head; exact absurd rfl (clock _)
      case faultRead => cases head; exact absurd rfl fault
      all_goals rfl
    rw [shutOut, kept, unserved]; rfl
  obtain ⟨body, carried⟩ := exec_carries head s
  rw [carry_shutOut up here shut body, restartNamed_unbound unbound i] at carried
  obtain ⟨c, first, refused⟩ := invalidVerdict_refuses h i s
  obtain ⟨failed, stops⟩ := stops_cases first
  have plain : c.detail = [] ∧ (c.code = .storeInvalid ∨ c.code = .badField ∨
      (c.code = .notPermitted ∨ c.code = .notYourPosition) ∧ h.master ≠ officerMaster) := by
    rcases stops with own | rfl
    · obtain ⟨detail, field | ⟨may, officer⟩⟩ := authority_portCheck h s i c own
      · exact ⟨detail, .inr (.inl field)⟩
      · exact ⟨detail, .inr (.inr ⟨may, fun o => Bool.noConfusion (failed.symm.trans (officer o))⟩)⟩
    · exact ⟨rfl, .inl rfl⟩
  obtain ⟨detail, code⟩ := plain
  refine ⟨_, c.code, carried, by tauto, ?_, ?_, by tauto, fun officer needs other range => ?_,
    fun officer unnamed free count enquire => ?_⟩
  · rw [refused]
    exact respond_frame h _ c.code false c.detail s
  · rw [refused]
    refine ⟨?_, rfl, rfl⟩
    rw [← detail]
    exact respond_windows h _ c.code false c.detail here
  · rw [authority_position s head needs other, positionChecks, List.cons_append, firstFailure_cons, range] at first
    cases first; rfl
  · rw [firstFailure_append, firstFailure_eq_none.mpr (authority_passes s head officer unnamed free count enquire)] at first
    cases first; rfl
end

section
/-! SUPPORT. STORE.FORMAT: the state it leaves, area by area (R93, R133, R138, R158). -/

namespace Sys2Proof.Machine

/-! ### The notices of a format (R62, R138) -/

/-- PRINT_DONE of every job, in ascending slot order (R138). -/
def formatNotices (s : State) : List (Master × Detail) :=
  (s.pru.jobs.list.filterMap id).map fun j => (servingMaster s j.position, .printDone j.id j.printer (.cancelled .format))

theorem jobsOf_map_snd (s : State) : (jobsOf s).map Prod.snd = s.pru.jobs.list.filterMap id := by
  rw [jobsOf, List.map_filterMap, ← entries_map_snd, List.filterMap_map]
  refine List.filterMap_congr fun e _ => ?_
  obtain ⟨i, j⟩ := e
  cases j <;> rfl

/-- A run of PRINT_DONE notices changes the windows alone. -/
theorem foldl_raiseFormatted (l : List (Fin 16 × Job)) {s : State} (up : s.power = .up) :
    l.foldl (fun s e => raiseAt e.2.position (.printDone e.2.id e.2.printer (.cancelled .format)) s) s =
      notified ((l.map Prod.snd).map fun j =>
        (servingMaster s j.position, .printDone j.id j.printer (.cancelled .format))) s := by
  induction l generalizing s with
  | nil => rfl
  | cons e rest ih => rw [List.foldl_cons, raiseAt_up _ _ up, ih (by exact up), notified_notified]; rfl

theorem raiseFormatted_up {s : State} (up : s.power = .up) : raiseFormatted s = notified (formatNotices s) s := by
  rw [raiseFormatted, foldl_raiseFormatted _ up, jobsOf_map_snd]; rfl

/-! ### What the format leaves -/

/-- Every unit at its format value, the part rows rendered, before the day's change is raised. -/
def formatted (s : State) : State := formatScu (formatUnits (notified (formatNotices s) (clearNotices s)))

/-- The pool and the screens of the format, before the part rows are rendered (R158). -/
def blankScu (s : State) : Scu := ⟨freshBuffers, s.scu.screens.map formatScreen, 300, defaultLockText⟩

/-- The day's change raised where PART.STATUS showed STORE_INVALID or SEALED (R159; log entry 41). -/
def formatDayNotices (s : State) : List (Master × Detail) :=
  if s.kept.isSome ∨ s.store.day.state = .sealed then [(officerMaster, .dayChanged .noDay)] else []

/-- The state that the format leaves, its response apart: the day's change raised and shown on top of `formatted`. -/
theorem formatNotice_formatted {s : State} (up : s.power = .up) (free : NoneStandsAt s .scu)
    (may : s.kept.isSome ∨ s.store.day.state = .noDay ∨ s.store.day.state = .sealed) :
    formatNotice s (formatted s) = formatted s ∧ formatDayNotices s = [] ∨
      formatNotice s (formatted s) = takeReports [.dayState] (notified (formatDayNotices s) (formatted s)) := by
  have shows : statusDay (formatted s) = 1 := rfl
  have changes (other : statusDay s ≠ 1) (told : formatDayNotices s = [(officerMaster, .dayChanged .noDay)]) :
      formatNotice s (formatted s) = takeReports [.dayState] (notified (formatDayNotices s) (formatted s)) := by
    rw [formatNotice, shows, if_neg other, dayChanged, raiseOfficer_up _ (by exact up), report_taken _ (by exact free), told]
  cases kept : s.kept with
  | some x => exact .inr (changes (by simp [statusDay, kept]) (by simp [formatDayNotices, kept]))
  | none =>
    rcases may with open' | noDay | isSealed
    · simp [kept] at open'
    · refine .inl ⟨if_pos ?_, ?_⟩
      · rw [shows, statusDay, kept, noDay]; rfl
      · simp [formatDayNotices, kept, noDay]
    · refine .inr (changes ?_ (by simp [formatDayNotices, isSealed]))
      simp [statusDay, kept, isSealed, DayState.place]

/-- What a format leaves, whether or not it shows the day's change. -/
structure Formatted (s t : State) : Prop where
  screens : Rendered (blankScu s) t.scu
  windows : t.port.windows = notify (formatNotices s ++ formatDayNotices s) (clearNotices s).port.windows
  rest : ∃ scu windows, t = { formatUnits s with scu := scu, port := { s.port with windows := windows } }

theorem formatNotice_leaves {s : State} (up : s.power = .up) (free : NoneStandsAt s .scu)
    (may : s.kept.isSome ∨ s.store.day.state = .noDay ∨ s.store.day.state = .sealed) :
    Formatted s (formatNotice s (formatted s)) := by
  have rendered : Rendered (blankScu s) (formatted s).scu := takeReports_rendered [.all]
    { formatUnits (notified (formatNotices s) (clearNotices s)) with scu := blankScu s }
  obtain ⟨e, none⟩ | e := formatNotice_formatted up free may
  · rw [e]
    exact ⟨rendered, by rw [none, List.append_nil]; rfl, _, _, rfl⟩
  · rw [e]
    exact ⟨rendered.trans (takeReports_rendered [.dayState] _), by rw [notify_append]; rfl, _, _, rfl⟩

/-! ### The store that a format writes (R93) -/

theorem formatStore_currencies (x : Header) : (formatStore x).currencies =
    Table.ofFn fun c => { defined := false, decimals := if c = 0 then 2 else 0, faces := [] } := by
  show Table.set _ _ _ = _
  decide

/-- A rendering leaves a screen whose rows are all dirty as it is. -/
theorem Rendered.screen_dirty {u v : Scu} (h : Rendered u v) {p : Position}
    (dirty : (u.screens.get p).dirty = Table.fill 24 true) : v.screens.get p = u.screens.get p := by
  obtain ⟨same, kept⟩ := h.screens p
  have all : (v.screens.get p).dirty = (u.screens.get p).dirty := by
    rw [dirty]
    refine Table.ext_get fun r => ?_
    rw [Table.get_fill, kept r (by rw [dirty, Table.get_fill])]
  rw [← same, ← all]

end Sys2Proof.Machine

open Sys2Proof Sys2Proof.Machine

/-- Settles O41: the request is taken whether or not the store is open (`exec_taken_always`), and what it leaves is
`Formatted`, the units by their definitions. -/
theorem formatLeavesEveryAreaAtItsFormatValue : Obligations.FormatLeavesEveryAreaAtItsFormatValue := by
  unfold Obligations.FormatLeavesEveryAreaAtItsFormatValue
  intro h s old generation up here turn quiet screens officer may
  have free : NoneStandsAt s .scu := by
    intro x hx
    by_cases own : x = .request h.master
    · subst own
      simp [standsAt, here, unitOf, requestKind]
    · exact screens x hx own
  have passed : ∀ c ∈ storeFormatChecks h s, c.pass = true := by
    have day : (s.kept.isSome || dayIs s [.noDay, .sealed]) = true := by simpa [dayIs, or_assoc] using may
    simp [storeFormatChecks, or_imp, forall_and, officerOnly, isOfficer, officer.1, bodyCheck, officer.2, day]
  obtain ⟨done, makes⟩ : ∃ done, done = formatNotice s (formatted s) := ⟨_, rfl⟩
  have cleared : storeFormatTaken s = take done [numField done.store.header.generation] := by
    rw [storeFormatTaken, raiseFormatted_up (by exact up), makes]; rfl
  have taken := exec_taken_always up here turn quiet rfl (checks := storeFormatChecks h) (taken := storeFormatTaken)
    rfl rfl passed cleared rfl
  obtain ⟨rendered, windows, scu, w, rest⟩ : Formatted s done := makes ▸ formatNotice_leaves up free may
  subst rest
  have blank (p : Position) : (blankScu s).screens.get p = formatScreen (s.scu.screens.get p) := Table.get_map ..
  refine ⟨_, taken, ?_, rfl, rfl, fun n => Table.get_fill .., fun i => Table.get_fill .., rfl, fun i => Table.get_fill ..,
    fun p => Table.get_fill .., rfl, rfl, fun p => Table.get_map .., rfl, rfl, fun p => ?_, rendered.idleTimeout,
    rendered.lockText, fun b => ?_, rfl, rfl, rfl, rfl, ?_, rfl, rfl⟩
  · rw [← formatStore_currencies ⟨true, generation, headerCheck true generation⟩]
    rfl
  · exact (rendered.screen_dirty (by rw [blank]; rfl)).trans (blank p)
  · have fresh : (blankScu s).buffers.get b = if b.val < 27 then partBuffer b else freeBuffer :=
      (Table.get_ofFn _ b).trans (by simp [partOwned])
    exact fresh ▸ rendered.buffers b
  · refine Eq.trans (respond_windows h _ _ _ _ (by exact here)) ?_
    exact congrArg _ windows
end

section
/-! SUPPORT. The power warning, the fall of the main supply, and a part without supply (R78, R79, R88, R89, R137, R190). -/

namespace Sys2Proof.Machine

/-! ### The deliver that is due (R69) -/

theorem finishDelivery_none {s : State} (none : s.delivery = none) : finishDelivery s = s := by
  simp [finishDelivery, none]

/-- The field of the answer that gives the home total, kept back while the blind count keeps it (R15). -/
def deliveredTotal (s : State) (d : Delivery) : Option (List Item) :=
  if d.head.master ≠ officerMaster ∧ s.store.day.state = .closing ∧ (s.store.drawers.get d.toDrawer).state ≠ .closed
  then none else some [.amount d.total]

/-- The deliver leaves the state of every drawer. -/
theorem delivered_drawerState (d : Delivery) (s : State) (n : DrawerNo) :
    ((delivered d s).store.drawers.get n).state = (s.store.drawers.get n).state := by
  rw [delivered_drawers, Table.get_set]
  split
  case isTrue own => subst own; rfl
  case isFalse => rfl

theorem finishDelivery_due {d : Delivery} {s : State} (due : s.delivery = some d) :
    finishDelivery s = respond d.head 65 .done true
      [some [.num d.number], some [.num d.sequence], deliveredTotal s d, some [.flag d.excess]] (delivered d s) := by
  have kept : blind (delivered d s) d.toDrawer = true ↔
      s.store.day.state = .closing ∧ (s.store.drawers.get d.toDrawer).state ≠ .closed := by
    simp only [blind, delivered_drawerState, Bool.and_eq_true, beq_iff_eq, bne_iff_ne]
    rfl
  have told : (disclosed (delivered d s) d.head.master d.toDrawer d.total).map (fun t => [Item.amount t]) =
      deliveredTotal s d := by
    simp only [disclosed, Bool.and_eq_true, decide_eq_true_eq, kept, deliveredTotal]
    split <;> rfl
  rw [← told]
  simp only [finishDelivery, due]
  rfl

theorem finishDelivery_power (s : State) : (finishDelivery s).power = s.power :=
  (finishDelivery_frame s).get .power (by decide)

theorem finishDelivery_delivery (s : State) : (finishDelivery s).delivery = none := by
  cases due : s.delivery with
  | none => rw [finishDelivery_none due, due]
  | some d => rw [finishDelivery_due due]; rfl

/-- What is asked once the deliver has been made was asked before. -/
theorem mem_finishDelivery_order {x : Asked} {s : State} (h : x ∈ (finishDelivery s).port.order) : x ∈ s.port.order := by
  cases due : s.delivery with
  | none => rwa [finishDelivery_none due] at h
  | some d =>
    rw [finishDelivery_due due] at h
    exact List.mem_of_mem_erase (List.mem_of_mem_erase h)

theorem finishDelivery_quiet {s : State} (quiet : NothingWaits s) : NothingWaits (finishDelivery s) :=
  fun x hx => quiet x (mem_finishDelivery_order hx)

/-! ### The power warning (R88, R89, R137, R176) -/

/-- A part whose requests are abandoned, printers stopped, line ready dropped and store shut. -/
def warned (s : State) : State := { setLineReady false (stopPrinters (abandonRequests s)) with power := .shut }

theorem warned_frame (s : State) : UnchangedBut [.power, .inExecution, .turns, .pru, .out] s (warned s) :=
  (setLineReady_unchanged _ (by decide) (stopPrinters_unchanged (by decide)
    (abandonRequests_unchanged (by decide) (.refl _ s)))).trans ((setPower_frame .shut _).mono (by decide))

/-- Where nothing waits that is taken by itself, no operation asked is left. -/
theorem warned_order {s : State} (quiet : NothingWaits s) : (warned s).port.order = [] :=
  List.filter_eq_nil_iff.mpr fun x hx => by simp [quiet x hx]

theorem warned_inExecution (s : State) (m : Master) : (warned s).port.inExecution.get m = none := Table.get_fill ..

theorem warnPower_quiet {s : State} (quiet : NothingWaits s) : warnPower s = warned (finishDelivery s) := by
  refine takeWaiting_quiet fun x hx => ?_
  have none : x ∈ (warned (finishDelivery s)).port.order := hx
  rw [warned_order (finishDelivery_quiet quiet)] at none
  exact absurd none List.not_mem_nil

theorem execPowerWarning_quiet {s : State} (up : s.power = .up) (quiet : NothingWaits s) :
    exec .powerWarning s = .next (warned (finishDelivery s)) := by
  rw [← warnPower_quiet quiet]
  exact congrArg _ (if_pos up)

/-- A deliver is made, or its turn has not come. -/
theorem deliver_cases {s : State} (quiet : NothingWaits s) : deliver s = finishDelivery s ∨ deliver s = s := by
  unfold deliver
  split
  · exact .inl (takeWaiting_quiet (finishDelivery_quiet quiet))
  · exact .inr rfl

/-- The warning comes to the same whether or not the deliver that is due has been made before it. -/
theorem execPowerWarning_deliver {s : State} (up : s.power = .up) (quiet : NothingWaits s) :
    exec .powerWarning s = exec .powerWarning (deliver s) := by
  rcases deliver_cases quiet with e | e
  · rw [e, execPowerWarning_quiet up quiet, execPowerWarning_quiet (by rw [finishDelivery_power, up])
      (finishDelivery_quiet quiet), finishDelivery_none (finishDelivery_delivery s)]
  · rw [e]

/-! ### Without supply -/

theorem freshBuffers_get (b : BufferNo) : freshBuffers.get b = if b.val < 27 then partBuffer b else freeBuffer :=
  (Table.get_ofFn _ b).trans (by simp [partOwned])

section
variable (s : State) (x : Power)

theorem loseVolatile_unitsPowered : UnitsPowered s { loseVolatile s with power := x } where
  delivery := rfl
  counted _ := Table.get_fill ..
  quotes _ := Table.get_fill ..
  made := rfl
  jobs _ := Table.get_fill ..
  notes _ := Table.get_fill ..
  nextJob := rfl
  sealAnswered := rfl
  sender := rfl
  out := rfl

theorem loseVolatile_enginesPowered : EnginesPowered s { loseVolatile s with power := x } fun _ => false :=
  fun _ => Table.get_map ..

theorem powerUpPort_windows (m : Master) : powerUpPort.windows.get m = emptyWindow := Table.get_fill ..

theorem loseVolatile_portPowered : PortPowered { loseVolatile s with power := x } where
  lastServed := rfl
  burstUsed := rfl
  inExecution _ := Table.get_fill ..
  order := rfl
  windows m := by rw [show (loseVolatile s).port = powerUpPort from rfl, powerUpPort_windows]; rfl

end

theorem carry_unpowered {s : State} (off : s.power ≠ .up) (h : ReqHead) (i : Instr) (body : State → Verdict) :
    carry h i body s = s := by simp [carry, handed, off]

theorem access_off {s : State} (off : s.power = .off) (m : Fin 8) (k : Master → State → State) : access m k s = s := by
  unfold access
  cases masterOf m <;> simp [off]

end Sys2Proof.Machine

open Sys2Proof Sys2Proof.Machine

/-- Settles O17: the warning by `execPowerWarning_quiet` and what the deliver that is due comes to (`finishDelivery_due`), the
fall by what it loses, and the rest by the guards of a part without supply. -/
theorem supplyGoesByAWarningAndAFall : Obligations.SupplyGoesByAWarningAndAFall := by
  unfold Obligations.SupplyGoesByAWarningAndAFall
  refine ⟨fun s up none quiet => ?_, fun s t up quiet made => ?_, fun s d i up due quiet here => ?_, fun s off => ?_,
    fun s => ?_, fun s off => ?_⟩
  · refine ⟨_, execPowerWarning_quiet up quiet, ?_⟩
    rw [finishDelivery_none none]
    exact ⟨warned_frame s, rfl, warned_inExecution s, warned_order quiet, rfl, rfl, fun p => Table.get_map ..⟩
  · have own : exec .deliver s = .next (deliver s) := congrArg _ (if_pos up)
    rw [own] at made
    cases made
    exact execPowerWarning_deliver up quiet
  · refine ⟨_, execPowerWarning_quiet up quiet, ((finishDelivery_frame s).mono (by decide)).trans
      ((warned_frame _).mono (by decide)), rfl, finishDelivery_delivery s, warned_inExecution _,
      warned_order (finishDelivery_quiet quiet), ?_⟩
    rw [finishDelivery_due due]
    refine ⟨rfl, rfl, rfl, ?_⟩
    exact respond_windows d.head 65 .done true _ (s := delivered d s) here
  · refine ⟨congrArg _ (if_neg off), congrArg _ (if_neg off), fun i h head => ?_⟩
    obtain ⟨body, carried⟩ := exec_carries head s
    rw [carried, carry_unpowered off]
  · exact ⟨_, rfl, rfl, rfl, rfl, rfl, rfl, rfl, rfl, loseVolatile_unitsPowered s .off,
      loseVolatile_enginesPowered s .off, loseVolatile_portPowered s .off, powerUpPort_windows, rfl,
      fun p => Table.get_fill .., freshBuffers_get, rfl, rfl⟩
  · refine ⟨?_, fun m w => ⟨congrArg _ (access_off off _ _), congrArg _ (access_off off _ _),
      congrArg _ (access_off off _ _), congrArg _ (if_pos off)⟩⟩
    have ticks : tickUnits { s with clock := advanceClock s.clock } = { s with clock := advanceClock s.clock } := by
      unfold tickUnits; simp only [off]
    exact congrArg _ ticks
end

section
/-! SUPPORT. A power-up in progress: what is volatile has its power-up value, and stays so through the restore (R78, R90,
R188, R190). -/

namespace Sys2Proof.Machine

/-! ### What is volatile while the store is being restored -/

/-- From `s` on, a power-up in which everything volatile but the screens has its power-up value. -/
structure Restoring (s t : State) : Prop where
  power : t.power = .up
  kept : t.kept = none
  pending : t.pending = s.pending
  units : UnitsPowered s t
  engines : t.pru.engines = s.pru.engines.map deadEngine
  port : PortPowered t

/-- Windows that agree but for their waiting notices. -/
theorem emptyWindow_of_same {w v : Window} (empty : { w with waiting := Table.fill 8 none } = emptyWindow)
    (postArea : v.postArea = w.postArea) (requests : v.requests = w.requests) (responses : v.responses = w.responses)
    (area : v.responseArea = w.responseArea) (service : v.service = w.service ∧ v.latched = w.latched)
    (dropped : v.dropped = w.dropped) : { v with waiting := Table.fill 8 none } = emptyWindow := by
  rw [← empty, postArea, requests, responses, area, service.1, service.2, dropped]

/-- The parts that a restore leaves alone until the units are powered up. -/
def volatileParts : List Part :=
  [.power, .kept, .pending, .delivery, .exu, .pru, .sender, .out, .server, .turns, .postAreas, .requests, .responses,
    .areas, .service, .dropped]

theorem PortPowered.of_frame {L : List Part} {t v : State} (h : PortPowered t) (f : UnchangedBut L t v)
    (hL : ∀ p ∈ volatileParts, p ∉ L) : PortPowered v := by
  have get (p : Part) (hp : p ∈ volatileParts) : p.same t v := f.get p (hL p hp)
  obtain ⟨lastServed, burstUsed⟩ := get .server (by decide)
  obtain ⟨inExecution, -, order⟩ := get .turns (by decide)
  have idle : v.port.order = t.port.order :=
    order (by rw [NoneStandsAt, h.order]; exact fun _ hx => absurd hx List.not_mem_nil)
  exact ⟨lastServed.trans h.lastServed, burstUsed.trans h.burstUsed, fun m => by rw [inExecution, h.inExecution],
    idle.trans h.order, fun m => emptyWindow_of_same (h.windows m) (get .postAreas (by decide) m)
      (get .requests (by decide) m) (get .responses (by decide) m) (get .areas (by decide) m) (get .service (by decide) m)
      (get .dropped (by decide) m)⟩

theorem Restoring.of_frame {L : List Part} {s t v : State} (h : Restoring s t) (f : UnchangedBut L t v)
    (hL : ∀ p ∈ volatileParts, p ∉ L) (counted : ∀ n, v.counted.get n = none) : Restoring s v := by
  have get (p : Part) (hp : p ∈ volatileParts) : p.same t v := f.get p (hL p hp)
  have exu : v.exu = t.exu := get .exu (by decide)
  have pru : v.pru = t.pru := get .pru (by decide)
  exact {
    power := (get .power (by decide)).trans h.power
    kept := (get .kept (by decide)).trans h.kept
    pending := (get .pending (by decide)).trans h.pending
    units := {
      delivery := (get .delivery (by decide)).trans h.units.delivery
      counted := counted
      quotes := exu ▸ h.units.quotes
      made := exu ▸ h.units.made
      jobs := pru ▸ h.units.jobs
      notes := pru ▸ h.units.notes
      nextJob := pru ▸ h.units.nextJob
      sealAnswered := pru ▸ h.units.sealAnswered
      sender := (get .sender (by decide)).trans h.units.sender
      out := (get .out (by decide)).trans h.units.out }
    engines := pru ▸ h.engines
    port := h.port.of_frame f hL }

/-- Where the counted counts are left alone too. -/
theorem Restoring.untouched {L : List Part} {s t v : State} (h : Restoring s t) (f : UnchangedBut L t v)
    (hL : ∀ p ∈ .counted :: volatileParts, p ∉ L) : Restoring s v := by
  obtain ⟨counted, rest⟩ := List.forall_mem_cons.mp hL
  exact h.of_frame f rest fun n => (congrArg (Table.get · n) (f.get .counted counted)).trans (h.units.counted n)

/-- Another store, Journal and Store Unit or clock is nothing to the rest. -/
theorem Restoring.withStore {s t : State} (h : Restoring s t) (x : Store) (j : Jsu) (c : Clock) :
    Restoring s { t with store := x, jsu := j, clock := c } :=
  ⟨h.power, h.kept, h.pending, ⟨h.units.delivery, h.units.counted, h.units.quotes, h.units.made, h.units.jobs,
    h.units.notes, h.units.nextJob, h.units.sealAnswered, h.units.sender, h.units.out⟩, h.engines,
    ⟨h.port.lastServed, h.port.burstUsed, h.port.inExecution, h.port.order, h.port.windows⟩⟩

/-! ### The store opened and the clock found (R90, R188) -/

/-- The part with the store that the battery kept in use, everything volatile lost. -/
def opened (s : State) : State := openStore { loseVolatile s with power := .up }

theorem opened_store (s : State) : (opened s).store = s.kept.getD s.store := rfl

theorem opened_restoring (s : State) : Restoring s (opened s) :=
  have units := loseVolatile_unitsPowered s .up
  have port := loseVolatile_portPowered s .up
  ⟨rfl, rfl, rfl, ⟨rfl, units.counted, units.quotes, rfl, units.jobs, units.notes, rfl, rfl, rfl, rfl⟩, rfl,
    ⟨rfl, rfl, port.inExecution, rfl, port.windows⟩⟩

/-- What finding the clock leaves, where nothing has been captured and told since the power-up (R188). -/
structure ClockFound (s t : State) : Prop where
  store : t.store = s.store
  jsu : t.jsu = s.jsu
  clock : t.clock = if s.clock.valid then s.clock else ⟨0, 0, false⟩
  windows : t.port.windows = notify (lostNotice s) s.port.windows
  fault : t.port.fault = if s.clock.valid then s.port.fault
    else ⟨true, .clockLost, .bpp, [.num 0], 0, 0, s.port.fault.lost⟩

theorem findClock_found {s : State} (up : s.power = .up) (free : s.port.fault.held = false) : ClockFound s (findClock s) := by
  unfold findClock
  cases valid : s.clock.valid with
  | true => exact ⟨rfl, rfl, by simp [valid], by simp [lostNotice, valid], by simp [valid]⟩
  | false =>
    have frame := captureFault_frame .clockLost .bpp [.num 0] { s with clock := ⟨0, 0, false⟩ }
    refine ⟨captureFault_store .., frame.get .jsu (by decide), ?_, ?_, ?_⟩
    · exact (frame.get .clock (by decide)).trans (by simp [valid])
    · exact (captureFault_windows _ _ _ (by exact up)).trans (by simp [lostNotice, valid])
    · exact (captureFault_fault ..).trans (by simp [valid, free])

theorem Restoring.findClock {s t : State} (h : Restoring s t) : Restoring s (findClock t) := by
  unfold Machine.findClock
  split
  · exact h
  · exact (h.withStore t.store t.jsu ⟨0, 0, false⟩).untouched (captureFault_frame .clockLost .bpp [.num 0] _) (by decide)

/-! ### The units powered up (R115, R137, R157) -/

/-- Which books a power-up clears: of a part in STORE_INVALID every book present too (R115). -/
def clears (invalid : Bool) (e : Engine) : Bool := if invalid = true then e.present || e.inFeed else e.inFeed

/-- The screens of a power-up before the part rows are rendered (R157). -/
def poweredScu (x : Store) : Scu :=
  ⟨freshBuffers, Table.ofFn fun p => powerUpScreen (x.positions.get p).teller.isSome, 300, defaultLockText⟩

theorem powerUpScu_screens (t : State) :
    ScreensPowered (fun p => (t.store.positions.get p).teller.isSome) (powerUpScu t).scu := by
  have rendered : Rendered (poweredScu t.store) (powerUpScu t).scu :=
    takeReports_rendered [.all] { t with scu := poweredScu t.store }
  have screen (p : Position) : (poweredScu t.store).screens.get p =
    powerUpScreen (t.store.positions.get p).teller.isSome := Table.get_ofFn ..
  have buffer (b : BufferNo) : (poweredScu t.store).buffers.get b = if b.val < 27 then partBuffer b else freeBuffer :=
    freshBuffers_get b
  refine ⟨fun p => ?_, fun b => ?_, rendered.idleTimeout, rendered.lockText⟩
  · exact (rendered.screen_dirty (by rw [screen]; rfl)).trans (screen p)
  · exact buffer b ▸ rendered.buffers b

/-- Every unit powered up over the store `x`, the one that the units hold. -/
structure Powered (s : State) (invalid : Bool) (x : Store) (v : State) : Prop where
  power : v.power = .up
  pending : v.pending = s.pending
  units : UnitsPowered s v
  engines : EnginesPowered s v (clears invalid)
  port : PortPowered v
  screens : ScreensPowered (fun p => (x.positions.get p).teller.isSome) v.scu

/-- The Printer and Screen Units powered up last. -/
def poweredUp (invalid : Bool) (x : Store) (k : Option Store) (j : Jsu) (t : State) : State :=
  powerUpScu (powerUpPrinters invalid { t with store := x, kept := k, jsu := j })

theorem Restoring.poweredUp {s t : State} (h : Restoring s t) (invalid : Bool) (x : Store) (k : Option Store) (j : Jsu) :
    Powered s invalid x (poweredUp invalid x k j t) where
  power := h.power
  pending := h.pending
  units := ⟨h.units.delivery, h.units.counted, h.units.quotes, h.units.made, fun _ => Table.get_fill ..,
    fun _ => Table.get_fill .., rfl, rfl, h.units.sender, h.units.out⟩
  engines p := by
    have engine : (Machine.poweredUp invalid x k j t).pru.engines.get p =
        if invalid = true then invalidEngine (deadEngine (s.pru.engines.get p))
        else powerUpEngine (s.pru.engines.get p).present (s.pru.engines.get p).inFeed := by
      have e : (Machine.poweredUp invalid x k j t).pru.engines = t.pru.engines.map fun e =>
        if invalid then invalidEngine e else powerUpEngine e.present e.inFeed := rfl
      rw [e, h.engines, Table.get_map, Table.get_map]
      rfl
    rw [engine]
    cases invalid <;> rfl
  port := ⟨h.port.lastServed, h.port.burstUsed, h.port.inExecution, h.port.order, h.port.windows⟩
  screens := powerUpScu_screens (powerUpPrinters invalid { t with store := x, kept := k, jsu := j })

/-! ### STORE_INVALID (R90) -/

theorem enterInvalid_eq (t : State) : enterInvalid t =
    poweredUp true (formatStore t.store.header) (some t.store) { t.jsu with cause := .storeInvalid } t := rfl

/-- A formatted store binds no position, so every screen is DARK. -/
theorem ScreensPowered.dark {u : Scu} {x : Header}
    (h : ScreensPowered (fun p => ((formatStore x).positions.get p).teller.isSome) u) :
    ScreensPowered (fun _ => false) u := by
  have unbound : (fun p => ((formatStore x).positions.get p).teller.isSome) = fun _ => false := by
    funext p; simp [formatStore]
  rwa [unbound] at h

theorem restore_invalid {s : State} (h : s.store.header.valid = false) : restore s = enterInvalid s := by
  simp [restore, h]

theorem loseBattery_restoring {s t : State} (h : Restoring s t) : Restoring s (loseBattery t) :=
  ⟨h.power, h.kept, h.pending, ⟨h.units.delivery, h.units.counted, h.units.quotes, h.units.made, h.units.jobs,
    h.units.notes, h.units.nextJob, h.units.sealAnswered, h.units.sender, h.units.out⟩, h.engines,
    ⟨h.port.lastServed, h.port.burstUsed, h.port.inExecution, h.port.order, h.port.windows⟩⟩

/-- The store and the clock as a power-up finds them, the battery held or lost. -/
def foundBy (battery : Bool) (s : State) : State := if battery then opened s else loseBattery (opened s)

theorem foundBy_restoring (battery : Bool) (s : State) : Restoring s (foundBy battery s) := by
  cases battery
  · exact loseBattery_restoring (opened_restoring s)
  · exact opened_restoring s

theorem powerUp_eq (battery : Bool) (s : State) : powerUp battery s = restore (findClock (foundBy battery s)) := rfl

theorem foundBy_fault (battery : Bool) (s : State) : (foundBy battery s).port.fault = clearFault := by
  cases battery <;> rfl

theorem foundBy_windows (battery : Bool) (s : State) : (foundBy battery s).port.windows = Table.fill 5 emptyWindow := by
  cases battery <;> rfl

theorem foundBy_found (battery : Bool) (s : State) : ClockFound (foundBy battery s) (findClock (foundBy battery s)) :=
  findClock_found (foundBy_restoring battery s).power (by rw [foundBy_fault]; rfl)

end Sys2Proof.Machine
end

section
/-! SUPPORT. The replay of the open commit list: what each record's part does to the store, and what it leaves (R91). -/

namespace Sys2Proof.Machine

/-! ### Notices that tell of no fault -/

/-- The windows have changed by notices alone, none of them FAULT. -/
def TellsNoFault (s t : State) : Prop :=
  ∃ l : List (Master × Detail), t.port.windows = notify l s.port.windows ∧ ∀ e ∈ l, e.2.kind ≠ 7

theorem TellsNoFault.of_eq {s t : State} (h : t.port.windows = s.port.windows) : TellsNoFault s t :=
  ⟨[], h, fun _ he => absurd he List.not_mem_nil⟩

theorem TellsNoFault.trans {s t u : State} (h : TellsNoFault s t) (k : TellsNoFault t u) : TellsNoFault s u := by
  obtain ⟨l, hl, left⟩ := h
  obtain ⟨m, hm, right⟩ := k
  exact ⟨l ++ m, by rw [hm, hl, notify_append], List.forall_mem_append.mpr ⟨left, right⟩⟩

theorem addNotice_fault {d : Detail} (other : d.kind ≠ 7) (w : Window) :
    (addNotice d w).waiting.get 7 = w.waiting.get 7 := by
  rw [addNotice, Table.get_modify, if_neg other]

/-- A FAULT notice that waits is left by notices of other kinds. -/
theorem notify_fault {l : List (Master × Detail)} (other : ∀ e ∈ l, e.2.kind ≠ 7) (m : Master) (w : Table Window 5) :
    ((notify l w).get m).waiting.get 7 = (w.get m).waiting.get 7 := by
  induction l generalizing w with
  | nil => rfl
  | cons e l ih =>
    obtain ⟨first, rest⟩ := List.forall_mem_cons.mp other
    rw [notify_cons, ih rest, Table.get_modify]
    split
    case isTrue own => subst own; exact addNotice_fault first _
    case isFalse => rfl

section
variable {s : State} {n : DrawerNo}

theorem alertNotices_other {e : AlertEvent} {total : Nat} : ∀ x ∈ alertNotices s n e total, x.2.kind ≠ 7 := by
  have kind : (6 : Fin 8) ≠ 7 := by decide
  unfold alertNotices
  refine List.forall_mem_cons.mpr ⟨kind, fun x hx => ?_⟩
  obtain ⟨p, -, rfl⟩ := List.mem_map.mp hx
  exact kind

theorem markNotices_other {after : Bool} {total : Nat} : ∀ x ∈ markNotices s n after total, x.2.kind ≠ 7 := by
  unfold markNotices
  split
  · exact fun _ hx => absurd hx List.not_mem_nil
  · exact alertNotices_other

theorem cashNotices_other {c : Counts} : ∀ x ∈ cashNotices s n c, x.2.kind ≠ 7 := by
  unfold cashNotices
  dsimp only
  split
  · refine List.forall_mem_append.mpr ⟨?_, markNotices_other⟩
    split
    · exact alertNotices_other
    · exact fun _ hx => absurd hx List.not_mem_nil
  · exact fun _ hx => absurd hx List.not_mem_nil

theorem fullNotice_other {r : Record} {d : Disposition} : ∀ x ∈ fullNotice s r d, x.2.kind ≠ 7 := by
  unfold fullNotice
  split
  · exact List.forall_mem_singleton.mpr (show (5 : Fin 8) ≠ 7 by decide)
  · exact fun _ hx => absurd hx List.not_mem_nil

end

/-! ### A record's part at one of its drawers (R91) -/

/-- The drawer is the party and the part is not yet made there. -/
def dueAt (s : State) (r : Record) (party : Option DrawerNo) (n : DrawerNo) : Bool :=
  party == some n && decide ((s.store.drawers.get n).lastApplied < r.sequence)

/-- The operation changes one drawer's record, and tells of no fault. -/
structure OneDrawerPart (f : DrawerNo → State → State) (g : State → DrawerNo → Drawer) (s : State) : Prop where
  store : ∀ n, (f n s).store = { s.store with drawers := s.store.drawers.set n (g s n) }
  told : ∀ n, TellsNoFault s (f n s)

theorem atParty_store {f : DrawerNo → State → State} {g : State → DrawerNo → Drawer} {s : State}
    (h : OneDrawerPart f g s) (party : Option DrawerNo) (r : Record) :
    ∃ drawers, (atParty party r f s).store = { s.store with drawers := drawers } ∧
      ∀ n, drawers.get n = if dueAt s r party n = true then g s n else s.store.drawers.get n := by
  cases party with
  | none => exact ⟨s.store.drawers, rfl, fun n => (if_neg (by simp [dueAt])).symm⟩
  | some m =>
    by_cases due : notYetApplied s m r = true
    · refine ⟨s.store.drawers.set m (g s m), (congrArg State.store (if_pos due)).trans (h.store m), fun n => ?_⟩
      have open' : (s.store.drawers.get m).lastApplied < r.sequence := by simpa [notYetApplied] using due
      by_cases own : m = n
      · subst own; simp [dueAt, open']
      · simp [dueAt, own, Table.get_set_ne]
    · refine ⟨s.store.drawers, congrArg State.store (if_neg due), fun n => (if_neg ?_).symm⟩
      have done : ¬(s.store.drawers.get m).lastApplied < r.sequence := by simpa [notYetApplied] using due
      simp only [dueAt, Bool.and_eq_true, beq_iff_eq, Option.some.injEq, decide_eq_true_eq]
      rintro ⟨rfl, k⟩
      exact done k

theorem atParty_told {f : DrawerNo → State → State} {g : State → DrawerNo → Drawer} {s : State}
    (h : OneDrawerPart f g s) (party : Option DrawerNo) (r : Record) : TellsNoFault s (atParty party r f s) := by
  unfold atParty
  split
  · split
    · exact h.told _
    · exact .of_eq rfl
  · exact .of_eq rfl

section
variable {s : State} (up : s.power = .up) (k : Counts) (q : Nat)
include up

/-- A change of one drawer's counts under its limits. -/
theorem countsChanged_part {f : State → Drawer → Drawer} (limits : ∀ d, LimitsStand d (f s d)) :
    OneDrawerPart (fun n s => countsChanged n (s.store.drawers.get n) (modifyDrawer n (f s) s))
      (fun s n => { f s (s.store.drawers.get n) with excess := markAfter s n (f s (s.store.drawers.get n)).current }) s where
  store _ := countsChanged_store (limits _)
  told _ := ⟨_, countsChanged_windows (limits _) up, cashNotices_other⟩

theorem cashChange_part (t : Deltas) (tally : Int) :
    OneDrawerPart (fun n => cashChange n t q tally) (fun s n => afterCash s n t q tally) s :=
  countsChanged_part up fun d => changedDrawer_limitsStand s t q tally d

theorem reserveCash_part : OneDrawerPart (fun n => reserveCash n k q) (fun s n =>
    let d := s.store.drawers.get n
    { d with
      current := subCounts d.current k
      reserved := addCounts d.reserved k
      transfersOut := addMoney d.transfersOut fun c => valueOf s c k
      excess := markAfter s n (subCounts d.current k)
      lastApplied := q }) s :=
  countsChanged_part up (f := fun s d => { d with
    current := subCounts d.current k
    reserved := addCounts d.reserved k
    transfersOut := addMoney d.transfersOut fun c => valueOf s c k
    lastApplied := q }) fun _ => ⟨rfl, rfl, rfl, rfl, rfl⟩

theorem returnCash_part : OneDrawerPart (fun n => returnCash n k q) (fun s n =>
    let d := s.store.drawers.get n
    { d with
      current := addCounts d.current k
      reserved := subCounts d.reserved k
      transfersOut := subMoney d.transfersOut fun c => valueOf s c k
      excess := markAfter s n (addCounts d.current k)
      lastApplied := q }) s :=
  countsChanged_part up (f := fun s d => { d with
    current := addCounts d.current k
    reserved := subCounts d.reserved k
    transfersOut := subMoney d.transfersOut fun c => valueOf s c k
    lastApplied := q }) fun _ => ⟨rfl, rfl, rfl, rfl, rfl⟩

theorem receiveCash_part : OneDrawerPart (fun n => receiveCash n k q) (fun s n =>
    let d := s.store.drawers.get n
    { d with
      current := addCounts d.current k
      transfersIn := addMoney d.transfersIn fun c => valueOf s c k
      excess := markAfter s n (addCounts d.current k)
      lastApplied := q }) s :=
  countsChanged_part up (f := fun s d => { d with
    current := addCounts d.current k
    transfersIn := addMoney d.transfersIn fun c => valueOf s c k
    lastApplied := q }) fun _ => ⟨rfl, rfl, rfl, rfl, rfl⟩

end

theorem deliverCash_part (k : Counts) (q : Nat) (s : State) : OneDrawerPart (fun n => deliverCash n k q) (fun s n =>
    let d := s.store.drawers.get n
    { d with reserved := subCounts d.reserved k, lastApplied := max d.lastApplied q }) s :=
  ⟨fun _ => rfl, fun _ => .of_eq rfl⟩

theorem replayClose_part (r : Record) (s : State) : OneDrawerPart (replayClose r) (fun s n =>
    { s.store.drawers.get n with state := .closed, lastApplied := r.sequence }) s :=
  ⟨fun _ => rfl, fun _ => .of_eq rfl⟩

/-! ### A record's line (R34, R42) -/

/-- The records are the journal's, as far as the day counts them. -/
theorem recordAt_congr {s t : State} (journal : t.store.journal = s.store.journal)
    (used : t.store.day.used = s.store.day.used) : recordAt t = recordAt s := by
  funext q; simp only [recordAt, journal, used]

theorem SameLines.refl (s : State) : SameLines s s := ⟨rfl, rfl, rfl, rfl, rfl⟩

/-- The line intake leaves the kept answer of a reversal. -/
theorem intakeLine_lastAnswer {s : State} (up : s.power = .up) (r : Record) :
    (intakeLine r s).1.store.lastAnswer = s.store.lastAnswer := by
  rw [intakeLine_withLines (.refl s) up r]; rfl

/-- What the Passbook Line Unit makes of a record on a state with the same lines: the lines, the last taken key and the
kept answer as it makes them of that state, and no fault told. -/
theorem replayLine_sameLines {s u : State} (h : SameLines s u) (upS : s.power = .up) (up : u.power = .up)
    (answer : u.store.lastAnswer = s.store.lastAnswer) {r : Record} (original : originalOf u r = originalOf s r) :
    (replayLine r u).1.store = { u.store with
      accounts := (replayLine r s).1.store.accounts
      lastTaken := (replayLine r s).1.store.lastTaken
      lastAnswer := (replayLine r s).1.store.lastAnswer } ∧
    (replayLine r u).2 = (replayLine r s).2 ∧ TellsNoFault u (replayLine r u).1 := by
  unfold replayLine
  split
  · rw [original, handReversalLine_handedOver h up answer]
    exact ⟨rfl, rfl, _, rfl, fullNotice_other⟩
  · unfold handLine
    split
    · rw [intakeLine_withLines h up r]
      refine ⟨?_, rfl, _, rfl, fullNotice_other⟩
      rw [intakeLine_lastAnswer upS, ← answer]
      rfl
    · refine ⟨?_, rfl, .of_eq rfl⟩
      rw [← h.accounts, ← h.lastTaken, ← answer]

/-! ### A record's parts (R91) -/

/-- What the replay of a record's parts leaves, from `v`: drawers, board and lines by R91's table, the reserved counts
apart, and the disposition; no fault told. -/
structure PartsReplayed (v : State) (r : Record) (x : State × Disposition) : Prop where
  store : ∃ drawers, x.1.store = { v.store with
      drawers := drawers
      board := replayedBoard v r
      accounts := (replayedLines v r).1.store.accounts
      lastTaken := (replayedLines v r).1.store.lastTaken
      lastAnswer := (replayedLines v r).1.store.lastAnswer } ∧
    ∀ n, ∃ k, drawers.get n = { replayedDrawer v r n with reserved := k }
  disposition : x.2 = (replayedLines v r).2
  told : TellsNoFault v x.1

/-- A change made or not, known but for the reserved counts. -/
theorem ite_reserved {c : Prop} [Decidable c] {a b d : Drawer} (h : ∃ k, a = { b with reserved := k }) :
    ∃ k, (if c then a else d) = { (if c then b else d) with reserved := k } := by
  split
  · exact h
  · exact ⟨d.reserved, rfl⟩

/-- A record whose parts are all made at one of its drawers. -/
theorem partsReplayed_drawer {v : State} {r : Record} {f : DrawerNo → State → State} {g : State → DrawerNo → Drawer}
    (h : OneDrawerPart f g v) (noBoard : replayedBoard v r = v.store.board) (noLine : replayedLines v r = (v, .none))
    (drawer : ∀ n, ∃ k, (if dueAt v r r.drawer n = true then g v n else v.store.drawers.get n) =
      { replayedDrawer v r n with reserved := k }) : PartsReplayed v r (atDrawer r f v, .none) := by
  obtain ⟨drawers, store, each⟩ := atParty_store h r.drawer r
  refine ⟨⟨drawers, ?_, fun n => ?_⟩, by rw [noLine], atParty_told h r.drawer r⟩
  · rw [noBoard, noLine]; exact store
  · rw [each]; exact drawer n

/-- A posting or a reversal: cash at its drawer, then its line. -/
theorem partsReplayed_line {v : State} (up : v.power = .up) {r : Record} {f : DrawerNo → State → State}
    {g : State → DrawerNo → Drawer} (h : OneDrawerPart f g v) (atUp : (atDrawer r f v).power = .up)
    (clock : (atDrawer r f v).clock = v.clock) (noBoard : replayedBoard v r = v.store.board)
    (line : replayedLines v r = replayLine r v)
    (drawer : ∀ n, (if dueAt v r r.drawer n = true then g v n else v.store.drawers.get n) = replayedDrawer v r n) :
    PartsReplayed v r (replayLine r (atDrawer r f v)) := by
  obtain ⟨drawers, store, each⟩ := atParty_store h r.drawer r
  have store : (atDrawer r f v).store = { v.store with drawers := drawers } := store
  have same : SameLines v (atDrawer r f v) := ⟨by rw [store], by rw [store], by rw [store], by rw [store], clock⟩
  have original : originalOf (atDrawer r f v) r = originalOf v r := by
    rw [originalOf, recordAt_congr (s := v) (by rw [store]) (by rw [store])]; rfl
  obtain ⟨lines, disposition, told⟩ := replayLine_sameLines same up atUp (by rw [store]) original
  refine ⟨⟨drawers, ?_, fun n => ⟨(drawers.get n).reserved, ?_⟩⟩, by rw [line]; exact disposition,
    (atParty_told h r.drawer r).trans told⟩
  · rw [noBoard, line, lines, store]
  · rw [each, drawer]

/-- TRANSFER_IN: the receive at the to-drawer, then the deliver at the from-drawer where that is another. -/
theorem partsReplayed_transferIn {v : State} (up : v.power = .up) {r : Record} (kind : r.kind = .transferIn) :
    PartsReplayed v r (replayIn r v, .none) := by
  have receives := receiveCash_part up (recordCounts r) r.sequence
  obtain ⟨received, store, each⟩ := atParty_store receives r.drawer r
  let w := atDrawer r (fun n => receiveCash n (recordCounts r) r.sequence) v
  have store : w.store = { v.store with drawers := received } := store
  have delivers := deliverCash_part (recordCounts r) r.sequence w
  obtain ⟨drawers, store', each'⟩ := atParty_store delivers r.second r
  refine ⟨⟨drawers, ?_, fun n => ?_⟩, by simp [replayedLines, kind],
    (atParty_told receives r.drawer r).trans (atParty_told delivers r.second r)⟩
  · have board : replayedBoard v r = v.store.board := by simp [replayedBoard, kind]
    have lines : replayedLines v r = (v, .none) := by simp [replayedLines, kind]
    rw [board, lines]
    exact store'.trans (by rw [store])
  · have at' : w.store.drawers.get n = received.get n := by rw [store]
    rw [each', dueAt, at', each]
    by_cases first : dueAt v r r.drawer n = true
    · have first' : (r.drawer == some n && decide ((v.store.drawers.get n).lastApplied < r.sequence)) = true := first
      simp [replayedDrawer, kind, first, first']
    · have first' : ¬(r.drawer == some n && decide ((v.store.drawers.get n).lastApplied < r.sequence)) = true := first
      simp only [replayedDrawer, kind, if_neg first, if_neg first']
      split
      · rename_i second
        have later : (v.store.drawers.get n).lastApplied ≤ r.sequence :=
          Nat.le_of_lt (of_decide_eq_true (Bool.and_eq_true_iff.mp second).2)
        exact ⟨_, by rw [Nat.max_eq_right later]⟩
      · exact ⟨_, rfl⟩

/-- The board's own test, as R47 has it. -/
theorem replayBoard_store (v : State) {r : Record} (kind : r.kind = .rateChange) :
    (replayBoard r v).store = { v.store with board := replayedBoard v r } ∧ (replayBoard r v).port = v.port := by
  unfold replayBoard
  split
  · rename_i f e life g exchange
    have board : replayedBoard v r = if v.store.board.lastApplied < r.sequence then
        writeBoard f e life g r.sequence v.store.board else v.store.board := by
      simp only [replayedBoard, kind, exchange]
    rw [board]
    split <;> exact ⟨rfl, rfl⟩
  · rename_i other
    have board : replayedBoard v r = v.store.board := by
      unfold replayedBoard
      split
      · rename_i exchange
        exact absurd exchange (other _ _ _ _)
      · rfl
    rw [board]
    exact ⟨rfl, rfl⟩

theorem replayParts_replayed {v : State} (up : v.power = .up) (r : Record) : PartsReplayed v r (replayParts r v) := by
  have cash := cashChange_part up r.sequence (entryDeltas r.tender) (remainderOf r)
  have frame : UnchangedBut replayTouches v (atDrawer r (fun n =>
      cashChange n (entryDeltas r.tender) r.sequence (remainderOf r)) v) :=
    atParty_frame _ r (fun d u => (cashChange_frame d _ _ _ u).mono (by decide)) v
  have atUp := (frame.get .power (by decide)).trans up
  have clock := frame.get .clock (by decide)
  unfold replayParts
  dsimp only
  split <;> rename_i kind
  case h_1 | h_2 =>
    exact partsReplayed_line up cash atUp clock (by simp [replayedBoard, kind]) (by simp [replayedLines, kind])
      fun n => by simp only [replayedDrawer, kind]; rfl
  case h_3 =>
    refine partsReplayed_drawer (reserveCash_part up (recordCounts r) r.sequence) (by simp [replayedBoard, kind])
      (by simp [replayedLines, kind]) fun n => ?_
    simp only [replayedDrawer, kind]
    exact ite_reserved ⟨_, rfl⟩
  case h_4 => exact partsReplayed_transferIn up kind
  case h_5 =>
    refine partsReplayed_drawer (returnCash_part up (recordCounts r) r.sequence) (by simp [replayedBoard, kind])
      (by simp [replayedLines, kind]) fun n => ?_
    simp only [replayedDrawer, kind]
    exact ite_reserved ⟨_, rfl⟩
  case h_6 | h_7 | h_8 =>
    exact partsReplayed_drawer cash (by simp [replayedBoard, kind]) (by simp [replayedLines, kind])
      fun n => ⟨(replayedDrawer v r n).reserved, by simp only [replayedDrawer, kind]; rfl⟩
  case h_9 =>
    exact partsReplayed_drawer (replayClose_part r v) (by simp [replayedBoard, kind]) (by simp [replayedLines, kind])
      fun n => ⟨(replayedDrawer v r n).reserved, by simp only [replayedDrawer, kind]; rfl⟩
  case h_10 =>
    obtain ⟨store, port⟩ := replayBoard_store v kind
    have lines : replayedLines v r = (v, .none) := by simp only [replayedLines, kind]
    exact ⟨⟨v.store.drawers, by rw [store, lines], fun n => ⟨_, by simp only [replayedDrawer, kind]; rfl⟩⟩,
      by rw [lines], .of_eq (by rw [port])⟩
  case h_11 =>
    have lines : replayedLines v r = (v, .none) := by simp only [replayedLines, kind]
    have board : replayedBoard v r = v.store.board := by simp only [replayedBoard, kind]
    refine ⟨⟨_, by rw [lines, board, openDrawers, report_store],
      fun n => ⟨(replayedDrawer v r n).reserved, ?_⟩⟩, by rw [lines],
      .of_eq (by rw [openDrawers, report_port_windows])⟩
    simp only [Table.get_map, replayedDrawer, kind, decide_eq_true_eq]
  all_goals
    have lines : replayedLines v r = (v, .none) := by simp only [replayedLines, kind]
    have board : replayedBoard v r = v.store.board := by simp only [replayedBoard, kind]
    exact ⟨⟨v.store.drawers, by rw [lines, board], fun n => ⟨_, by simp only [replayedDrawer, kind]; rfl⟩⟩,
      by rw [lines], .of_eq rfl⟩

end Sys2Proof.Machine
end

section
/-! SUPPORT. The open commits replayed one after another (R91): what stands of the journal, and what a later commit reads. -/

namespace Sys2Proof.Machine

/-! ### One commit -/

/-- No part of a replay counts a drawer. -/
theorem replayParts_counted {v : State} (none : ∀ n, v.counted.get n = none) (r : Record) :
    ∀ n, (replayParts r v).1.counted.get n = Option.none := by
  have keeps {L : List Part} {t : State} (f : UnchangedBut L v t) (hL : .counted ∉ L) :
      ∀ n, t.counted.get n = Option.none :=
    fun n => (congrArg (Table.get · n) (f.get .counted hL)).trans (none n)
  have cash : UnchangedBut [.drawers, .windows, .buffers, .screens, .inExecution] v (atDrawer r (fun n =>
      cashChange n (entryDeltas r.tender) r.sequence (remainderOf r)) v) :=
    atParty_frame _ r (fun d u => cashChange_frame d _ _ _ u) v
  have line := (cash.mono (m := [.drawers, .windows, .buffers, .screens, .inExecution, .accounts, .lastTaken])
    (by decide)).trans ((replayLine_frame r _).mono (by decide))
  unfold replayParts
  dsimp only
  split
  case h_1 | h_2 => exact keeps line (by decide)
  case h_3 => exact keeps (atParty_frame _ r (fun d u => reserveCash_frame d _ _ u) v) (by decide)
  case h_4 =>
    exact keeps ((atParty_frame _ r (fun d u => receiveCash_frame d _ _ u) v).trans
      (atParty_frame _ r (fun d u => (deliverCash_frame d _ _ u).mono (by decide)) _)) (by decide)
  case h_5 => exact keeps (atParty_frame _ r (fun d u => returnCash_frame d _ _ u) v) (by decide)
  case h_6 | h_7 | h_8 => exact keeps cash (by decide)
  case h_9 =>
    have close (d : DrawerNo) (u : State) : UnchangedBut [.drawers] u (replayClose r d u) :=
      modifyDrawer_unchanged d _ (fun _ => rfl) (by decide) (.refl _ u)
    exact keeps (atParty_frame _ r close v) (by decide)
  case h_10 =>
    unfold replayBoard
    split
    · split <;> exact none
    · exact none
  case h_11 =>
    intro n
    rw [openDrawers, report_counted, Table.get_ofFn]
    split
    · rfl
    · exact none n
  all_goals exact none

/-- Of a state `s`, the commits `l` have been replayed, and `rest` are open still. -/
structure Replayed (l rest : List Nat) (s t : State) : Prop where
  frame : UnchangedBut replayTouches s t
  counted : (∀ n, s.counted.get n = none) → ∀ n, t.counted.get n = none
  told : TellsNoFault s t
  day : t.store.day = { s.store.day with openCommits := rest }
  length : t.store.journal.length = s.store.journal.length
  others : ∀ k, k + 1 ∉ l → t.store.journal[k]? = s.store.journal[k]?
  marked : ∀ c ∈ l, ∀ r, recordAt s c = some r → ∃ d, recordAt t c = some (markedRecord d r)

theorem Replayed.refl {rest : List Nat} {s : State} (open' : s.store.day.openCommits = rest) : Replayed [] rest s s :=
  ⟨.refl _ s, id, .of_eq rfl, by rw [← open'], rfl, fun _ _ => rfl, fun _ h => absurd h List.not_mem_nil⟩

/-- A record that stands. -/
theorem recordAt_eq_some {s : State} {c : Nat} {r : Record} : recordAt s c = some r ↔
    1 ≤ c ∧ c ≤ s.store.day.used ∧ s.store.journal[c - 1]? = some r := by
  unfold recordAt
  split
  · simp_all
  · simp only [reduceCtorEq, false_iff]
    tauto

theorem recordAt_sequence {s : State} (stand : sequencesStand s.store) {c : Nat} {r : Record} (h : recordAt s c = some r) :
    r.sequence = c := by
  obtain ⟨low, high, here⟩ := recordAt_eq_some.mp h
  have := stand.2 (c - 1) (by omega) r here
  omega

/-- A later mark takes the place of an earlier one. -/
theorem markedRecord_markedRecord (d e : Disposition) (r : Record) :
    markedRecord d (markedRecord e r) = markedRecord d r := by
  let x : Record := { r with disposition := d, applied := true }
  exact congrArg (fun c => ({ x with check := c } : Record)) (computeCheck_check x _)

/-- The journal and the day after one commit, its mark set. -/
theorem replayRecord_store {v : State} (up : v.power = .up) (r : Record) : ∃ drawers, (replayRecord r v).store =
    { v.store with
      journal := v.store.journal.modify (r.sequence - 1) (markedRecord (replayedLines v r).2)
      day := { v.store.day with openCommits := v.store.day.openCommits.erase r.sequence }
      drawers := drawers
      board := replayedBoard v r
      accounts := (replayedLines v r).1.store.accounts
      lastTaken := (replayedLines v r).1.store.lastTaken
      lastAnswer := (replayedLines v r).1.store.lastAnswer } ∧
    ∀ n, ∃ k, drawers.get n = { replayedDrawer v r n with reserved := k } := by
  obtain ⟨⟨drawers, store, each⟩, disposition, -⟩ := replayParts_replayed up r
  refine ⟨drawers, ?_, each⟩
  rw [← disposition]
  simp only [replayRecord, setApplied, store]

/-- The record's mark is set. -/
theorem replayRecord_recordAt {s : State} (up : s.power = .up) (stand : sequencesStand s.store) {c : Nat} {r : Record}
    (here : recordAt s c = some r) :
    recordAt (replayRecord r s) c = some (markedRecord (replayedLines s r).2 r) := by
  obtain ⟨drawers, store, -⟩ := replayRecord_store up r
  obtain ⟨low, high, entry⟩ := recordAt_eq_some.mp here
  rw [recordAt_sequence stand here] at store
  refine recordAt_eq_some.mpr ⟨low, ?_, ?_⟩
  · rw [store]; exact high
  · rw [store]
    simp [entry]

theorem replayRecord_replayed {s : State} (up : s.power = .up) (stand : sequencesStand s.store) {c : Nat} {rest : List Nat}
    {r : Record} (commits : s.store.day.openCommits = c :: rest) (here : recordAt s c = some r) :
    Replayed [c] rest s (replayRecord r s) := by
  obtain ⟨drawers, store, -⟩ := replayRecord_store up r
  have sequence := recordAt_sequence stand here
  obtain ⟨low, -, -⟩ := recordAt_eq_some.mp here
  rw [sequence] at store
  refine ⟨setApplied_unchanged _ _ (by decide) (replayParts_frame r s), fun none => replayParts_counted none r,
    (replayParts_replayed up r).told.trans (.of_eq rfl), ?_, ?_, fun k other => ?_, fun q hq x hx => ?_⟩
  · rw [store, commits, List.erase_cons_head]
  · rw [store, List.length_modify]
  · have apart : c - 1 ≠ k := fun e => other (List.mem_singleton.mpr (by omega))
    rw [store, List.getElem?_modify]
    simp [apart]
  · obtain rfl := List.mem_singleton.mp hq
    obtain rfl : r = x := Option.some.inj (here.symm.trans hx)
    exact ⟨_, replayRecord_recordAt up stand here⟩

/-! ### What the records are after marks have been set -/

theorem Replayed.used {l rest : List Nat} {s t : State} (h : Replayed l rest s t) : t.store.day.used = s.store.day.used := by
  rw [h.day]

/-- Any record stands as it was, or marked. -/
theorem Replayed.recordAt {l rest : List Nat} {s t : State} (h : Replayed l rest s t) (q : Nat) :
    (q ∉ l ∧ Machine.recordAt t q = Machine.recordAt s q) ∨
      q ∈ l ∧ ∀ r, Machine.recordAt s q = some r → ∃ d, Machine.recordAt t q = some (markedRecord d r) := by
  by_cases own : q ∈ l
  · exact .inr ⟨own, h.marked q own⟩
  · refine .inl ⟨own, ?_⟩
    unfold Machine.recordAt
    rw [h.used]
    split
    · exact h.others _ (by rwa [Nat.sub_add_cancel (by omega)])
    · rfl

theorem Replayed.recordAt_none {l rest : List Nat} {s t : State} (h : Replayed l rest s t) {q : Nat}
    (none : Machine.recordAt s q = none) : Machine.recordAt t q = Option.none := by
  unfold Machine.recordAt at none ⊢
  rw [h.used]
  split
  · rename_i within
    rw [if_pos within] at none
    rw [List.getElem?_eq_none_iff] at none ⊢
    rwa [h.length]
  · rfl

theorem Replayed.stand {l rest : List Nat} {s t : State} (h : Replayed l rest s t) (stand : sequencesStand s.store) :
    sequencesStand t.store := by
  refine ⟨by rw [h.used, h.length]; exact stand.1, fun n hn r here => ?_⟩
  rw [h.used] at hn
  have at' : Machine.recordAt t (n + 1) = some r := recordAt_eq_some.mpr ⟨by omega, by rw [h.used]; omega, here⟩
  cases before : Machine.recordAt s (n + 1) with
  | none => rw [h.recordAt_none before] at at'; cases at'
  | some x =>
    have sequence := recordAt_sequence stand before
    rcases h.recordAt (n + 1) with ⟨-, same⟩ | ⟨-, mark⟩
    · rw [same, before] at at'; cases at'; exact sequence
    · obtain ⟨d, marked⟩ := mark x before
      rw [marked] at at'; cases at'; exact sequence

/-- A commit that could be replayed can be still. -/
theorem Replayed.replayable {l rest : List Nat} {s t : State} (h : Replayed l rest s t) {c : Nat} (good : Replayable s c) :
    Replayable t c := by
  obtain ⟨r, here, ok, original⟩ := good
  have originals (q : Nat) (o : Record) (reads : Machine.recordAt t q = some o)
      (goods : ∀ x, Machine.recordAt s q = some x → x.checkOk = true) : o.checkOk = true := by
    cases before : Machine.recordAt s q with
    | none => rw [h.recordAt_none before] at reads; cases reads
    | some x =>
      rcases h.recordAt q with ⟨-, same⟩ | ⟨-, mark⟩
      · exact goods o (same ▸ reads)
      · obtain ⟨d, marked⟩ := mark x before
        rw [marked] at reads; cases reads; exact markedRecord_checkOk d x
  rcases h.recordAt c with ⟨-, same⟩ | ⟨-, mark⟩
  · exact ⟨r, same ▸ here, ok,
      fun kind post q o names reads => originals q o reads fun x hx => original kind post q x names hx⟩
  · obtain ⟨d, marked⟩ := mark r here
    exact ⟨_, marked, markedRecord_checkOk d r,
      fun kind post q o names reads => originals q o reads fun x hx => original kind post q x names hx⟩

theorem Replayed.trans {l m rest later : List Nat} {s t u : State} (h : Replayed l rest s t) (k : Replayed m later t u) :
    Replayed (l ++ m) later s u where
  frame := h.frame.trans k.frame
  counted none := k.counted (h.counted none)
  told := h.told.trans k.told
  day := by rw [k.day, h.day]
  length := k.length.trans h.length
  others n hn := by
    rw [List.mem_append, not_or] at hn
    exact (k.others n hn.2).trans (h.others n hn.1)
  marked c hc r here := by
    by_cases first : c ∈ l
    · obtain ⟨d, marked⟩ := h.marked c first r here
      rcases k.recordAt c with ⟨-, same⟩ | ⟨-, mark⟩
      · exact ⟨d, same.trans marked⟩
      · obtain ⟨e, twice⟩ := mark _ marked
        exact ⟨e, by rw [twice, markedRecord_markedRecord]⟩
    · have later : c ∈ m := (List.mem_append.mp hc).resolve_left first
      have before : Machine.recordAt t c = some r := by
        rcases h.recordAt c with ⟨-, same⟩ | ⟨own, -⟩
        · exact same.trans here
        · exact absurd own first
      exact k.marked c later r before

/-! ### The list (R91) -/

theorem makesLine_iff {k : Option PostKind} : makesLine k = true ↔ k = some .deposit ∨ k = some .withdrawal := by
  simp [makesLine]

/-- The check of a commit's record, and of the original that its handover reads, is good. -/
theorem readForReplay_good {s : State} {c : Nat} {r : Record} (good : Replayable s c) (here : recordAt s c = some r) :
    readForReplay s c = .ok r := by
  obtain ⟨x, at', ok, original⟩ := good
  obtain rfl : r = x := Option.some.inj (here.symm.trans at')
  have none : failedOriginal s r = none := by
    unfold failedOriginal
    split
    · rename_i handed
      refine Option.filter_eq_none_iff.mpr fun q names => ?_
      simp only [Option.any_eq_true, not_exists, not_and, Bool.not_eq_true', Bool.not_eq_false]
      exact fun o reads => original handed.1 (makesLine_iff.mp handed.2) q o names reads
    · rfl
  simp [readForReplay, here, ok, none]

theorem replayList_replays {l rest : List Nat} {s : State} (up : s.power = .up) (stand : sequencesStand s.store)
    (commits : s.store.day.openCommits = l ++ rest) (good : ∀ c ∈ l, Replayable s c) :
    ∃ t, replayList (l ++ rest) s = replayList rest t ∧ Replayed l rest s t ∧ (l = [] → t = s) := by
  induction l generalizing s with
  | nil => exact ⟨s, rfl, .refl commits, fun _ => rfl⟩
  | cons c l ih =>
    obtain ⟨first, later⟩ := List.forall_mem_cons.mp good
    obtain ⟨r, here, -⟩ := id first
    have one : Replayed [c] (l ++ rest) s (replayRecord r s) := replayRecord_replayed up stand commits here
    obtain ⟨t, replays, replayed, -⟩ := ih ((one.frame.get .power (by decide)).trans up) (one.stand stand)
      (by rw [one.day]) fun d hd => one.replayable (later d hd)
    refine ⟨t, ?_, one.trans replayed, fun e => nomatch e⟩
    rw [← replays, List.cons_append, replayList, readForReplay_good first here]

end Sys2Proof.Machine
end

section
/-! SUPPORT. A power-up that ends in STORE_INVALID (R83, R90, R91, R188). -/

namespace Sys2Proof.Machine

theorem foundBy_clock (battery : Bool) (s : State) :
    (foundBy battery s).clock = { s.clock with valid := battery && s.clock.valid } := by
  cases battery <;> rfl

/-- A power-up with an invalid store or a lost battery (R90, R188). -/
theorem powerUp_invalid (battery : Bool) (s : State) (bad : battery = false ∨ (s.kept.getD s.store).header.valid = false) :
    let x := s.kept.getD s.store
    ∃ t y, exec (.powerUp battery) s = .next t ∧ t.power = .up ∧ t.kept = some y ∧
      (battery = true → y = x) ∧ (battery = false → y = { x with header := y.header } ∧ y.header.valid = false) ∧
      t.store = formatStore y.header ∧ t.jsu = ⟨0, .storeInvalid⟩ ∧ t.pending = s.pending ∧
      UnitsPowered s t ∧ EnginesPowered s t (fun e => e.present || e.inFeed) ∧ PortPowered t ∧
      ScreensPowered (fun _ => false) t.scu ∧
      if battery = true ∧ s.clock.valid = true then
        t.clock = s.clock ∧ t.port.fault.held = false ∧ ∀ m, t.port.windows.get m = emptyWindow
      else
        t.clock = ⟨0, 0, false⟩ ∧ t.port.fault.held = true ∧ t.port.fault.kind = .clockLost ∧
          t.port.windows = notify [(officerMaster, .fault .clockLost .bpp [.num 0])] (Table.fill 5 emptyWindow) := by
  intro x
  let w := foundBy battery s
  have clock := foundBy_found battery s
  have invalid : (findClock w).store.header.valid = false := by
    rw [clock.store]
    cases battery
    · rfl
    · exact bad.resolve_left (by decide)
  have powered := (foundBy_restoring battery s).findClock.poweredUp true (formatStore (findClock w).store.header)
    (some (findClock w).store) { (findClock w).jsu with cause := .storeInvalid }
  have exec : exec (.powerUp battery) s = .next (enterInvalid (findClock w)) :=
    congrArg Host.Outcome.next ((powerUp_eq battery s).trans (restore_invalid invalid))
  refine ⟨_, _, exec, powered.power, rfl, ?_, ?_, rfl, ?_, powered.pending, powered.units, powered.engines, powered.port,
    powered.screens.dark, ?_⟩
  · rintro rfl
    exact clock.store
  · rintro rfl
    rw [clock.store]
    exact ⟨rfl, rfl⟩
  · have jsu : (enterInvalid (findClock w)).jsu = { (findClock w).jsu with cause := .storeInvalid } := rfl
    rw [jsu, clock.jsu]
    cases battery <;> rfl
  · have fault := clock.fault
    rw [foundBy_fault, foundBy_clock] at fault
    have windows := clock.windows
    rw [foundBy_windows, lostNotice, foundBy_clock] at windows
    have time := clock.clock
    rw [foundBy_clock] at time
    change if battery = true ∧ s.clock.valid = true then (findClock w).clock = s.clock ∧
        (findClock w).port.fault.held = false ∧ ∀ m, (findClock w).port.windows.get m = emptyWindow
      else (findClock w).clock = ⟨0, 0, false⟩ ∧ (findClock w).port.fault.held = true ∧
        (findClock w).port.fault.kind = .clockLost ∧ (findClock w).port.windows = _
    rw [time, fault, windows]
    split
    case isTrue held =>
      have same : { s.clock with valid := battery && s.clock.valid } = s.clock := by rw [held.1, Bool.true_and]
      rw [same, if_pos held.2, if_pos held.2, if_pos held.2]
      exact ⟨rfl, rfl, fun m => Table.get_fill ..⟩
    case isFalse lost =>
      have lost : ¬(battery && s.clock.valid) = true := by simpa using lost
      simp only [lost]
      exact ⟨rfl, rfl, rfl, rfl⟩

/-! ### The store and the clock found at a power-up with the battery held (R90, R188) -/

/-- The part as the restore finds it, the battery held. -/
def found (s : State) : State := findClock (opened s)

section
variable (s : State)

theorem found_clockFound : ClockFound (opened s) (found s) := foundBy_found true s

theorem found_restoring : Restoring s (found s) := (foundBy_restoring true s).findClock

theorem found_store : (found s).store = s.kept.getD s.store := (found_clockFound s).store

theorem found_jsu : (found s).jsu = ⟨0, s.jsu.cause⟩ := (found_clockFound s).jsu

theorem found_clock (x : Store) : (found s).clock = (restoreFrom s x).clock := (found_clockFound s).clock

theorem found_windows : (found s).port.windows = notify (lostNotice s) (Table.fill 5 emptyWindow) :=
  (found_clockFound s).windows

theorem found_fault : (found s).port.fault =
    if s.clock.valid then clearFault else ⟨true, .clockLost, .bpp, [.num 0], 0, 0, 0⟩ := (found_clockFound s).fault

theorem found_records : recordAt (found s) = recordAt (restoreFrom s (s.kept.getD s.store)) :=
  recordAt_congr (by rw [found_store]; rfl) (by rw [found_store]; rfl)

theorem execPowerUp_found : exec (.powerUp true) s = .next (restore (found s)) := rfl

end

/-- The replay of a list has come to its end, or been ended by a failing check. -/
theorem restore_replayed {s t : State} {b : Bool} (valid : s.store.header.valid = true)
    (list : replayList s.store.day.openCommits s = (t, b)) :
    restore s = if b = true then finishRestore s.store.day.openCommits t else enterInvalid t := by
  unfold restore
  rw [if_pos valid]
  simp only [list]
  cases b <;> rfl

/-! ### A commit whose check fails (R83, R91) -/

theorem replayable_congr {s t : State} (h : recordAt t = recordAt s) (c : Nat) : Replayable t c ↔ Replayable s c := by
  simp only [Replayable, h]

theorem failsAt_congr {s t : State} (h : recordAt t = recordAt s) (c q : Nat) : FailsAt t c q ↔ FailsAt s c q := by
  simp only [FailsAt, h]

/-- A failing check is found after the commits before it have been replayed: none of their records fails its check. -/
theorem Replayed.failsAt {l rest : List Nat} {s t : State} (h : Replayed l rest s t) (good : ∀ b ∈ l, Replayable s b)
    {c q : Nat} (fresh : c ∉ l) (fails : FailsAt s c q) : FailsAt t c q := by
  have same {n : Nat} (out : n ∉ l) : Machine.recordAt t n = Machine.recordAt s n :=
    (h.recordAt n).elim And.right fun own => absurd own.1 out
  rcases fails with ⟨own, bad⟩ | ⟨r, o, here, ok, kind, post, names, reads, bad⟩
  · exact .inl ⟨own, fun r hr => bad r (same fresh ▸ hr)⟩
  · have unmarked : q ∉ l := fun own => by
      obtain ⟨x, hx, sound, -⟩ := good q own
      obtain rfl : o = x := Option.some.inj (reads.symm.trans hx)
      exact Bool.noConfusion (sound.symm.trans bad)
    exact .inr ⟨r, o, (same fresh).trans here, ok, kind, post, names, (same unmarked).trans reads, bad⟩

theorem readForReplay_fails {s : State} {c q : Nat} (fails : FailsAt s c q) : readForReplay s c = .error q := by
  rcases fails with ⟨rfl, bad⟩ | ⟨r, o, here, ok, kind, post, names, reads, bad⟩
  · unfold readForReplay
    split
    · rename_i r here
      rw [bad r here]; rfl
    · rfl
  · have failed : failedOriginal s r = some q := by
      rw [failedOriginal, if_pos ⟨kind, makesLine_iff.mpr post⟩, names]
      simp [Option.filter, reads, bad]
    simp [readForReplay, here, ok, failed]

/-- The fault record of a power-up that found the clock, and then captured a fault of the Journal and Store Unit. -/
theorem faultFound_captured {s t v : State} (k : FaultKind) (n : Nat)
    (found : t.port.fault = if s.clock.valid then clearFault else ⟨true, .clockLost, .bpp, [.num 0], 0, 0, 0⟩)
    (fault : v.port.fault = (captureFault k .jsu [.num n] t).port.fault) : FaultFound s v (some (k, n)) := by
  unfold FaultFound
  rw [fault, captureFault_fault, found]
  cases s.clock.valid <;> simp [clearFault]

end Sys2Proof.Machine

open Sys2Proof Sys2Proof.Machine

/-- Settles O19: the commits before the failing one are replayed (`replayList_replays`), the failing check ends the list
(`readForReplay_fails`), and what enters STORE_INVALID is powered up over format values (`Restoring.poweredUp`). -/
theorem powerUpFindsAnInvalidStore : Obligations.PowerUpFindsAnInvalidStore := by
  unfold Obligations.PowerUpFindsAnInvalidStore
  refine ⟨?_, powerUp_invalid⟩
  intro s before c q rest x u valid stand commits distinct good fails
  have store : (found s).store = x := found_store s
  have sound : ∀ b ∈ before, Replayable (found s) b := fun b hb => (replayable_congr (found_records s) b).mpr (good b hb)
  obtain ⟨t, replays, replayed, nothing⟩ := replayList_replays (l := before) (rest := c :: rest) (found_restoring s).power
    (store ▸ stand) (store ▸ commits) sound
  have fresh : c ∉ before := fun own =>
    (List.disjoint_of_nodup_append (commits ▸ distinct)) own (List.mem_cons_self ..)
  have failed := readForReplay_fails (replayed.failsAt sound fresh ((failsAt_congr (found_records s) c q).mpr fails))
  have list : replayList (found s).store.day.openCommits (found s) = (storeCheckFault q t, false) := by
    rw [store, commits, replays, replayList, failed]
  have stopped : restore (found s) = enterInvalid (storeCheckFault q t) := restore_replayed (store ▸ valid) list
  have frame := replayed.frame
  have fault : UnchangedBut [.windows, .fault] t (storeCheckFault q t) := captureFault_frame .storeCheck .jsu [.num q] t
  have restoring : Restoring s (storeCheckFault q t) := ((found_restoring s).of_frame frame (by decide)
    (replayed.counted (found_restoring s).units.counted)).untouched fault (by decide)
  have captured : (storeCheckFault q t).store = t.store := captureFault_store ..
  have jsu : (storeCheckFault q t).jsu = ⟨0, s.jsu.cause⟩ :=
    (fault.get .jsu (by decide)).trans ((frame.get .jsu (by decide)).trans (found_jsu s))
  have clock : (storeCheckFault q t).clock = u.clock :=
    (fault.get .clock (by decide)).trans ((frame.get .clock (by decide)).trans (found_clock s x))
  have powered := restoring.poweredUp true (formatStore (storeCheckFault q t).store.header)
    (some (storeCheckFault q t).store) { (storeCheckFault q t).jsu with cause := .storeInvalid }
  refine ⟨_, (storeCheckFault q t).store, (execPowerUp_found s).trans (congrArg _ stopped), powered.power, rfl, ?_, ?_,
    fun k other => ?_, fun none => ⟨?_, ?_⟩, rfl, ?_, powered.pending, clock, powered.units, powered.engines, powered.port,
    powered.screens.dark, ?_⟩
  · rw [captured, ← store]
    exact frame.get .header (by decide)
  · rw [captured, replayed.day, store]
  · rw [captured, replayed.others k other, store]
  · rw [captured, nothing none, store]
  · have free : t.power = .up := nothing none ▸ (found_restoring s).power
    have told : (storeCheckFault q t).port.windows = _ := captureFault_windows .storeCheck .jsu [.num q] free
    rw [nothing none, found_windows] at told
    rw [notify_append]
    exact nothing none ▸ told
  · exact congrArg (fun j : Jsu => { j with cause := .storeInvalid }) jsu
  · exact faultFound_captured .storeCheck q ((frame.get .fault (by decide)).trans (found_fault s)) rfl
end

section
/-! SUPPORT. The rest of a restore whose replay is whole: reserved counts, offers, printed items, marks and the day
(R21, R75, R92, R114). -/

namespace Sys2Proof.Machine

/-! ### Marks computed anew (R21) -/

theorem markNotices_congr {s t : State} {n : DrawerNo}
    (mark : (t.store.drawers.get n).excess = (s.store.drawers.get n).excess)
    (bound : (t.store.drawers.get n).bound = (s.store.drawers.get n).bound)
    (state : (t.store.drawers.get n).state = (s.store.drawers.get n).state)
    (day : t.store.day.state = s.store.day.state) (positions : t.store.positions = s.store.positions) (after : Bool)
    (total : Nat) : markNotices t n after total = markNotices s n after total := by
  simp only [markNotices, mark, alertNotices_congr bound state day positions]

/-- The alerts of the drawers listed, whose marks are evaluated against their home totals (R8). -/
def evaluationNotices (s : State) (l : List DrawerNo) : List (Master × Detail) :=
  l.flatMap fun n => markNotices s n (evaluatedMark s n) (homeTotal s (s.store.drawers.get n))

/-- The marks of the drawers listed have been evaluated. -/
structure MarksEvaluated (l : List DrawerNo) (s t : State) : Prop where
  frame : UnchangedBut [.drawers, .windows, .buffers, .screens, .inExecution] s t
  store : ∃ drawers, t.store = { s.store with drawers := drawers } ∧ ∀ n, drawers.get n =
    if n ∈ l then { s.store.drawers.get n with excess := evaluatedMark s n } else s.store.drawers.get n
  windows : t.port.windows = notify (evaluationNotices s l) s.port.windows

theorem foldl_evaluateExcess {l : List DrawerNo} (distinct : l.Nodup) {s : State} (up : s.power = .up) :
    MarksEvaluated l s (l.foldl (fun s n => evaluateExcess n s) s) := by
  induction l generalizing s with
  | nil => exact ⟨.refl _ s, ⟨s.store.drawers, rfl, fun n => (if_neg List.not_mem_nil).symm⟩, rfl⟩
  | cons a l ih =>
    obtain ⟨fresh, distinct⟩ := List.nodup_cons.mp distinct
    let one := evaluateExcess a s
    have store : one.store = withMark a (evaluatedMark s a) s.store := evaluateExcess_store a s
    have own : one.store.drawers.get a = { s.store.drawers.get a with excess := evaluatedMark s a } := by
      rw [store]; exact Table.get_modify_self ..
    have other {n : DrawerNo} (h : a ≠ n) : one.store.drawers.get n = s.store.drawers.get n := by
      rw [store]; exact (Table.get_modify ..).trans (if_neg h)
    have total (d : Drawer) : homeTotal one d = homeTotal s d := homeTotal_congr (by rw [store]; rfl) d
    have mark {n : DrawerNo} (h : a ≠ n) : evaluatedMark one n = evaluatedMark s n := by
      rw [evaluatedMark, other h, total]; rfl
    obtain ⟨frame, ⟨drawers, rest, each⟩, windows⟩ := ih distinct (s := one) ((evaluateExcess_power a s).trans up)
    refine ⟨(evaluateExcess_frame a s).trans frame, ⟨drawers, ?_, fun n => ?_⟩, ?_⟩
    · rw [List.foldl_cons, rest, store]; rfl
    · rw [each]
      by_cases first : a = n
      · subst first
        rw [if_neg fresh, own, if_pos (List.mem_cons_self ..)]
      · rw [mark first, other first]
        simp only [List.mem_cons, show n ≠ a from fun same => first same.symm, false_or]
    · have told : evaluationNotices one l = evaluationNotices s l := by
        unfold evaluationNotices
        refine List.flatMap_congr fun n hn => ?_
        have apart : a ≠ n := fun e => fresh (e ▸ hn)
        rw [mark apart, other apart, total, markNotices_congr (s := s) (by rw [other apart]) (by rw [other apart])
          (by rw [other apart]) (by rw [store]; rfl) (by rw [store]; rfl)]
      rw [List.foldl_cons, windows, told, evaluateExcess_windows a up, ← notify_append]
      rfl

/-! ### Reserved counts and holds that follow from the offers (R92) -/

/-- What an entry of the transfer table adds to the reserved count of a denomination at a drawer. -/
def reservedFor (n : DrawerNo) (d : Denom) : Option Transfer → Nat
  | some a => if a.state = .offered ∧ a.fromDrawer = n then a.tender.get d else 0
  | none => 0

theorem reservedOf_get (s : State) (n : DrawerNo) (d : Denom) : (reservedOf s n).get d =
    ((List.finRange 8).map fun i => reservedFor n d (s.store.transfers.get i)).sum := by
  unfold reservedOf offeredSlots Table.entries
  induction List.finRange 8 with
  | nil => exact Table.get_fill ..
  | cons i l ih =>
    rw [List.map_cons, List.map_cons, List.sum_cons, ← ih]
    cases slot : s.store.transfers.get i with
    | none => simp [reservedFor]
    | some a =>
      by_cases offered : a.state = .offered
      · by_cases own : a.fromDrawer = n <;> simp [reservedFor, isOffered, offered, own, addCounts]
      · simp [reservedFor, isOffered, offered]

theorem length_filterMap_filter {α : Type} (p : α → Bool) (l : List (Option α)) :
  ((l.filterMap id).filter p).length = (l.filter fun e => e.any p).length := by
  induction l with
  | nil => rfl
  | cons e l ih =>
    cases e with
    | none => simpa using ih
    | some a => cases h : p a <;> simpa [h] using ih

theorem offeredSlots_length (s : State) :
    (offeredSlots s).length = (s.store.transfers.list.filter fun e => e.any isOffered).length := by
  rw [← length_filterMap_filter, ← offeredSlots_map_snd, List.length_map]

end Sys2Proof.Machine
end

section
/-! SUPPORT. What the end of a restore leaves (R21, R75, R91, R92, R114). -/

namespace Sys2Proof.Machine

/-! ### Cause and fault (R91) -/

theorem noteReplay_store (l : List Nat) (s : State) : (noteReplay l s).store = s.store := by
  cases l with
  | nil => rfl
  | cons lowest rest => exact captureFault_store ..

theorem noteReplay_jsu (l : List Nat) (s : State) :
    (noteReplay l s).jsu = ⟨s.jsu.holds, if l = [] then .clean else .replay⟩ := by
  cases l with
  | nil => rfl
  | cons lowest rest =>
    exact (captureFault_frame .restoreReplay .jsu [.num lowest] (setCause .replay s)).get .jsu (by decide)

/-! ### The units that settle first (R75, R92, R114) -/

/-- The drawers, transfers and accounts as R92, R75 and R114 leave them, the marks apart. -/
def settledStore (s : State) : Store :=
  { s.store with
    drawers := Table.ofFn fun n => { s.store.drawers.get n with reserved := reservedOf s n }
    transfers := s.store.transfers.map (Option.map restartTransfer)
    accounts := s.store.accounts.map (Option.map powerUpAccount) }

/-- The reserved counts, the offers and the accounts settled. -/
def settled (s : State) : State :=
  { s with store := settledStore s, jsu := { s.jsu with holds := (offeredSlots s).length } }

theorem powerUpPlu_settled (s : State) : powerUpPlu (restoreTransfers (settleReserved s)) = settled s := rfl

theorem settled_drawer (s : State) (n : DrawerNo) :
    (settled s).store.drawers.get n = { s.store.drawers.get n with reserved := reservedOf s n } := Table.get_ofFn ..

/-! ### Marks (R21) -/

/-- The teller drawers, in the order in which their marks are computed anew. -/
def tellerDrawers : List DrawerNo := (List.finRange 12).map Fin.castSucc

theorem tellerDrawers_nodup : tellerDrawers.Nodup := by decide

theorem mem_tellerDrawers : ∀ n : DrawerNo, n ∈ tellerDrawers ↔ n ≠ vault := by decide

theorem recomputeMarks_evaluated {s : State} (up : s.power = .up) : MarksEvaluated tellerDrawers s (recomputeMarks s) :=
  foldl_evaluateExcess tellerDrawers_nodup up

/-- The alerts of the marks that a restore changes (R21). -/
def markAlerts (s : State) : List (Master × Detail) :=
  (List.finRange 12).flatMap fun n =>
    let d := s.store.drawers.get n.castSucc
    markNotices s n.castSucc (newExcess d (homeTotal s d)) (homeTotal s d)

theorem settled_total (s : State) (n : DrawerNo) : homeTotal (settled s) ((settled s).store.drawers.get n) =
    homeTotal s (s.store.drawers.get n) := by rw [settled_drawer]; rfl

theorem settled_mark (s : State) (n : DrawerNo) : evaluatedMark (settled s) n =
    newExcess (s.store.drawers.get n) (homeTotal s (s.store.drawers.get n)) := by
  rw [evaluatedMark, settled_total, settled_drawer]; rfl

theorem evaluationNotices_settled (s : State) : evaluationNotices (settled s) tellerDrawers = markAlerts s := by
  unfold evaluationNotices tellerDrawers markAlerts
  rw [List.flatMap_map]
  refine List.flatMap_congr fun n _ => ?_
  have drawer := settled_drawer s n.castSucc
  rw [settled_mark, settled_total, markNotices_congr (s := s) (t := settled s) (by rw [drawer]) (by rw [drawer])
    (by rw [drawer]) rfl rfl]

/-! ### What is read of the store alone -/

section
variable {s t : State} (h : t.store = s.store)
include h

theorem reservedOf_congr : reservedOf t = reservedOf s := congrArg (fun x => reservedOf { s with store := x }) h

theorem offeredSlots_congr : offeredSlots t = offeredSlots s := congrArg (fun x => offeredSlots { s with store := x }) h

theorem markAlerts_congr : markAlerts t = markAlerts s := congrArg (fun x => markAlerts { s with store := x }) h

theorem replayedDrawer_congr : replayedDrawer t = replayedDrawer s :=
  congrArg (fun x => replayedDrawer { s with store := x }) h

theorem replayedBoard_congr : replayedBoard t = replayedBoard s :=
  congrArg (fun x => replayedBoard { s with store := x }) h

end

/-! ### The day (R92) -/

/-- A day left SENDING is SEALED. -/
def settledDay (d : DayRecord) : DayRecord := { d with state := if d.state = .sending then .sealed else d.state }

theorem endSending_eq (s : State) : endSending s = { s with store := { s.store with day := settledDay s.store.day } } := by
  unfold endSending settledDay
  split
  · rfl
  · rfl

/-! ### The whole (R90 to R92) -/

/-- The part with its marks computed anew and its day settled, before the last two units are powered up. -/
def restoredMarks (l : List Nat) (s : State) : State := recomputeMarks (settled (noteReplay l s))

theorem powerUpUnits_eq (t : State) : powerUpScu (powerUpPrinters false t) = poweredUp false t.store t.kept t.jsu t := rfl

theorem finishRestore_eq (l : List Nat) (s : State) :
    finishRestore l s = powerUpScu (powerUpPrinters false (endSending (restoredMarks l s))) := rfl

/-- The part from the end of a replay `v` on, restored. -/
structure Finished (s : State) (l : List Nat) (v t : State) : Prop where
  powered : Powered s false v.store t
  kept : t.kept = none
  clock : t.clock = v.clock
  store : t.store = { v.store with
    day := settledDay v.store.day
    drawers := t.store.drawers
    transfers := t.store.transfers
    accounts := t.store.accounts }
  transfers : t.store.transfers = v.store.transfers.map (Option.map restartTransfer)
  accounts : t.store.accounts = v.store.accounts.map (Option.map powerUpAccount)
  drawers : ∀ n, t.store.drawers.get n = restoredDrawer v n (reservedOf v n) (v.store.drawers.get n)
  jsu : t.jsu = ⟨(offeredSlots v).length, if l = [] then .clean else .replay⟩
  fault : t.port.fault = (noteReplay l v).port.fault
  windows : t.port.windows = notify (markAlerts v) (noteReplay l v).port.windows

section
variable {s v : State} (restoring : Restoring s v) (l : List Nat)
include restoring

theorem noteReplay_restoring : Restoring s (noteReplay l v) := restoring.untouched (noteReplay_frame l v) (by decide)

theorem noteReplay_settled : Restoring s (settled (noteReplay l v)) :=
  (noteReplay_restoring restoring l).withStore _ _ (noteReplay l v).clock

theorem restoredMarks_evaluated : MarksEvaluated tellerDrawers (settled (noteReplay l v)) (restoredMarks l v) :=
  recomputeMarks_evaluated (noteReplay_settled restoring l).power

theorem restoredMarks_restoring : Restoring s (restoredMarks l v) :=
  (noteReplay_settled restoring l).untouched (restoredMarks_evaluated restoring l).frame (by decide)

theorem restoredMarks_drawer (n : DrawerNo) : (restoredMarks l v).store.drawers.get n =
    restoredDrawer v n (reservedOf v n) (v.store.drawers.get n) := by
  obtain ⟨drawers, store, each⟩ := (restoredMarks_evaluated restoring l).store
  have noted : (noteReplay l v).store = v.store := noteReplay_store l v
  have teller : n ∈ tellerDrawers ↔ n ≠ vault := mem_tellerDrawers n
  have total := homeTotal_congr (s := v) (t := noteReplay l v) (by rw [noted]) (v.store.drawers.get n)
  rw [store]
  refine (each n).trans ?_
  rw [settled_mark, settled_drawer, noted, reservedOf_congr noted, total, restoredDrawer]
  by_cases atVault : n = vault
  · rw [if_neg fun own => teller.mp own atVault, if_pos atVault]
  · rw [if_pos (teller.mpr atVault), if_neg atVault]

end

theorem finishRestore_finished {s v : State} (restoring : Restoring s v) (l : List Nat) :
    Finished s l v (finishRestore l v) := by
  have noted := noteReplay_frame l v
  have same : (noteReplay l v).store = v.store := noteReplay_store l v
  have jsu := noteReplay_jsu l v
  obtain ⟨frame, ⟨drawers, store, -⟩, windows⟩ := restoredMarks_evaluated restoring l
  have atMarks := restoredMarks_restoring restoring l
  have drawer := restoredMarks_drawer restoring l
  rw [evaluationNotices_settled, markAlerts_congr same] at windows
  rw [finishRestore_eq, endSending_eq, powerUpUnits_eq]
  generalize restoredMarks l v = m at *
  have powered := atMarks.poweredUp false { m.store with day := settledDay m.store.day } m.kept m.jsu
  have positions : m.store.positions = v.store.positions := by rw [store, ← same]; rfl
  have held : m.jsu = _ := frame.get .jsu (by decide)
  refine ⟨⟨powered.power, powered.pending, powered.units, powered.engines, powered.port, positions ▸ powered.screens⟩,
    atMarks.kept, (frame.get .clock (by decide)).trans (noted.get .clock (by decide)), ?_, ?_, ?_, drawer, ?_,
    frame.get .fault (by decide), windows⟩
  · change { m.store with day := settledDay m.store.day } = { v.store with
      day := settledDay v.store.day
      drawers := m.store.drawers
      transfers := m.store.transfers
      accounts := m.store.accounts }
    rw [store, settled, settledStore, same]
  · change m.store.transfers = _
    rw [store, settled, settledStore, same]
  · change m.store.accounts = _
    rw [store, settled, settledStore, same]
  · change m.jsu = _
    rw [held, settled, jsu, offeredSlots_congr same]

end Sys2Proof.Machine
end

section
/-! SUPPORT. A power-up that restores a valid store (R90 to R92, R187, R188). -/

namespace Sys2Proof.Machine

/-! ### The store after the replay (R91) -/

/-- What a replay leaves of the branch store. -/
theorem Replayed.store {l rest : List Nat} {s t : State} (h : Replayed l rest s t) : t.store = { s.store with
    day := { s.store.day with openCommits := rest }
    journal := t.store.journal
    drawers := t.store.drawers
    board := t.store.board
    accounts := t.store.accounts
    lastTaken := t.store.lastTaken
    lastAnswer := t.store.lastAnswer } := by
  have get (p : Part) (hp : p ∉ replayTouches) : p.same s t := h.frame.get p hp
  have header : t.store.header = s.store.header := get .header (by decide)
  have lineSettings : t.store.lineSettings = s.store.lineSettings := get .lineSettings (by decide)
  have currencies : t.store.currencies = s.store.currencies := get .currencies (by decide)
  have positions : t.store.positions = s.store.positions := get .positions (by decide)
  have burst : t.store.burst = s.store.burst := get .burst (by decide)
  have transfers : t.store.transfers = s.store.transfers := get .transfers (by decide)
  have nextTransfer : t.store.nextTransfer = s.store.nextTransfer := get .nextTransfer (by decide)
  have classes : t.store.classes = s.store.classes := get .classes (by decide)
  have carryCount : t.store.carryCount = s.store.carryCount := get .carryCount (by decide)
  have pacing : t.store.pacing = s.store.pacing := get .pacing (by decide)
  dsimp only
  rw [← h.day, ← header, ← lineSettings, ← currencies, ← positions, ← burst, ← transfers, ← nextTransfer, ← classes,
    ← carryCount, ← pacing]

/-- What the Passbook Line Unit makes of a record is read of the store and the clock. -/
theorem replayedLines_congr {s t : State} (store : t.store = s.store) (clock : t.clock = s.clock) (upS : s.power = .up)
    (up : t.power = .up) (r : Record) :
    (replayedLines t r).1.store = (replayedLines s r).1.store ∧ (replayedLines t r).2 = (replayedLines s r).2 := by
  have same : SameLines s t := ⟨by rw [store], by rw [store], by rw [store], by rw [store], clock⟩
  have alike : SameLines s s := .refl s
  have original : originalOf t r = originalOf s r := congrArg (fun x => originalOf { s with store := x } r) store
  obtain ⟨of, disposition, -⟩ := replayLine_sameLines same upS up (by rw [store]) original
  obtain ⟨own, -, -⟩ := replayLine_sameLines alike upS upS rfl rfl
  unfold replayedLines
  split
  case h_1 | h_2 => exact ⟨of.trans (store ▸ own.symm), disposition⟩
  case h_3 => exact ⟨store, rfl⟩

theorem replayList_one {s : State} {q : Nat} {r : Record} (good : Replayable s q) (here : recordAt s q = some r) :
    replayList [q] s = (replayRecord r s, true) := by
  rw [replayList, readForReplay_good good here]; rfl

/-! ### FAULT notices (R91, R188) -/

theorem markAlerts_other (s : State) : ∀ e ∈ markAlerts s, e.2.kind ≠ 7 := by
  intro e he
  obtain ⟨n, -, here⟩ := List.mem_flatMap.mp he
  exact markNotices_other e here

theorem found_notice (s : State) : ((found s).port.windows.get officerMaster).waiting.get 7 =
    if s.clock.valid then none else some ⟨.fault .clockLost .bpp [.num 0], 0⟩ := by
  rw [found_windows, lostNotice]
  cases s.clock.valid <;> rfl

/-- A FAULT notice joins, or takes the place of the one that waits and counts it. -/
theorem notify_captured (k : FaultKind) (q : Nat) (w : Table Window 5) :
    ((notify [(officerMaster, .fault k .jsu [.num q])] w).get officerMaster).waiting.get 7 =
      some ⟨.fault k .jsu [.num q], ((w.get officerMaster).waiting.get 7).elim 0 fun n => min 255 (n.repeats + 1)⟩ := by
  rw [notify_cons, notify_nil, Table.get_modify_self, addNotice, Table.get_modify]
  refine (if_pos rfl).trans ?_
  dsimp only [Detail.kind]
  cases (w.get officerMaster).waiting.get 7 <;> rfl

/-! ### What a restored part holds -/

theorem Finished.restored {s v t : State} {l : List Nat} (h : Finished s l v t) {x : Store}
    (clock : v.clock = (restoreFrom s x).clock) (transfers : v.store.transfers = x.transfers)
    (positions : v.store.positions = x.positions) : Restored s t x := by
  refine ⟨h.powered.power, h.kept, h.clock.trans clock, h.powered.pending, fun n d => ?_, fun i => ?_, ?_, h.powered.units,
    h.powered.engines, positions ▸ h.powered.screens, h.powered.port⟩
  · rw [h.drawers, ← transfers]
    exact reservedOf_get v n d
  · rw [h.transfers, ← transfers]
    refine (Table.get_map ..).trans (congrArg (Option.map · _) (funext fun a => ?_))
    simp [restartTransfer, isOffered]
  · rw [h.jsu, ← transfers]
    exact offeredSlots_length v

theorem Finished.account {s v t : State} {l : List Nat} (h : Finished s l v t) (i : Fin 64) :
    t.store.accounts.get i = (v.store.accounts.get i).map powerUpAccount := by
  rw [h.accounts]; exact Table.get_map ..

theorem Finished.drawer {s v t : State} {l : List Nat} (h : Finished s l v t) (n : DrawerNo) :
    t.store.drawers.get n = restoredDrawer v n (t.store.drawers.get n).reserved (v.store.drawers.get n) := by
  rw [h.drawers]; rfl

theorem Finished.journal {s v t : State} {l : List Nat} (h : Finished s l v t) : t.store.journal = v.store.journal :=
  by rw [h.store]

theorem Finished.records {s v t : State} {l : List Nat} (h : Finished s l v t) : recordAt t = recordAt v :=
  recordAt_congr h.journal (by rw [h.store]; rfl)

theorem Finished.replayedStore {s v t w : State} {l rest : List Nat} (h : Finished s l v t) (k : Replayed l rest w v) :
    t.store = { w.store with
      day := { settledDay w.store.day with openCommits := rest }
      journal := t.store.journal
      drawers := t.store.drawers
      transfers := t.store.transfers
      board := t.store.board
      accounts := t.store.accounts
      lastTaken := t.store.lastTaken
      lastAnswer := t.store.lastAnswer } := by
  have board : t.store.board = v.store.board := by rw [h.store]
  have lastTaken : t.store.lastTaken = v.store.lastTaken := by rw [h.store]
  have lastAnswer : t.store.lastAnswer = v.store.lastAnswer := by rw [h.store]
  rw [h.journal, board, lastTaken, lastAnswer]
  exact h.store.trans (congrArg (fun x : Store => { x with
    day := settledDay x.day
    drawers := t.store.drawers
    transfers := t.store.transfers
    accounts := t.store.accounts }) k.store)

theorem Finished.faultNotice {s v t w : State} {q : Nat} {l rest : List Nat} (h : Finished s (q :: l) v t)
    (k : Replayed (q :: l) rest w v) (up : v.power = .up) : (t.port.windows.get officerMaster).waiting.get 7 =
      some ⟨.fault .restoreReplay .jsu [.num q],
        ((w.port.windows.get officerMaster).waiting.get 7).elim 0 fun n => min 255 (n.repeats + 1)⟩ := by
  have noted : (noteReplay (q :: l) v).port.windows =
      notify [(officerMaster, .fault .restoreReplay .jsu [.num q])] v.port.windows :=
    captureFault_windows _ _ _ (by exact up)
  obtain ⟨told, tells, other⟩ := k.told
  rw [h.windows, notify_fault (markAlerts_other v), noted, notify_captured, tells, notify_fault other]

theorem restoredDrawer_congr {s t : State} (h : t.store.currencies = s.store.currencies) :
    restoredDrawer t = restoredDrawer s := by
  funext n k d; rw [restoredDrawer, homeTotal_congr h]; rfl

/-- A single open commit: what the restored part holds is what the replay of its record makes of the store as found. -/
theorem Finished.oneCommit {s t u w : State} {q : Nat} {r : Record} (h : Finished s [q] (replayRecord r w) t)
    (up : w.power = .up) (upU : u.power = .up) (store : w.store = u.store) (clock : w.clock = u.clock)
    (stand : sequencesStand w.store) (here : recordAt w q = some r) :
    recordAt t q = some (markedRecord (replayedLines u r).2 r) ∧
      (∀ n, t.store.drawers.get n =
        restoredDrawer u n (t.store.drawers.get n).reserved (replayedDrawer u r n)) ∧
      t.store.board = replayedBoard u r ∧
      (∀ i, t.store.accounts.get i = ((replayedLines u r).1.store.accounts.get i).map powerUpAccount) ∧
      t.store.lastTaken = (replayedLines u r).1.store.lastTaken ∧
      t.store.lastAnswer = (replayedLines u r).1.store.lastAnswer := by
  obtain ⟨lines, disposition⟩ := replayedLines_congr store clock upU up r
  obtain ⟨drawers, after, each⟩ := replayRecord_store up r
  rw [lines] at after
  refine ⟨?_, fun n => ?_, ?_, fun i => ?_, ?_, ?_⟩
  · rw [h.records, ← disposition]
    exact replayRecord_recordAt up stand here
  · obtain ⟨k, drawer⟩ := each n
    have currencies : (replayRecord r w).store.currencies = u.store.currencies := by rw [after, store]
    have own : (replayRecord r w).store.drawers.get n = { replayedDrawer u r n with reserved := k } := by
      rw [after, ← replayedDrawer_congr store]; exact drawer
    refine (h.drawer n).trans ?_
    rw [own, restoredDrawer_congr currencies]
    rfl
  · rw [h.store, after, replayedBoard_congr store]
  · rw [h.account, after]
  · rw [h.store, after]
  · rw [h.store, after]

/-- The fault record of a power-up that captured nothing after the clock was found. -/
theorem faultFound_none {s t : State}
    (fault : t.port.fault = if s.clock.valid then clearFault else ⟨true, .clockLost, .bpp, [.num 0], 0, 0, 0⟩) :
    FaultFound s t none := by
  unfold FaultFound
  rw [fault]
  cases s.clock.valid <;> simp [clearFault]

/-! ### The restore of the part as found -/

section
variable {s : State} (valid : (s.kept.getD s.store).header.valid = true)
include valid

/-- No commit is open. -/
theorem restore_clean (clean : (s.kept.getD s.store).day.openCommits = []) :
    Finished s [] (found s) (restore (found s)) := by
  have store := found_store s
  have list : replayList (found s).store.day.openCommits (found s) = (found s, true) := by rw [store, clean]; rfl
  rw [restore_replayed (store ▸ valid) list, if_pos rfl, store, clean]
  exact finishRestore_finished (found_restoring s) []

/-- Every open commit can be replayed. -/
theorem restore_replays {l : List Nat} (commits : (s.kept.getD s.store).day.openCommits = l)
    (stand : sequencesStand (s.kept.getD s.store)) (good : ∀ c ∈ l, Replayable (found s) c) :
    ∃ v, replayList l (found s) = (v, true) ∧ Replayed l [] (found s) v ∧ Restoring s v ∧
      Finished s l v (restore (found s)) := by
  have store := found_store s
  obtain ⟨v, replays, replayed, -⟩ := replayList_replays (rest := []) (found_restoring s).power (store ▸ stand)
    (by rw [store, commits, List.append_nil]) good
  rw [List.append_nil] at replays
  have list : replayList (found s).store.day.openCommits (found s) = (v, true) := by rw [store, commits, replays]; rfl
  have restoring : Restoring s v := (found_restoring s).of_frame replayed.frame (by decide)
    (replayed.counted (found_restoring s).units.counted)
  refine ⟨v, replays, replayed, restoring, ?_⟩
  rw [restore_replayed (store ▸ valid) list, if_pos rfl, store, commits]
  exact finishRestore_finished restoring l

end

end Sys2Proof.Machine

open Sys2Proof Sys2Proof.Machine

/-- Settles O18: the open commits are replayed one by one (`restore_replays`), the end of the restore is spelled part by
part (`Finished`), and what both read of the part as found is read of its store and its clock. -/
theorem powerUpRestoresAValidStore : Obligations.PowerUpRestoresAValidStore := by
  unfold Obligations.PowerUpRestoresAValidStore
  refine ⟨?_, fun s => ?_⟩
  · intro s x u settled returned valid
    have store : (found s).store = x := found_store s
    have same : (found s).store = u.store := store
    refine ⟨fun clean => ?_, fun q rest commits stand good => ?_⟩
    · have finished := restore_clean valid clean
      refine ⟨_, execPowerUp_found s, finished.restored (found_clock s x) (by rw [store]) (by rw [store]),
        by rw [finished.jsu]; rfl, store ▸ finished.store, fun n => ?_, fun i => store ▸ finished.account i,
        faultFound_none (finished.fault.trans (found_fault s)), ?_⟩
      · rw [← store]
        exact (finished.drawer n).trans (by rw [restoredDrawer_congr (congrArg Store.currencies same)])
      · have told : (noteReplay [] (found s)).port.windows = notify (lostNotice s) (Table.fill 5 emptyWindow) :=
          found_windows s
        rw [finished.windows, told, markAlerts_congr same, notify_append]
        rfl
    · have records : recordAt (found s) = recordAt u := found_records s
      have sound : ∀ c ∈ q :: rest, Replayable (found s) c := fun c hc => (replayable_congr records c).mpr (good c hc)
      obtain ⟨v, replays, replayed, restoring, finished⟩ := restore_replays valid commits stand sound
      have frame := replayed.frame
      refine ⟨_, execPowerUp_found s, finished.restored ((frame.get .clock (by decide)).trans (found_clock s x))
        ((frame.get .transfers (by decide)).trans (by rw [store]))
        ((frame.get .positions (by decide)).trans (by rw [store])), by rw [finished.jsu]; rfl, ?_, ?_,
        store ▸ finished.replayedStore replayed, ?_, fun k other => ?_, fun c hc r here => ?_, fun r one here => ?_⟩
      · exact faultFound_captured (t := setCause .replay v) .restoreReplay q
          ((frame.get .fault (by decide)).trans (found_fault s)) finished.fault
      · rw [finished.faultNotice replayed restoring.power, found_notice]
        cases s.clock.valid <;> rfl
      · rw [finished.journal, replayed.length, store]
      · rw [finished.journal, replayed.others k other, store]
      · rw [finished.records]
        exact replayed.marked c hc r (records ▸ here)
      · subst one
        have reads : recordAt (found s) q = some r := records ▸ here
        have own : v = replayRecord r (found s) :=
          congrArg Prod.fst (replays.symm.trans (replayList_one (sound q (List.mem_singleton_self q)) reads))
        subst own
        exact finished.oneCommit (found_restoring s).power rfl same (found_clock s x) (store ▸ stand) reads
  · change Host.Outcome.next _ = _
    split <;> rfl
end

section
/-! SUPPORT. The account table: the entry of an account and the one taken for it, and what a line added to an entry leaves
(R99, R102, R103). -/

namespace Sys2Proof.Table

/-- The first entry with a property is what `findIdx` finds. -/
theorem findIdx_of_first {α : Type} {n : Nat} {t : Table α n} {p : α → Bool} {i : Fin n} (here : p (t.get i) = true)
    (before : ∀ j < i, p (t.get j) = false) : t.findIdx p = some i := by
  cases found : t.findIdx p with
  | none => exact absurd (findIdx_eq_none.mp found i) (by simp [here])
  | some k =>
    obtain ⟨has, least⟩ := findIdx_eq_some found
    rcases lt_trichotomy k i with less | same | more
    · exact absurd has (by simp [before k less])
    · rw [same]
    · exact absurd here (by simp [least i more])

end Sys2Proof.Table

namespace Sys2Proof.Machine

/-! ### The account of a number and the entry taken for it (R102) -/

theorem accountSlot_eq_none {s : State} {number : Nat} (h : ∀ i e, s.store.accounts.get i = some e → e.number ≠ number) :
    accountSlot s number = none :=
  Table.findSome_entries_none (p := fun e : Account => e.number == number) fun i e slot => by simpa using h i e slot

theorem isReclaimable_iff (e : Account) : isReclaimable e = true ↔
    (∀ l ∈ e.lines, l.void = true) ∧ e.summary = none ∧ e.taken = none ∧ e.jobRef = false ∧ e.newBook = false := by
  simp [isReclaimable, and_assoc]

/-- The last activity of the first entry is no later than that of the second. -/
abbrev NoLater (e f : Account) : Prop :=
  e.activeDay < f.activeDay ∨ e.activeDay = f.activeDay ∧ e.activeSecond ≤ f.activeSecond

/-- The entry can be reclaimed, and none that can was last active earlier (R102). -/
abbrev Earliest (u : Table (Option Account) 64) (e : Account) : Prop :=
  isReclaimable e = true ∧ ∀ j f, u.get j = some f → isReclaimable f = true → NoLater e f

theorem lessActive_first {a b : Fin 64 × Account} (h : NoLater a.2 b.2) : lessActive a b = a :=
  if_neg (by unfold NoLater at h; omega)

theorem lessActive_second {a b : Fin 64 × Account} (h : ¬NoLater a.2 b.2) : lessActive a b = b :=
  if_pos (by unfold NoLater at h; omega)

/-- An entry that is no later than those after it stays the one in hand. -/
theorem foldl_lessActive_keeps {m : Fin 64 × Account} {post : List (Fin 64 × Account)}
    (after : ∀ x ∈ post, NoLater m.2 x.2) : post.foldl lessActive m = m := by
  induction post with
  | nil => rfl
  | cons x rest ih =>
    rw [List.foldl_cons, lessActive_first (after x List.mem_cons_self)]
    exact ih fun y hy => after y (List.mem_cons_of_mem _ hy)

/-- One that is earlier than the one in hand and those before it besides takes its place and stays. -/
theorem foldl_lessActive {m : Fin 64 × Account} {post : List (Fin 64 × Account)} (after : ∀ x ∈ post, NoLater m.2 x.2)
    (pre : List (Fin 64 × Account)) (a : Fin 64 × Account) (before : ∀ x ∈ a :: pre, ¬NoLater x.2 m.2) :
    (pre ++ m :: post).foldl lessActive a = m := by
  induction pre generalizing a with
  | nil =>
    rw [List.nil_append, List.foldl_cons, lessActive_second (before a List.mem_cons_self), foldl_lessActive_keeps after]
  | cons b rest ih =>
    refine ih _ fun x hx => before x ?_
    rcases List.mem_cons.mp hx with rfl | hx
    · unfold lessActive
      split <;> simp
    · simp [hx]

/-- The entries that can be reclaimed, with their slots in ascending order. -/
def reclaimables (u : Table (Option Account) 64) : List (Fin 64 × Account) :=
  u.entries.filterMap fun e => e.2.bind fun a => if isReclaimable a then some (e.1, a) else none

theorem mem_reclaimables {u : Table (Option Account) 64} {x : Fin 64 × Account} :
    x ∈ reclaimables u ↔ u.get x.1 = some x.2 ∧ isReclaimable x.2 = true := by
  simp only [reclaimables, Table.entries, List.mem_filterMap, List.mem_map, Option.bind_eq_some_iff,
    Option.ite_none_right_eq_some]
  constructor
  · rintro ⟨_, ⟨i, -, rfl⟩, a, slot, has, e⟩
    cases e
    exact ⟨slot, has⟩
  · rintro ⟨slot, has⟩
    exact ⟨_, ⟨x.1, List.mem_finRange _, rfl⟩, x.2, slot, has, rfl⟩

theorem reclaimables_pairwise (u : Table (Option Account) 64) : (reclaimables u).Pairwise fun a b => a.1 < b.1 := by
  refine List.pairwise_filterMap.mpr (List.pairwise_map.mpr ((List.pairwise_lt_finRange 64).imp ?_))
  intro i j less a ha b hb
  obtain ⟨_, -, is⟩ := Option.bind_eq_some_iff.mp ha
  obtain ⟨_, -, is'⟩ := Option.bind_eq_some_iff.mp hb
  obtain ⟨-, is⟩ := Option.ite_none_right_eq_some.mp is
  obtain ⟨-, is'⟩ := Option.ite_none_right_eq_some.mp is'
  cases is
  cases is'
  exact less

theorem oldestReclaimable_eq (s : State) : oldestReclaimable s = match reclaimables s.store.accounts with
    | a :: rest => some (rest.foldl lessActive a).1
    | [] => none := rfl

/-- The search for a reclaimable entry finds the first of the earliest. -/
theorem oldestReclaimable_first {s : State} {i : Fin 64} {e : Account}
    (h : FirstWith s.store.accounts (Earliest s.store.accounts) i e) : oldestReclaimable s = some i := by
  obtain ⟨here, ⟨has, least⟩, before⟩ := h
  obtain ⟨pre, post, split⟩ := List.append_of_mem ((mem_reclaimables (x := (i, e))).mpr ⟨here, has⟩)
  have noLater : ∀ x ∈ reclaimables s.store.accounts, NoLater e x.2 := fun x hx =>
    least x.1 x.2 (mem_reclaimables.mp hx).1 (mem_reclaimables.mp hx).2
  have below : ∀ x ∈ pre, ¬NoLater x.2 e := fun x hx early => by
    have mem : x ∈ reclaimables s.store.accounts := split ▸ List.mem_append_left _ hx
    have sorted := split ▸ reclaimables_pairwise s.store.accounts
    have less : x.1 < i := (List.pairwise_append.mp sorted).2.2 x hx _ List.mem_cons_self
    obtain ⟨slot, can⟩ := mem_reclaimables.mp mem
    refine before x.1 less x.2 slot ⟨can, fun j f hf canf => ?_⟩
    have := least j f hf canf
    unfold NoLater at early this ⊢
    omega
  rw [oldestReclaimable_eq, split]
  cases pre with
  | nil => exact congrArg (fun x => some x.1) (foldl_lessActive_keeps fun x hx => noLater x (split ▸ by simp [hx]))
  | cons a rest =>
    have found := foldl_lessActive (m := (i, e)) (post := post) (fun x hx => noLater x (split ▸ by simp [hx])) rest a below
    simp only [List.cons_append, found]

/-- Where no entry can be reclaimed, none is found. -/
theorem oldestReclaimable_none {s : State} (h : ∀ i e, s.store.accounts.get i = some e → isReclaimable e = false) :
    oldestReclaimable s = none := by
  have empty : reclaimables s.store.accounts = [] := List.eq_nil_iff_forall_not_mem.mpr fun x hx => by
    obtain ⟨slot, can⟩ := mem_reclaimables.mp hx
    rw [h x.1 x.2 slot] at can
    exact Bool.noConfusion can
  rw [oldestReclaimable_eq, empty]

/-- The slot that R102 takes for an account without an entry. -/
theorem entryToTake_taken {s : State} {i : Fin 64}
    (h : TakenSlot s.store.accounts.get (Earliest s.store.accounts) i) : entryToTake s = some i := by
  unfold entryToTake
  rcases h with ⟨empty, before⟩ | ⟨full, ⟨e, here, first⟩, before⟩
  · rw [Table.findIdx_of_first (i := i) (by rw [empty]; rfl) fun j hj => by
      simpa [Option.isSome_iff_ne_none] using before j hj]
    rfl
  · rw [Table.findIdx_eq_none.mpr fun j => by simpa [Option.isSome_iff_ne_none] using full j]
    exact oldestReclaimable_first ⟨here, first, before⟩

theorem entryToTake_none {s : State} (h : ∀ i, ∃ e, s.store.accounts.get i = some e ∧ isReclaimable e = false) :
    entryToTake s = none := by
  unfold entryToTake
  rw [Table.findIdx_eq_none.mpr fun i => by obtain ⟨e, slot, -⟩ := h i; rw [slot]; rfl]
  refine oldestReclaimable_none fun i e slot => ?_
  obtain ⟨f, slot', cannot⟩ := h i
  obtain rfl := Option.some.inj (slot.symm.trans slot')
  exact cannot

/-! ### The entry of an account (R102) -/

theorem entryFor_held {s : State} {number : Nat} {i : Fin 64} {e : Account}
    (h : FirstWith s.store.accounts (fun e => e.number = number) i e) : entryFor s number = some (i, e) := by
  rw [entryFor, accountSlot_eq_some.mpr h]

theorem entryFor_taken {s : State} {number : Nat} {i : Fin 64}
    (absent : ∀ i e, s.store.accounts.get i = some e → e.number ≠ number)
    (h : TakenSlot s.store.accounts.get (Earliest s.store.accounts) i) :
    entryFor s number = some (i, touch s (emptyAccount number)) := by
  rw [entryFor, accountSlot_eq_none absent, entryToTake_taken h]
  rfl

theorem entryFor_none {s : State} {number : Nat}
    (absent : ∀ i e, s.store.accounts.get i = some e → e.number ≠ number)
    (h : ∀ i, ∃ e, s.store.accounts.get i = some e ∧ isReclaimable e = false) : entryFor s number = none := by
  rw [entryFor, accountSlot_eq_none absent, entryToTake_none h]
  rfl

theorem holdsLine_held {s : State} {number : Nat} {i : Fin 64} {e : Account}
    (h : FirstWith s.store.accounts (fun e => e.number = number) i e) (k : Key) :
    holdsLine s number k = true ↔ ∃ l ∈ e.lines, l.key = k := by
  simp [holdsLine, accountSlot_eq_some.mpr h]

/-! ### Keys and summaries (R99, R103, R109) -/

theorem keyLt_iff (a b : Key) : a.lt b = true ↔ KeyBefore a b := by simp [Key.lt, KeyBefore]

theorem least_eq (a b : Key) : a.least b = lowerKey a b := by simp only [Key.least, lowerKey, keyLt_iff]

theorem greatest_eq (a b : Key) : a.greatest b = higherKey a b := by simp only [Key.greatest, higherKey, keyLt_iff]

/-- The last taken key has been acted on (R101). -/
theorem alreadyTaken_last {s : State} {k : Key} (h : s.store.lastTaken = some k) : alreadyTaken s k = true := by
  simp [alreadyTaken, h, Key.lt]

/-! ### A line added to an entry (R103) -/

/-- The line dropped and those that stay are the lines there were. -/
theorem dropFirst_perm {p : Line → Bool} {ls : List Line} {b : Line} (h : ls.find? p = some b) :
    (b :: dropFirst p ls).Perm ls := by
  obtain ⟨has, pre, post, rfl, before⟩ := List.find?_eq_some_iff_append.mp h
  have others : ∀ c ∈ pre, ¬p c = true := fun c hc => by simpa using before c hc
  rw [dropFirst, List.eraseP_append_right _ others, List.eraseP_cons_of_pos has]
  exact List.perm_middle.symm

/-- A line put in the place of one dropped. -/
theorem insertLine_dropFirst_perm {p : Line → Bool} {ls : List Line} {b : Line} (h : ls.find? p = some b) (l : Line) :
    (b :: insertLine l (dropFirst p ls)).Perm (l :: ls) :=
  ((insertLine_perm l _).cons b).trans ((List.Perm.swap l b _).trans ((dropFirst_perm h).cons l))

theorem addLine_room {a : Account} (room : a.lines.length < 24) (l : Line) :
    addLine l a = { a with lines := insertLine l a.lines } := if_pos room

theorem addLine_overVoid {a : Account} (full : 24 ≤ a.lines.length) (void : ∃ b ∈ a.lines, b.void = true) (l : Line) :
    addLine l a = { a with lines := insertLine l (dropFirst Line.void a.lines) } := by
  rw [addLine, if_neg (by omega), if_pos (List.any_eq_true.mpr void)]

section
variable {a : Account} (full : 24 ≤ a.lines.length) (stand : ∀ b ∈ a.lines, b.void = false)
include full stand

theorem addLine_foldingPending {old : Line} (pending : a.lines.find? isPending = some old) (l : Line) :
    addLine l a = { a with
      lines := insertLine l (dropFirst isPending a.lines)
      summary := some (foldInto a.summary old) } := by
  rw [addLine, if_neg (by omega), if_neg (by simpa using stand), pending]

theorem addLine_foldingItself (taken : a.lines.find? isPending = none) (l : Line) :
    addLine l a = { a with summary := some (foldInto a.summary l) } := by
  rw [addLine, if_neg (by omega), if_neg (by simpa using stand), taken]

end

/-- Adding a line changes the lines, the summary and the last activity of an entry alone. -/
theorem addLine_rest (l : Line) (a : Account) (s : State) : { touch s (addLine l a) with
    lines := a.lines, summary := a.summary, activeDay := a.activeDay, activeSecond := a.activeSecond } = a := by
  unfold addLine
  repeat' split
  all_goals rfl

/-- Where no line is void, the first pending one is the first that no snapshot holds. -/
theorem find_isPending {ls : List Line} (stand : ∀ b ∈ ls, b.void = false) :
    ls.find? isPending = ls.find? fun c => !c.inSnapshot := by
  induction ls with
  | nil => rfl
  | cons b rest ih =>
    rw [List.find?_cons, List.find?_cons, ih fun c hc => stand c (List.mem_cons_of_mem _ hc), isPending,
      stand b List.mem_cons_self]
    rfl

/-! ### Where a line is placed (R101, R102) -/

theorem placeLine_placed {s : State} {number : Nat} {i : Fin 64} {e : Account} (h : entryFor s number = some (i, e))
    (l : Line) : placeLine number l s = (setAccount i (touch s (addLine l e)) s, true) := by
  rw [placeLine, h]

theorem placeLine_full {s : State} {number : Nat} (h : entryFor s number = none) (l : Line) :
    placeLine number l s = (raiseFull number s, false) := by
  rw [placeLine, h]

/-- A line placed in the entry taken for an account is its only one. -/
theorem placeLine_taken {s : State} {number : Nat} {i : Fin 64}
    (absent : ∀ i e, s.store.accounts.get i = some e → e.number ≠ number)
    (h : TakenSlot s.store.accounts.get (Earliest s.store.accounts) i) (l : Line) : placeLine number l s =
      (setAccount i ⟨number, [l], none, none, none, false, false, s.clock.day, s.clock.seconds⟩ s, true) := by
  rw [placeLine_placed (entryFor_taken absent h)]
  rfl

/-- "Passbook table full" is all that an account without an entry to take leaves (R101). -/
theorem raiseFull_windows (number : Nat) {s : State} (up : s.power = .up) :
    (raiseFull number s).port.windows = notify [(officerMaster, .passbookFull number)] s.port.windows := by
  rw [raiseFull, raiseOfficer_up _ up]
  rfl

theorem raiseFull_accounts (number : Nat) (s : State) : (raiseFull number s).store.accounts = s.store.accounts :=
  (raiseFull_frame number s).get .accounts (by decide)

/-- The entry after a line has joined it, by the ways room is made for it (R103). -/
def Joined (l : Line) (e x : Account) : Prop :=
  (e.lines.length < 24 → x.summary = e.summary ∧ x.lines.Perm (l :: e.lines)) ∧
  (24 ≤ e.lines.length → (∃ b ∈ e.lines, b.void = true) → x.summary = e.summary ∧
    ∃ b, e.lines.find? (fun c => c.void) = some b ∧ (b :: x.lines).Perm (l :: e.lines)) ∧
  (24 ≤ e.lines.length → (∀ b ∈ e.lines, b.void = false) →
    (∀ b, e.lines.find? (fun c => !c.inSnapshot) = some b →
      (b :: x.lines).Perm (l :: e.lines) ∧ x.summary = some (foldInto e.summary b)) ∧
    (e.lines.find? (fun c => !c.inSnapshot) = none → x.lines = e.lines ∧ x.summary = some (foldInto e.summary l)))

theorem addLine_joined (l : Line) (e : Account) : Joined l e (addLine l e) := by
  refine ⟨fun room => ?_, fun full void => ?_, fun full stand => ⟨fun b pending => ?_, fun taken => ?_⟩⟩
  · rw [addLine_room room]
    exact ⟨rfl, insertLine_perm l _⟩
  · obtain ⟨b, found⟩ := Option.isSome_iff_exists.mp (List.find?_isSome.mpr void)
    rw [addLine_overVoid full void]
    exact ⟨rfl, b, found, insertLine_dropFirst_perm found l⟩
  · rw [← find_isPending stand] at pending
    rw [addLine_foldingPending full stand pending]
    exact ⟨insertLine_dropFirst_perm pending l, rfl⟩
  · rw [← find_isPending stand] at taken
    rw [addLine_foldingItself full stand taken]
    exact ⟨rfl, rfl⟩

/-! ### The line intake (R101) -/

section
variable {r : Record} {a : Nat} {amount : Int} (account : r.account = some a) (home : r.homeAmount = some amount) (s : State)
include account

theorem intakeLine_again {k : Key} (own : k = recordKey s r.sequence) (h : alreadyTaken s k = true) :
    intakeLine r s = (s, earlierDisposition a k s) := by
  subst own
  simp only [intakeLine, h, if_true, account, Option.getD_some]

include home

theorem intakeLine_new {k : Key} (own : k = recordKey s r.sequence) (h : alreadyTaken s k = false) : intakeLine r s =
    let u := takeLine a ⟨k, r.narrative.getD 0, amount, r.balance, none, false, false⟩ s
    (setLastTaken k u.1, u.2) := by
  subst own
  simp only [intakeLine, h, Bool.false_eq_true, if_false, account, home, Option.getD_some]

end

theorem takeLine_lastAnswer (l : Line) (a : Nat) (s : State) :
    (takeLine a l s).1.store.lastAnswer = s.store.lastAnswer := by
  unfold takeLine
  split
  · rfl
  · exact ((placeLine_frame a l s).get .lastTaken (by decide)).2

section
variable {s : State} {a : Nat} (l : Line)

/-- An account with neither an entry nor a passbook class gets no line. -/
theorem takeLine_none (absent : ∀ i e, s.store.accounts.get i = some e → e.number ≠ a) (other : isPassbook s a = false) :
    takeLine a l s = (s, .none) := by
  simp [takeLine, accountSlot_eq_none absent, other]

theorem takeLine_held {i : Fin 64} {e : Account} (h : FirstWith s.store.accounts (fun e => e.number = a) i e) :
    takeLine a l s = (setAccount i (touch s (addLine l e)) s, .held) := by
  simp [takeLine, accountSlot_eq_some.mpr h, placeLine_placed (entryFor_held h)]

/-- A line of an account of a passbook class goes where one is placed. -/
theorem takeLine_passbook (book : isPassbook s a = true) : takeLine a l s =
    ((placeLine a l s).1, if (placeLine a l s).2 = true then .held else .notHeld) := by
  simp [takeLine, book]

end

end Sys2Proof.Machine

open Sys2Proof Sys2Proof.Machine

/-- Settles O33: a repeated key is answered from the lists, and a new one places the line in the account's entry
(`addLine_joined`), in the entry taken for it (`placeLine_taken`), or nowhere. -/
theorem linesJoinTheirAccount : Obligations.LinesJoinTheirAccount := by
  unfold Obligations.LinesJoinTheirAccount
  refine ⟨fun o l => ?_, isReclaimable_iff, fun e => ?_, ?_⟩
  · cases o with
    | none => rfl
    | some m => simp only [foldInto, least_eq, greatest_eq]
  · cases taken : e.taken <;> cases summary : e.summary <;>
      simp [releaseEntry, mergeTaken, mergeSummaries, taken, summary, least_eq, greatest_eq]
  intro r a amount s k line account home
  refine ⟨fun again => ?_, fun new => ?_⟩
  · rw [intakeLine_again account s (k := k) rfl again, earlierDisposition]
    refine ⟨rfl, fun i e first there => if_pos ((holdsLine_held first k).mpr there), fun nowhere => if_neg fun holds => ?_⟩
    cases slot : accountSlot s a with
    | none => simp [holdsLine, slot] at holds
    | some x =>
      have first := accountSlot_eq_some.mp slot
      obtain ⟨l, mem, is⟩ := (holdsLine_held first k).mp holds
      exact nowhere _ _ first l mem is
  · have taken : intakeLine r s = (setLastTaken k (takeLine a line s).1, (takeLine a line s).2) :=
      intakeLine_new account home s rfl new
    refine ⟨by rw [taken]; rfl, by rw [taken]; exact takeLine_lastAnswer line a s, (intakeLine_frame r s).mono (by decide),
      fun absent other => ?_, fun i e first => ?_,
      fun absent book => ⟨fun i slot => ?_, fun full => ?_⟩⟩
    · rw [taken, takeLine_none line absent other]
      exact ⟨rfl, rfl⟩
    · rw [taken, takeLine_held line first]
      obtain ⟨room, overVoid, folding⟩ := addLine_joined line e
      refine ⟨rfl, touch s (addLine line e), rfl, addLine_rest line e s, rfl, rfl,
        fun order => addLine_keeps_order line e order, room, overVoid, fun full stand => ?_⟩
      obtain ⟨pending, itself⟩ := folding full stand
      split
      · exact pending _ ‹_›
      · exact itself ‹_›
    · rw [taken, takeLine_passbook line book, placeLine_taken absent slot line]
      exact ⟨rfl, rfl⟩
    · rw [taken, takeLine_passbook line book, placeLine_full (entryFor_none absent full) line]
      exact ⟨rfl, raiseFull_accounts a s, fun up => raiseFull_windows a up⟩
end

section
/-! SUPPORT. The handover of a reversal whose key is new (R104). -/

namespace Sys2Proof.Machine

/-! ### The cases of R104's table -/

theorem pendingLine_eq_some {s : State} {a : Nat} {k : Key} {i : Fin 64} {e : Account}
    (h : FirstWith s.store.accounts (fun e => e.number = a) i e) (pending : ∃ l ∈ e.lines, l.key = k ∧ isPending l = true) :
    pendingLine s a k = some (i, e) := by
  obtain ⟨l, mem, is, has⟩ := pending
  rw [pendingLine, accountSlot_eq_some.mpr h]
  exact if_pos (List.any_eq_true.mpr ⟨l, mem, by simp [is, has]⟩)

theorem pendingLine_eq_none {s : State} {a : Nat} {k : Key}
    (h : ∀ i e, FirstWith s.store.accounts (fun e => e.number = a) i e → ∀ l ∈ e.lines, l.key = k → isPending l = false) :
    pendingLine s a k = none := by
  unfold pendingLine
  cases slot : accountSlot s a with
  | none => rfl
  | some x =>
    refine if_neg fun pending => ?_
    obtain ⟨l, mem, is⟩ := List.any_eq_true.mp pending
    have := h x.1 x.2 (accountSlot_eq_some.mp slot) l mem
    simp_all

section
variable {r : Record} {a : Nat} (account : r.account = some a) (original : Nat) (s : State)

/-- The contra line of a reversal (R104). -/
def contraLine (r : Record) (original : Nat) (s : State) : Line :=
  ⟨recordKey s r.sequence, r.narrative.getD 0, r.homeAmount.getD 0, none, some original, false, false⟩

theorem actOnReversal_other {d : Disposition} (other : d ≠ .held) : actOnReversal r original d s = (s, .none) :=
  if_pos other

include account

theorem actOnReversal_voids {i : Fin 64} {e : Account} (h : pendingLine s a (recordKey s original) = some (i, e)) :
    actOnReversal r original .held s =
      (setAccount i (touch s { e with lines := voidLine (recordKey s original) e.lines }) s, .voided) := by
  simp [actOnReversal, account, h]

theorem actOnReversal_contra (h : pendingLine s a (recordKey s original) = none) : actOnReversal r original .held s =
    let u := placeLine a (contraLine r original s) s
    (u.1, if u.2 = true then .contraHeld else .contraNotHeld) := by
  unfold actOnReversal
  simp only [account, Option.getD_some, h, ne_eq, not_true_eq_false, if_false]
  rfl

end

/-! ### The handover (R104) -/

theorem handReversal_again {r : Record} {s : State} (h : s.store.lastTaken = some (recordKey s r.sequence)) (original : Nat)
    (d : Disposition) : handReversal r original d s = (s, s.store.lastAnswer) := by
  simp [handReversal, alreadyTaken_last h, earlierAnswer, h]

theorem handReversal_new {r : Record} {s : State} (h : alreadyTaken s (recordKey s r.sequence) = false) (original : Nat)
    (d : Disposition) : handReversal r original d s =
      let u := actOnReversal r original d s
      (setLastAnswer u.2 (setLastTaken (recordKey s r.sequence) u.1), u.2) := by
  simp [handReversal, h]

end Sys2Proof.Machine

open Sys2Proof Sys2Proof.Machine

/-- Settles O35: the key settles whether the handover is new, and the original's line whether it is voided in place or
cancelled by a contra line, placed as any line is. -/
theorem reversedLinesAreVoidedOrCancelled : Obligations.ReversedLinesAreVoidedOrCancelled := by
  unfold Obligations.ReversedLinesAreVoidedOrCancelled
  intro r original a disposition s date k u account
  refine ⟨fun last => handReversal_again last original disposition, fun new => ?_⟩
  have handed : u = (setLastAnswer (actOnReversal r original disposition s).2
      (setLastTaken k (actOnReversal r original disposition s).1), (actOnReversal r original disposition s).2) :=
    handReversal_new new original disposition
  have frame := (handReversal_frame r original disposition s).mono
    (show ∀ p ∈ _, p ∈ [Part.accounts, .lastTaken, .windows] by decide)
  refine ⟨by rw [handed]; rfl, by rw [handed]; rfl, frame, fun other => ?_, ?_, ?_⟩
  · rw [handed, actOnReversal_other original s other]
    exact ⟨rfl, rfl⟩
  · rintro rfl i e first
    refine ⟨fun pending => ?_, fun gone => ?_⟩
    · rw [handed, actOnReversal_voids account original s (pendingLine_eq_some first pending)]
      exact ⟨rfl, rfl⟩
    · have noPending : pendingLine s a (recordKey s original) = none := pendingLine_eq_none fun j f other => by
        obtain ⟨rfl, rfl⟩ := Prod.mk.inj (Option.some.inj ((accountSlot_eq_some.mpr other).symm.trans
          (accountSlot_eq_some.mpr first)))
        exact gone
      rw [handed, actOnReversal_contra account original s noPending, placeLine_placed (entryFor_held first)]
      exact ⟨rfl, rfl⟩
  · rintro rfl absent
    have noPending : pendingLine s a (recordKey s original) = none := pendingLine_eq_none fun j f other =>
      absurd other.2.1 (absent j f other.1)
    have contra := actOnReversal_contra account original s noPending
    refine ⟨fun i slot => ?_, fun full => ?_⟩
    · rw [handed, contra, placeLine_taken absent slot]
      exact ⟨rfl, rfl⟩
    · rw [handed, contra, placeLine_full (entryFor_none absent full)]
      exact ⟨rfl, raiseFull_accounts a s, fun up => raiseFull_windows a up⟩
end

section
/-! SUPPORT. PASSBOOK.NEWBOOK: its checks, and the entry it marks (R111). -/

namespace Sys2Proof.Machine

/-! ### Checks of which one fails (R182) -/

/-- Checks that pass leave the outcome to those after them. -/
theorem firstFailure_after {before after : List Check} (passed : ∀ x ∈ before, x.pass = true) :
    firstFailure (before ++ after) = firstFailure after := by
  rw [firstFailure_append, firstFailure_eq_none.mpr passed]
  rfl

theorem dayIs_preparing {s : State}
    (day : s.store.day.state = .noDay ∨ s.store.day.state = .opened ∨ s.store.day.state = .closing) :
    dayIs s [.noDay, .opened, .closing] = true := by
  rcases day with e | e | e <;> simp [dayIs, e]

/-! ### The request (R111) -/

section
variable {h : ReqHead} {p : Position} {a : Nat} {mode : BookMode} {s : State} (may : MayActFor h s p) (digits : a < 1000000000000)
variable (day : s.store.day.state = .noDay ∨ s.store.day.state = .opened ∨ s.store.day.state = .closing)
include may digits day

/-- The checks before those of the account pass. -/
theorem passbookNewbook_fields : ∀ c ∈ positionChecks h s (.value p.val) ++
    [⟨dayIs s [.noDay, .opened, .closing], .dayState, []⟩,
     ⟨!h.spare && isDigits12 (.value a) && (Fld.value mode).required fun _ => true, .badField, []⟩], c.pass = true := by
  simp only [List.forall_mem_append, List.forall_mem_cons]
  exact ⟨positionChecks_pass may, dayIs_preparing day, by simp [may.1, isDigits12, fitsDigits, Fld.required, digits], by simp⟩

variable {i : Fin 64} {e : Account}

theorem passbookNewbookChecks_pass (state : newBookState s ⟨.value p.val, .value a, .value mode⟩ = true)
    (free : ∀ x, accountSlot s a = some x → x.2.jobRef = false) (entry : entryFor s a = some (i, e)) :
    ∀ c ∈ passbookNewbookChecks h ⟨.value p.val, .value a, .value mode⟩ s, c.pass = true := by
  have fields := passbookNewbook_fields (mode := mode) may digits day
  simp only [List.forall_mem_append, List.forall_mem_cons] at fields
  obtain ⟨authority, day, body, -⟩ := fields
  simp only [passbookNewbookChecks, Fld.nat, Fld.getD, List.forall_mem_append, List.forall_mem_cons]
  refine ⟨authority, day, body, state, ?_, by simp [entry], by simp⟩
  cases slot : accountSlot s a with
  | none => rfl
  | some x => simp [free x slot]

/-- With the fields in order the account settles the outcome. -/
theorem passbookNewbookChecks_account : firstFailure (passbookNewbookChecks h ⟨.value p.val, .value a, .value mode⟩ s) =
    firstFailure [⟨newBookState s ⟨.value p.val, .value a, .value mode⟩, .wrongState, []⟩,
      ⟨(accountSlot s a).elim true fun x => !x.2.jobRef, .wrongState, []⟩,
      ⟨mode == .withdraw || (entryFor s a).isSome, .tableFull, []⟩] := by
  refine .trans ?_ (firstFailure_after (passbookNewbook_fields (mode := mode) may digits day))
  rw [List.append_assoc]
  rfl

/-- An account with a job is refused (R111). -/
theorem passbookNewbookChecks_job (first : FirstWith s.store.accounts (fun x => x.number = a) i e) (job : e.jobRef = true) :
    firstFailure (passbookNewbookChecks h ⟨.value p.val, .value a, .value mode⟩ s) = some ⟨false, .wrongState, []⟩ := by
  rw [passbookNewbookChecks_account may digits day, accountSlot_eq_some.mpr first]
  cases state : newBookState s ⟨.value p.val, .value a, .value mode⟩ <;> simp [firstFailure_cons, job]

/-- SET of an account that no entry can be taken for is refused (R102, R111). -/
theorem passbookNewbookChecks_full (absent : ∀ i e, s.store.accounts.get i = some e → e.number ≠ a)
    (book : isPassbook s a = true) (full : ∀ i, ∃ e, s.store.accounts.get i = some e ∧ isReclaimable e = false) :
    firstFailure (passbookNewbookChecks h ⟨.value p.val, .value a, .value .set⟩ s) = some ⟨false, .tableFull, []⟩ := by
  rw [passbookNewbookChecks_account may digits day, accountSlot_eq_none absent, entryFor_none absent full]
  simp [firstFailure_cons, newBookState, Fld.getD, Fld.nat, book]

end

theorem passbookNewbookTaken_eq {s : State} {a : Nat} {i : Fin 64} {e : Account} (entry : entryFor s a = some (i, e))
    (p : Position) (mode : BookMode) : passbookNewbookTaken ⟨.value p.val, .value a, .value mode⟩ s =
      take (setAccount i (touch s (newBookEntry mode e)) s)
        [numField (pendingCount (touch s (newBookEntry mode e))), [.flag (touch s (newBookEntry mode e)).summary.isSome]] := by
  simp only [passbookNewbookTaken, Fld.nat, Fld.getD, entry]

end Sys2Proof.Machine

open Sys2Proof Sys2Proof.Machine

/-- Settles O42: with the checks passed the entry of the account, or the one taken for it, is marked; the account alone
decides the refusals. -/
theorem newBooksAreMarkedAtTheAccount : Obligations.NewBooksAreMarkedAtTheAccount := by
  unfold Obligations.NewBooksAreMarkedAtTheAccount
  intro h p a mode s c served may digits day Marks
  let s1 : State := { s with scu := restartedScu s p }
  have unit : unitOf c ≠ .scu := by simp [c, unitOf, requestKind]
  have restarted : restartNamed c s = s1 := restartNamed_named c p rfl s
  have refused {x : Code} (failed : firstFailure (passbookNewbookChecks h ⟨.value p.val, .value a, .value mode⟩ s1) =
      some ⟨false, x, []⟩) : ∃ t, exec c s = .next t ∧
        UnchangedBut [.screens, .idles, .windows, .responses, .inExecution, .turns] s t ∧ Answered h 98 x false [] [] s t :=
    ⟨_, exec_refused served rfl restarted failed,
      respond_unchangedBut (restartedScu_frame p s) h _ _ _ _ (by decide) (by decide),
      answered_of_frame served (restartedScu_frame p s) unit (by decide) (l := []) rfl _ _ _ _⟩
  have marks {i : Fin 64} {e : Account} (entry : entryFor s1 a = some (i, e))
      (passed : ∀ x ∈ passbookNewbookChecks h ⟨.value p.val, .value a, .value mode⟩ s1, x.pass = true) : Marks i e := by
    have taken := passbookNewbookTaken_eq entry p mode
    have frame : UnchangedBut [.accounts, .screens, .idles] s (setAccount i (touch s1 (newBookEntry mode e)) s1) :=
      setAccount_unchanged _ _ (by decide) ((restartedScu_frame p s).mono (by decide))
    have answered := answered_of_frame served frame unit (by decide) (l := []) rfl 98 .done false
      [some (numField (pendingCount e)), some [.flag e.summary.isSome]]
    refine ⟨_, exec_taken served rfl restarted passed taken rfl,
      respond_unchangedBut frame h _ _ _ _ (by decide) (by decide), rfl, ?_, ?_⟩
    · cases mode <;> rfl
    · cases mode <;> exact answered
  refine ⟨fun i e first free set => ?_, fun absent book set => ⟨fun i slot => ?_, fun full => ?_⟩, fun i e first job => ?_⟩
  · have here : accountSlot s1 a = some (i, e) := accountSlot_eq_some.mpr first
    refine marks (entryFor_held first) (passbookNewbookChecks_pass may digits day ?_ (fun x hx => ?_) (entryFor_held first))
    · cases mode with
      | set => simp [newBookState, Fld.getD, Fld.nat, here]
      | withdraw => simp [newBookState, newBookSet, Fld.getD, Fld.nat, here, set rfl]
    · obtain rfl := Option.some.inj (here.symm.trans hx)
      exact free
  · have entry := entryFor_taken (s := s1) absent slot
    have unfound : accountSlot s1 a = none := accountSlot_eq_none absent
    refine marks entry (passbookNewbookChecks_pass may digits day ?_ (fun x hx => by simp [unfound] at hx) entry)
    have book : isPassbook s1 a = true := book
    simp [newBookState, Fld.getD, Fld.nat, set, book]
  · subst set
    exact refused (passbookNewbookChecks_full (s := s1) may digits day absent book full)
  · exact refused (passbookNewbookChecks_job (s := s1) may digits day first job)
end

section
/-! SUPPORT. The day-end file: in which section each block stands, and what the blocks of each section carry (R168, R169). -/

namespace Sys2Proof.Machine

/-! ### The section of a block (R168) -/

/-- The sections in their order: the header, the journal's blocks, the drawers, the carry-over's blocks, the trailer. -/
theorem blockPlace_eq (s : State) (b : Nat) : blockPlace s b =
    let j := (s.store.day.used + 31) / 32
    if b ≤ 1 then (.header, 0) else if b ≤ 1 + j then (.journal, b - 2) else if b = 2 + j then (.drawers, 0)
    else if b < 3 + j + (s.store.carryCount + 31) / 32 then (.carry, b - 3 - j) else (.trailer, 0) := rfl

section
variable (s : State)

theorem blockPlace_header : blockPlace s 1 = (.header, 0) := rfl

theorem blockPlace_journal {i : Nat} (h : i < (s.store.day.used + 31) / 32) : blockPlace s (2 + i) = (.journal, i) := by
  rw [blockPlace_eq]
  dsimp only
  rw [if_neg (by omega), if_pos (by omega), Nat.add_sub_cancel_left]

theorem blockPlace_drawers : blockPlace s (2 + (s.store.day.used + 31) / 32) = (.drawers, 0) := by
  rw [blockPlace_eq]
  dsimp only
  rw [if_neg (by omega), if_neg (by omega), if_pos rfl]

theorem blockPlace_carry {i : Nat} (h : i < (s.store.carryCount + 31) / 32) :
    blockPlace s (3 + (s.store.day.used + 31) / 32 + i) = (.carry, i) := by
  rw [blockPlace_eq]
  dsimp only
  rw [if_neg (by omega), if_neg (by omega), if_neg (by omega), if_pos (by omega), Nat.sub_sub, Nat.add_sub_cancel_left]

theorem blockPlace_trailer :
    blockPlace s (3 + (s.store.day.used + 31) / 32 + (s.store.carryCount + 31) / 32) = (.trailer, 0) := by
  rw [blockPlace_eq]
  dsimp only
  rw [if_neg (by omega), if_neg (by omega), if_neg (by omega), if_neg (by omega)]

end

/-! ### The records of a block (R169) -/

/-- A block is its records under its section. -/
theorem blockFrame_eq {s : State} {b i : Nat} {x : FileSection} (place : blockPlace s b = (x, i)) {l : List (List Byte)}
    (records : blockRecords s b = l) : blockFrame s b = framed b x.code l := by
  rw [blockFrame, place, records]
  rfl

theorem tenderBytes_eq (e : Denom × Int) :
    tenderBytes e = bytesOf 1 (64 * (e.1.val / 12) + e.1.val % 12) ++ countBytes e.2 := by
  simp [tenderBytes, bytesOf]

theorem countEntries_eq (s : State) (k : Counts) : countEntries s k = (definedDenoms s).flatMap fun x =>
    bytesOf 1 (64 * (x.val / 12) + x.val % 12) ++ countBytes (k.get x) := by
  simp only [countEntries, closingEntries, List.flatMap_map, tenderBytes_eq]

theorem homeSum_eq (l : List Record) : homeSum l =
    (((l.filter fun r => r.kind == .posting || r.kind == .reversal).map fun r => r.homeAmount.getD 0).sum % 4294967296).toNat := by
  rw [homeSum, List.sum, List.foldr_map]
  rfl

/-! ### The carry-over set (R113, R169) -/

/-- Accounts in ascending number are in the one order there is of them. -/
theorem accountsByNumber_eq {s : State} {held : List Account} (all : held.Perm (s.store.accounts.list.filterMap id))
    (ascending : held.Pairwise fun a b => a.number < b.number) : accountsByNumber s = held := by
  have distinct : ∀ a ∈ held, ∀ b ∈ held, a.number = b.number → a = b :=
    List.inj_on_of_nodup_map (List.pairwise_map.mpr (ascending.imp Nat.ne_of_lt))
  have same : (accountsByNumber s).Perm held := (List.perm_insertionSort _ _).trans all.symm
  refine same.eq_of_pairwise (le := fun a b => a.number ≤ b.number) (fun a b ha hb ab ba => ?_)
    (List.pairwise_insertionSort _ _) (ascending.imp Nat.le_of_lt)
  exact distinct a (same.subset ha) b hb (Nat.le_antisymm ab ba)

theorem carryBytes_carryOf (a : Account) : (carryOf a).map carryBytes = carriedOver a := by
  simp only [carryOf, snapshotItems, carriedOver, List.map_append, List.map_map]
  rfl

theorem carrySet_bytes (s : State) : (carrySet s).map carryBytes = (accountsByNumber s).flatMap carriedOver := by
  simp only [carrySet, List.map_flatMap, carryBytes_carryOf]

end Sys2Proof.Machine

open Sys2Proof Sys2Proof.Machine

/-- Settles O11: each block's place in the file gives its section, and the records of each section are laid out as its
layout says. -/
theorem blocksCarryTheDayEndFile : Obligations.BlocksCarryTheDayEndFile := by
  unfold Obligations.BlocksCarryTheDayEndFile
  intro s n m j c all journal counts cash numberOf
  refine ⟨blockFrame_eq (blockPlace_header s) rfl, fun i hi => ?_, ?_, fun held perm ascending i hi => ?_, ?_⟩
  · have place := blockPlace_journal s hi
    refine blockFrame_eq place ?_
    simp only [blockRecords, place, image_eq_laidOut]
    rfl
  · have place := blockPlace_drawers s
    refine blockFrame_eq place ?_
    simp only [blockRecords, place, drawerNos]
    refine List.map_congr_left fun d _ => ?_
    simp only [drawerSection, countEntries_eq]
    rfl
  · have place := blockPlace_carry s hi
    refine blockFrame_eq place ?_
    simp only [blockRecords, place, window, List.map_take, List.map_drop, carrySet_bytes, accountsByNumber_eq perm ascending]
  · have place := blockPlace_trailer s
    refine blockFrame_eq place ?_
    simp only [blockRecords, place, trailerRecord, homeSum_eq]
    rfl
end

section
/-! SUPPORT. Settings: requests that set one value and answer it (R98, R133, R135, R167, R183, R184, R187, R188). -/

namespace Sys2Proof.Machine

/-! ### Values brought into their range -/

theorem clamp_ne {lo hi : Nat} (order : lo ≤ hi) (n : Nat) : (clamp lo hi n != n) = decide (n < lo ∨ hi < n) := by
  rw [Bool.eq_iff_iff, bne_iff_ne, decide_eq_true_eq, clamp]
  omega

@[simp] theorem given_toOption {α : Type} (o : Option α) : (given o).toOption = o := by cases o <;> rfl

@[simp] theorem given_present {α : Type} (o : Option α) : (given o).present = o.isSome := by cases o <;> rfl

@[simp] theorem given_optional {α : Type} (p : α → Bool) (o : Option α) : (given o).optional p = o.all p := by
  cases o <;> rfl

/-- Whether a value that may be absent was clamped. -/
theorem given_clamped {lo hi : Nat} (order : lo ≤ hi) (o : Option Nat) :
    ((given o).present && clamp lo hi (given o).nat != (given o).nat) = o.elim false fun n => decide (n < lo ∨ hi < n) := by
  cases o with
  | none => rfl
  | some n => exact clamp_ne order n

theorem stagedValue_given (lo hi : Nat) (o : Option Nat) (old : Nat) :
    stagedValue lo hi (given o) old = (o.map fun n => max lo (min hi n)).getD old := by
  rw [stagedValue, given_toOption]
  rfl

theorem wasClamped_given {lo hi : Nat} (order : lo ≤ hi) (o : Option Nat) :
    wasClamped lo hi (given o) = o.map fun n => [.flag (decide (n < lo ∨ hi < n))] := by
  simp only [wasClamped, given_toOption, clamp_ne order]

/-! ### Requests that set and answer -/

/-- A request in service that restarts no idle count, whose checks pass and whose part leaves windows and turns as they
are: its part, and its answer. -/
theorem exec_sets {h : ReqHead} {i : Instr} {s : State} (e : InService h i s) {checks : State → List Check}
    {taken : State → Verdict} (x : exec i s = .next (carry h i (fun s => judge (checks s) s (taken s)) s))
    (restarted : restartNamed i s = s) (unit : unitOf i ≠ .scu) (passed : ∀ c ∈ checks s, c.pass = true) {v : Verdict}
    (hv : taken s = v) (now : v.answered = true) {parts : List Part} (frame : UnchangedBut parts s v.state)
    (kept : Part.turns ∉ parts ∧ Part.windows ∉ parts) {result : State → Prop}
    (holds : ∀ t, t.store = v.state.store → t.scu = v.state.scu → t.port.fault = v.state.port.fault → result t) :
    ∃ t, exec i s = .next t ∧ UnchangedBut (parts ++ [.windows, .responses, .inExecution, .turns]) s t ∧ result t ∧
      Answered h ((requestKind i).getD 0) v.code v.masked v.fields [] s t :=
  ⟨_, exec_taken e x restarted passed hv now,
    respond_unchangedBut frame h _ _ _ _ (fun _ hp => List.mem_append_left _ hp) (fun _ hp => List.mem_append_right _ hp),
    holds _ rfl rfl rfl, answered_of_frame e frame unit kept.1 (l := []) (frame.get .windows kept.2) _ _ _ _⟩

/-! ### CLASS.SET (R97, R98) -/

theorem classMatches_iff (e : ClassEntry) (a : Nat) :
    classMatches e a = true ↔ e.length ≠ 0 ∧ a / 10 ^ (12 - e.length) = e.lead := by simp [classMatches]

/-- An account's class is the first entry that its leading digits match (R97). -/
theorem classOf_eq_some {s : State} {a : Nat} {k : Fin 8} : classOf s a = some k ↔
    classMatches (s.store.classes.get k) a = true ∧ ∀ j < k, ¬classMatches (s.store.classes.get j) a = true := by
  refine ⟨fun h => ?_, fun ⟨has, before⟩ => Table.findIdx_of_first has fun j hj => Bool.eq_false_iff.mpr (before j hj)⟩
  obtain ⟨has, before⟩ := Table.findIdx_eq_some h
  exact ⟨has, fun j hj => by simp [before j hj]⟩

section
variable {h : ReqHead} (any : FromAny h) (officer : h.master = officerMaster)
include any officer

theorem classSetChecks_pass (x : Fin 8) {length lead : Nat} (short : length ≤ 12) (digits : lead < 10 ^ length)
    (passbook : Bool) : ∀ c ∈ classSetChecks h ⟨.value x.val, .value length, .value (lead * 10 ^ (12 - length)),
      .value passbook⟩, c.pass = true := by
  have whole : (10 : Nat) ^ length * 10 ^ (12 - length) = 1000000000000 := by
    rw [← Nat.pow_add, Nat.add_sub_cancel' short]
  have fits : lead * 10 ^ (12 - length) < 1000000000000 :=
    whole ▸ Nat.mul_lt_mul_of_pos_right digits (Nat.pow_pos (by decide))
  have index : inRange 0 7 (.value x.val) = true := inRange_val x
  have length : inRange 0 12 (.value length) = true := (inRange_value ..).mpr ⟨Nat.zero_le _, short⟩
  simp only [classSetChecks, List.forall_mem_append, List.forall_mem_cons]
  refine ⟨officerOnly_pass ⟨officer, any.1⟩, ?_, by simp⟩
  simp [any.1, index, length, leadOk, Fld.required, Fld.nat, Fld.getD, fitsDigits, fits]

end

theorem classEntryOf_eq (x : Fin 8) (length lead : Nat) (passbook : Bool) :
    classEntryOf ⟨.value x.val, .value length, .value (lead * 10 ^ (12 - length)), .value passbook⟩ =
      ⟨length, lead, passbook⟩ := by
  simp [classEntryOf, Fld.nat, Fld.getD]

theorem classSetTaken_eq (x : Fin 8) (length lead : Nat) (passbook : Bool) (s : State) :
    classSetTaken ⟨.value x.val, .value length, .value (lead * 10 ^ (12 - length)), .value passbook⟩ s =
      let classes := s.store.classes.set x ⟨length, lead, passbook⟩
      take { s with store := { s.store with classes := classes } } (classes.list.map classItems) := by
  have index : Fin.ofNat 8 (Fld.value x.val).nat = x := by simp [Fld.nat, Fld.getD]
  simp only [classSetTaken, classEntryOf_eq, index]

/-! ### The other settings and their checks -/

/-- A read comes from any master, a setting from master 4. -/
theorem settingAuthority_pass {h : ReqHead} (any : FromAny h) {reads : Bool}
    (who : h.master = officerMaster ∨ reads = true) :
    ∀ c ∈ (if reads = true then anyMaster h else officerOnly h), c.pass = true := by
  split
  · exact anyMaster_pass any
  · exact officerOnly_pass ⟨who.resolve_right ‹_›, any.1⟩

section
variable {h : ReqHead} (any : FromAny h)
include any

theorem portSettingsChecks_pass {burst : Option Nat} (who : h.master = officerMaster ∨ burst = none) :
    ∀ c ∈ portSettingsChecks h (given burst), c.pass = true := by
  have authority : ∀ c ∈ (if (given burst).present = true then officerOnly h else anyMaster h), c.pass = true := by
    have := settingAuthority_pass any (reads := !(given burst).present) (who.imp_right fun e => by simp [e])
    cases present : (given burst).present <;> simpa [present] using this
  simp only [portSettingsChecks, List.forall_mem_append, List.forall_mem_cons]
  exact ⟨authority, by simp [any.1], by simp⟩

theorem positionBindChecks_pass (officer : h.master = officerMaster) {p : Position} {s : State}
    (free : (s.store.positions.get p).teller = none) (m : Fin 4) :
    ∀ c ∈ positionBindChecks h ⟨.value p.val, .value m.val⟩ s, c.pass = true := by
  have master : inRange 0 3 (.value m.val) = true := inRange_val m
  have position : inRange 0 11 (.value p.val) = true := inRange_val p
  simp only [positionBindChecks, List.forall_mem_append, List.forall_mem_cons, positionOf_val]
  exact ⟨officerOnly_pass ⟨officer, any.1⟩, by simp [any.1, position, master], by simp [tellerAt, free], by simp⟩

theorem lineSettingsChecks_pass {branch timeout : Option Nat} {s : State}
    (who : h.master = officerMaster ∨ branch = none ∧ timeout = none)
    (allowed : ∀ b, branch = some b → 1 ≤ b ∧ b ≤ 9999 ∧ s.store.day.state = .noDay) :
    ∀ c ∈ lineSettingsChecks h ⟨given branch, given timeout⟩ s, c.pass = true := by
  simp only [lineSettingsChecks, List.forall_mem_append, List.forall_mem_cons]
  refine ⟨settingAuthority_pass any (who.imp_right fun ⟨b, t⟩ => by simp [lineIsRead, b, t]), ?_, ?_, by simp⟩
  · cases branch with
    | none => simp [any.1]
    | some b => simp [any.1, between, allowed b rfl]
  · cases branch with
    | none => rfl
    | some b => simp [dayIs, allowed b rfl]

theorem printerPaceChecks_pass {column needle feed pitch margin jam : Option Nat} (p : PrinterNo)
    (who : h.master = officerMaster ∨
      column = none ∧ needle = none ∧ feed = none ∧ pitch = none ∧ margin = none ∧ jam = none) :
    ∀ c ∈ printerPaceChecks h ⟨.value p, given column, given needle, given feed, given pitch, given margin, given jam⟩,
      c.pass = true := by
  simp only [printerPaceChecks, List.forall_mem_append, List.forall_mem_cons]
  refine ⟨settingAuthority_pass any (who.imp_right fun absent => ?_), ?_, by simp⟩
  · obtain ⟨rfl, rfl, rfl, rfl, rfl, rfl⟩ := absent
    rfl
  · simp [any.1, isNamed, Fld.required]

theorem clockSetChecks_pass (officer : h.master = officerMaster) (day : Fin 65536) (seconds : Fin 86400) :
    ∀ c ∈ clockSetChecks h ⟨.value day.val, .value seconds.val⟩, c.pass = true := by
  have day : inRange 0 65535 (.value day.val) = true := inRange_val day
  have seconds : inRange 0 86399 (.value seconds.val) = true := inRange_val seconds
  simp only [clockSetChecks, List.forall_mem_append, List.forall_mem_cons]
  exact ⟨officerOnly_pass ⟨officer, any.1⟩, by simp [any.1, day, seconds], by simp⟩

theorem faultClearChecks_pass (officer : h.master = officerMaster) : ∀ c ∈ faultClearChecks h, c.pass = true := by
  simp only [faultClearChecks, List.forall_mem_append, List.forall_mem_cons]
  exact ⟨officerOnly_pass ⟨officer, any.1⟩, by simp [bodyCheck, any.1], by simp⟩

end

/-! ### What the requests take -/

theorem portSettingsTaken_eq (burst : Option Nat) (s : State) : portSettingsTaken (given burst) s =
    let after := (burst.map fun n => max 1 (min 4 n)).getD s.store.burst
    take { s with store := { s.store with burst := after } }
      [[.num after], [.flag (burst.elim false fun n => decide (n < 1 ∨ 4 < n))]] := by
  rw [portSettingsTaken, given_clamped (by decide), given_toOption]
  rfl

theorem positionBindTaken_eq (p : Position) (m : Fin 4) (s : State) : positionBindTaken ⟨.value p.val, .value m.val⟩ s =
    let positions := s.store.positions.set p { s.store.positions.get p with serving := m }
    take { s with store := { s.store with positions := positions } } [positions.list.map fun e => .num e.serving.val] := by
  have master : Fin.ofNat 4 (Fld.value m.val).nat = m := by simp [Fld.nat, Fld.getD]
  simp only [positionBindTaken, positionOf_val, master]
  rfl

theorem lineSettingsTaken_eq (branch timeout : Option Nat) (s : State) :
    lineSettingsTaken ⟨given branch, given timeout⟩ s =
      let x := s.sender
      let settings : LineSettings := ⟨branch.or s.store.lineSettings.branch,
        (timeout.map fun n => max 2 (min 60 n)).getD s.store.lineSettings.timeout⟩
      takeMasked { s with store := { s.store with lineSettings := settings } }
        [settings.branch.map fun b => [.num b], some [.num settings.timeout],
         some [.flag (timeout.elim false fun n => decide (n < 2 ∨ 60 < n))], some [.num x.state.place],
         x.failure.map fun f => [.num f.place], some [.num x.calls], some [.num s.store.day.ackThrough],
         some (.num x.outstanding.length :: x.outstanding.map fun b => .num b.block), some [.num x.anomalies]] := by
  rw [lineSettingsTaken, given_clamped (by decide), settingsAfter, given_toOption, given_toOption]
  rfl

theorem stagedPace_given (p : PrinterNo) (column needle feed pitch margin jam : Option Nat) (old : Pace) :
    stagedPace ⟨.value p, given column, given needle, given feed, given pitch, given margin, given jam⟩ old =
      ⟨(column.map fun n => max 200 (min 5000 n)).getD old.column, (needle.map fun n => max 50 (min 5000 n)).getD old.needle,
        (feed.map fun n => max 500 (min 10000 n)).getD old.feed, (pitch.map fun n => max 24 (min 96 n)).getD old.pitch,
        (margin.map fun n => max 0 (min 400 n)).getD old.margin, (jam.map fun n => max 50 (min 2000 n)).getD old.jam⟩ := by
  simp only [stagedPace, stagedValue_given]

theorem printerPaceTaken_eq (p : PrinterNo) (column needle feed pitch margin jam : Option Nat) {s : State} {staged : Pace}
    (values : stagedPace ⟨.value p, given column, given needle, given feed, given pitch, given margin, given jam⟩
      (s.store.pacing.get p).staged = staged) :
    printerPaceTaken ⟨.value p, given column, given needle, given feed, given pitch, given margin, given jam⟩ s =
      let applied := (s.store.pacing.get p).applied
      let clamped (lo hi : Nat) (n : Option Nat) : Option (List Item) :=
        n.map fun n => [.flag (decide (n < lo ∨ hi < n))]
      takeMasked { s with store := { s.store with pacing := s.store.pacing.set p ⟨staged, applied⟩ } }
        [some (paceItems staged), some (paceItems applied), clamped 200 5000 column,
          clamped 50 5000 needle, clamped 500 10000 feed, clamped 24 96 pitch, clamped 0 400 margin,
          clamped 50 2000 jam] := by
  have own : printerOf (.value p) = p := rfl
  simp only [printerPaceTaken, own, paceOf, Table.modify_eq_set, values, Table.get_set_self,
    wasClamped_given (show 200 ≤ 5000 by decide), wasClamped_given (show 50 ≤ 5000 by decide),
    wasClamped_given (show 500 ≤ 10000 by decide), wasClamped_given (show 24 ≤ 96 by decide),
    wasClamped_given (show 0 ≤ 400 by decide), wasClamped_given (show 50 ≤ 2000 by decide)]

/-- With nothing standing at the Screen Unit but a request that is not its own, nothing stands there. -/
theorem noneStandsAt_of_others {h : ReqHead} {i : Instr} {s : State}
    (here : s.port.inExecution.get h.master = some ⟨i, false⟩)
    (others : ∀ x ∈ s.port.order, x ≠ .request h.master → standsAt s x ≠ some .scu) (unit : unitOf i ≠ .scu) :
    NoneStandsAt s .scu := by
  intro x hx
  by_cases own : x = .request h.master
  · subst own
    simpa [standsAt, here] using unit
  · exact others x hx own

end Sys2Proof.Machine

open Sys2Proof Sys2Proof.Machine

/-- Settles O43: each request's checks pass, and its part is the one store write its equation shows. -/
theorem settingsAreTakenAndAnswered : Obligations.SettingsAreTakenAndAnswered := by
  unfold Obligations.SettingsAreTakenAndAnswered
  intro h s any officer Sets
  refine ⟨?_, ?_, ?_, ?_, ?_, ?_, ?_⟩
  · intro x length lead passbook i served own short digits classes
    have taken := classSetTaken_eq x length lead passbook s
    have frame := classSet_state_frame ⟨.value x.val, .value length, .value (lead * 10 ^ (12 - length)), .value passbook⟩ s
    have fields : (classes.list.map classItems).map some = classes.list.map fun e => some
        [.num e.length, .digits (e.lead * 10 ^ (12 - e.length)), .flag e.passbook] := List.map_map ..
    rw [← fields]
    refine exec_sets served rfl (restartNamed_none i rfl s) (by simp [i, unitOf, requestKind])
      (classSetChecks_pass any own x short digits passbook) taken rfl (taken ▸ frame) (by decide) fun t store _ _ => ?_
    have same : t.store.classes = classes := congrArg Store.classes store
    refine ⟨same, fun a k => ?_⟩
    simp only [classOf_eq_some, classMatches_iff, same]
  · intro burst i after served who
    have taken := portSettingsTaken_eq burst s
    exact exec_sets served rfl (restartNamed_none i rfl s) (by simp [i, unitOf, requestKind])
      (portSettingsChecks_pass any who) taken rfl (taken ▸ portSettings_state_frame (given burst) s) (by decide)
      fun t store _ _ => congrArg Store.burst store
  · intro p m i served own free positions
    have taken := positionBindTaken_eq p m s
    have idle : restartNamed i s = s := by rw [restartNamed_named i p rfl s, restartedScu, if_neg (by simp [free])]
    exact exec_sets served rfl idle (by simp [i, unitOf, requestKind]) (positionBindChecks_pass any own free m) taken rfl
      (taken ▸ positionBind_state_frame ⟨.value p.val, .value m.val⟩ s) (by decide)
      fun t store scu _ => ⟨congrArg Store.positions store, scu⟩
  · intro branch timeout i served who allowed x settings
    have taken := lineSettingsTaken_eq branch timeout s
    exact exec_sets served rfl (restartNamed_none i rfl s) (by simp [i, unitOf, requestKind])
      (lineSettingsChecks_pass any who allowed) taken rfl (taken ▸ lineSettings_state_frame ⟨given branch, given timeout⟩ s)
      (by decide) fun t store _ _ => congrArg Store.lineSettings store
  · intro p column needle feed pitch margin jam i served who old kept staged applied items clamped
    have taken := printerPaceTaken_eq p column needle feed pitch margin jam
      (stagedPace_given p column needle feed pitch margin jam (s.store.pacing.get p).staged)
    exact exec_sets served rfl (restartNamed_none i rfl s) (by simp [i, unitOf, requestKind])
      (printerPaceChecks_pass any p who) taken rfl
      (taken ▸ printerPace_state_frame
        ⟨.value p, given column, given needle, given feed, given pitch, given margin, given jam⟩ s)
      (by decide) fun t store _ _ => congrArg Store.pacing store
  · intro day seconds i up here turn quiet others own
    have free : NoneStandsAt s .scu := noneStandsAt_of_others here others (by simp [i, unitOf, requestKind])
    have frame := clockSet_state_frame ⟨.value day.val, .value seconds.val⟩ s
    refine ⟨_, exec_taken_always up here turn quiet rfl rfl rfl (clockSetChecks_pass any own day seconds) rfl rfl,
      respond_unchangedBut frame h _ _ _ _ (by decide) (by decide), ⟨?_, ?_⟩, ?_⟩
    · exact report_clock _ _
    · exact report_rendered [.clock] { s with clock := ⟨day.val, seconds.val, true⟩ }
    · exact answered_of_turns here free (frame.get .turns (by decide)) (l := []) (frame.get .windows (by decide)) _ _ _ _
  · intro served own f
    exact exec_sets served rfl (restartNamed_none _ rfl s) (by simp [unitOf, requestKind]) (faultClearChecks_pass any own) rfl
      rfl (faultClear_state_frame s) (by decide) fun t _ _ fault => fault
end

section
/-! SUPPORT. The Printer Unit's operations on a state with one engine changed: jobs that move, jobs that end, wrong books and
misfeeds (R117, R118, R125). -/

namespace Sys2Proof.Machine

/-! ### One engine changed -/

/-- The engine of one printer has become `e`. -/
def withEngine (p : PrinterNo) (e : Engine) (s : State) : State :=
  { s with pru := { s.pru with engines := s.pru.engines.set p e } }

section
variable (p : PrinterNo) (e f : Engine) (s : State)

@[simp] theorem withEngine_power : (withEngine p e s).power = s.power := rfl

@[simp] theorem withEngine_engines : (withEngine p e s).pru.engines = s.pru.engines.set p e := rfl

@[simp] theorem withEngine_withEngine : withEngine p f (withEngine p e s) = withEngine p f s := by
  simp [withEngine]

theorem withEngine_self : withEngine p (s.pru.engines.get p) s = s := by
  simp [withEngine]

theorem withEngine_frame : UnchangedBut [.pru] s (withEngine p e s) := modifyEngine_frame p (fun _ => e) s

theorem modifyEngine_eq (f : Engine → Engine) : modifyEngine p f s = withEngine p (f (s.pru.engines.get p)) s := rfl

theorem setMotion_eq (m : Motion) : setMotion p m s = withEngine p { s.pru.engines.get p with motion := m } s := rfl

@[simp] theorem setMotion_withEngine (m : Motion) :
    setMotion p m (withEngine p e s) = withEngine p { e with motion := m } s := by
  simp [setMotion_eq]

@[simp] theorem engineOf_withEngine : engineOf (withEngine p e s) p = e := by simp [engineOf]

end

/-! ### The current job -/

theorem currentJob_eq {s : State} {p : PrinterNo} {i : Fin 16} {j : Job} (h : CurrentJob s p i j) :
    currentJob s p = some (i, j) := by
  rw [currentJob, engineOf, h.current]
  exact jobSlot_eq_some.mpr h.slot

theorem currentJob_none {s : State} {p : PrinterNo} (h : (s.pru.engines.get p).current = none) : currentJob s p = none := by
  rw [currentJob, engineOf, h]
  rfl

/-- A printer's current job does not depend on its motion, its sensor and its book. -/
theorem currentJob_withEngine {s : State} {p : PrinterNo} {e : Engine} (h : e.current = (s.pru.engines.get p).current) :
    currentJob (withEngine p e s) p = currentJob s p := by
  rw [currentJob, engineOf_withEngine, h]
  rfl

/-! ### Jobs that move (R118) -/

/-- What a job's move is told against: the screens, the printers and the windows. -/
theorem JobMoved.congr {s v t : State} {p : PrinterNo} {e : Engine} {i : Fin 16} {j : Job} {l : List (Master × Detail)}
    (h : JobMoved v t p e i j l) (scu : v.scu = s.scu) (pru : v.pru = s.pru) (windows : v.port.windows = s.port.windows) :
    JobMoved s t p e i j l := by
  obtain ⟨rendered, moved, raised⟩ := h
  refine ⟨scu ▸ rendered, ?_, windows ▸ raised⟩
  rw [moved, withJob, withJob, notedAs, notedAs, pru]

theorem moveJob_jobMoved (p : PrinterNo) (e : Engine) (i : Fin 16) (j : Job) (x : JobState) (s : State) :
    JobMoved s (moveJob i j x (withEngine p e s)) p e i { j with state := x } [] :=
  ⟨setNote_rendered j (.live x) (setJob i { j with state := x } (withEngine p e s)), setNote_pru j (.live x) _,
    (setNote_frame j (.live x) _).get .windows (by decide)⟩

/-- A prompt on top of a move, in a part that is up. -/
theorem JobMoved.prompt {s t : State} {p : PrinterNo} {e : Engine} {i : Fin 16} {k : Job} {l : List (Master × Detail)}
    (h : JobMoved s t p e i k l) (up : t.power = .up) (positions : t.store.positions = s.store.positions)
    (c : PrintCondition) (j : Job) : JobMoved s (raiseAttention c j t) p e i k (l ++ attention s j c j.attempts) := by
  obtain ⟨rendered, moved, raised⟩ := h
  rw [raiseAttention, raiseAt_up _ _ up, servingMaster, positions]
  exact ⟨rendered, moved, by rw [notified_windows, raised, notify_append]; rfl⟩

theorem moveJob_power (i : Fin 16) (j : Job) (x : JobState) (s : State) : (moveJob i j x s).power = s.power :=
  (moveJob_frame i j x s).get .power (by decide)

theorem moveJob_store (i : Fin 16) (j : Job) (x : JobState) (s : State) : (moveJob i j x s).store = s.store := by
  unfold moveJob setNote
  repeat' split
  all_goals simp

/-- A job moved and its master prompted. -/
theorem moveJob_prompted (p : PrinterNo) (e : Engine) (i : Fin 16) (j : Job) (x : JobState) (c : PrintCondition) {s : State}
    (up : s.power = .up) : JobMoved s (raiseAttention c j (moveJob i j x (withEngine p e s))) p e i { j with state := x }
      (attention s j c j.attempts) :=
  (moveJob_jobMoved p e i j x s).prompt ((moveJob_power ..).trans up) (congrArg Store.positions (moveJob_store ..)) c j

/-! ### Jobs that end (R117) -/

section
variable {s : State} {p : PrinterNo} {i : Fin 16} {j : Job} {o : JobEnd} {e : Engine}

/-- What a job's end leaves does not depend on the engine it found. -/
theorem JobEnded.ofEngine {u : State} {x : Engine} (h : JobEnded (withEngine p x s) u i j o e) (own : j.printer = p) :
    JobEnded s u i j o e := by
  obtain ⟨frame, rendered, accounts, pru, windows⟩ := h
  subst own
  refine ⟨((withEngine_frame _ x s).mono (by decide)).trans frame, rendered, accounts, ?_, windows⟩
  rw [pru]
  simp [withJob, withEngine, notedAs]

/-- The end of the current job of a BUSY printer, which then starts its queue (R117). -/
theorem endJob_ended (up : s.power = .up) (own : j.printer = p) (current : e.current = some j.id) (busy : e.state = .busy) :
    ∃ u, JobEnded s u i j o (freedEngine e j) ∧ endJob i j o (withEngine p e s) = startNext p u := by
  subst own
  have engine : (withEngine j.printer e s).pru.engines.get j.printer = e := engineOf_withEngine ..
  have ended := endedState_freed (i := i) (j := j) (o := o) (s := withEngine j.printer e s) up
  rw [engine] at ended
  refine ⟨_, ended.ofEngine rfl, ?_⟩
  rw [endJob_eq, endedState_busy (s := withEngine j.printer e s) up, engine, if_pos ⟨current, busy⟩]

/-- The slot of a job that has ended is empty, and stays so when the printer starts its queue. -/
theorem JobEnded.startNext_slot {u : State} (h : JobEnded s u i j o e) (q : PrinterNo) :
    (startNext q u).pru.jobs.get i = none := by
  obtain ⟨-, -, -, pru, -⟩ := h
  have empty : u.pru.jobs.get i = none := by rw [pru]; exact Table.get_set_self ..
  have same := startNext_holding q u i
  rw [empty] at same
  exact Option.map_eq_none_iff.mp same

theorem clearBook_jobs (p : PrinterNo) (s : State) : (clearBook p s).pru.jobs = s.pru.jobs := by
  unfold clearBook
  split <;> rfl

end

/-! ### Wrong books and misfeeds (R125) -/

section
variable {s : State} {p : PrinterNo} {i : Fin 16} {j : Job} {e : Engine} (up : s.power = .up)
include up

/-- The re-prompt of a first wrong book or misfeed without an edge. -/
theorem rePrompt_badBook (first : j.attempts = 0) (c : PrintCondition) (reason : AbortReason) :
    BadBookTaken s (rePrompt p i { j with attempts := 1 } c (withEngine p e s)) p i j e c reason := by
  let after : Job := { j with attempts := 1 }
  let ejecting : Engine := { e with motion := .eject .retry }
  have frame : UnchangedBut [.pru, .buffers, .screens, .windows, .inExecution] s (rePrompt p i after c (withEngine p e s)) :=
    rePrompt_unchanged _ _ _ _ (by decide) ((withEngine_frame p e s).mono (by decide))
  rw [BadBookTaken, if_pos first]
  refine ⟨frame, ?_⟩
  rw [rePrompt, setMotion_withEngine]
  by_cases moves : j.state = .reading ∨ j.state = .printing
  · have other : JobState.awaitingBook ≠ j.state := by rintro e; rw [← e] at moves; simp at moves
    obtain ⟨rendered, pru, windows⟩ := moveJob_prompted p ejecting i after .awaitingBook c up
    simp only [moves, if_true, if_neg other]
    exact ⟨rendered, pru, windows⟩
  · simp only [moves, if_false, if_true]
    rw [raiseAttention, raiseAt_up _ _ (by exact up)]
    exact ⟨.refl _, rfl, rfl⟩

/-- A wrong book or a misfeed without an edge at the current job of a BUSY printer (R125). -/
theorem takeBad_badBook (own : j.printer = p) (current : e.current = some j.id) (busy : e.state = .busy) {b : BadBook}
    (kind : b ≠ .beyondTravel) :
    BadBookTaken s (takeBad p i j b (withEngine p e s)) p i j e b.condition b.reason := by
  by_cases first : j.attempts = 0
  · have one : takeBad p i j b (withEngine p e s) = rePrompt p i { j with attempts := 1 } b.condition (withEngine p e s) := by
      simp [takeBad, first, kind]
    rw [one]
    exact rePrompt_badBook up first b.condition b.reason
  · obtain ⟨u, ended, next⟩ := endJob_ended (i := i) (j := { j with attempts := j.attempts + 1 }) (o := .aborted b.reason)
      (e := { e with motion := .still }) up own current busy
    rw [BadBookTaken, if_neg first, takeBad, if_pos (by show 2 ≤ j.attempts + 1; omega), setMotion_withEngine]
    exact ⟨u, ended, congrArg (clearBook p) next⟩

end

end Sys2Proof.Machine
end

section
/-! SUPPORT. Mechanism events as they are taken: whether an event waits (R100, R119), and what asks the Passbook Line Unit. -/

namespace Sys2Proof.Machine

/-! ### Whether a job end, a snapshot or a report is asked (R100) -/

section
variable {s t : State} {i : Fin 16} {j : Job}

theorem asksForJob_of_jobs (h : t.pru.jobs = s.pru.jobs) : asksForJob s t = false := by
  simp only [asksForJob, h, List.any_eq_false, Table.entries, List.mem_map]
  rintro _ ⟨k, -, rfl⟩
  cases s.pru.jobs.get k <;> simp

/-- A job that keeps its snapshot asks nothing. -/
theorem asksForJob_of_kept {k : Job} (here : s.pru.jobs.get i = some j) (h : t.pru.jobs = s.pru.jobs.set i (some k))
    (same : k.snapshot = j.snapshot) : asksForJob s t = false := by
  simp only [asksForJob, h, List.any_eq_false, Table.entries, List.mem_map]
  rintro _ ⟨n, -, rfl⟩
  by_cases own : i = n
  · subst own
    simp [here, same]
  · rw [Table.get_set_ne _ _ own]
    cases s.pru.jobs.get n <;> simp

/-- A job that has ended, or whose snapshot is another, asks. -/
theorem asksForJob_of_changed (here : s.pru.jobs.get i = some j)
    (h : ∀ k, t.pru.jobs.get i = some k → k.snapshot ≠ j.snapshot) : asksForJob s t = true := by
  refine List.any_eq_true.mpr ⟨(i, some j), List.mem_map.mpr ⟨i, List.mem_finRange i, by rw [here]⟩, ?_⟩
  cases slot : t.pru.jobs.get i with
  | none => simp
  | some k => simp [h k slot]

theorem asksForJob_of_ended (here : s.pru.jobs.get i = some j) (h : t.pru.jobs.get i = none) : asksForJob s t = true :=
  asksForJob_of_changed here fun k slot => absurd (h.symm.trans slot) (Option.some_ne_none k).symm

/-- A job that has moved with its snapshot asks nothing. -/
theorem JobMoved.asksNothing {p : PrinterNo} {e : Engine} {k : Job} {l : List (Master × Detail)}
    (h : JobMoved s t p e i k l) (here : s.pru.jobs.get i = some j) (same : k.snapshot = j.snapshot) :
    asksForJob s t = false :=
  asksForJob_of_kept here (by rw [h.2.1]; rfl) same

end

/-! ### Whether an event is taken or waits -/

/-- The events of the mechanisms. -/
def ofMechanism : Instr → Bool
  | .bookPresent _ | .bookRemoved _ | .topEdge _ _ | .stepLimit _ | .stripeReadComplete _ _ | .stripeWriteComplete _ _
  | .lineDone _ | .headHome _ | .ejectDone _ | .jamTimerExpiry _ => true
  | _ => false

theorem lineDone_line (p : PrinterNo) (s : State) : (lineDone p s).out.line = s.out.line := by
  unfold lineDone
  dsimp only
  split <;> rfl

section
variable {x : Instr} (hx : ofMechanism x = true)
include hx

theorem exec_ofMechanism (s : State) : exec x s = .next (takeEvent x s) := by
  cases x <;> simp only [ofMechanism, Bool.false_eq_true] at hx <;> rfl

/-- A mechanism's event sends nothing to head office. -/
theorem ofMechanism_line (s : State) : (eventEffect x s).out.line = s.out.line := by
  have same {t : State} (h : t.out = s.out) : t.out.line = s.out.line := congrArg Outputs.line h
  cases x
  case bookPresent p => exact same ((bookArrives_frame p s).get .out (by decide))
  case bookRemoved p => exact same ((bookLeaves_frame p s).get .out (by decide))
  case topEdge p n => exact same ((edgeFound_frame p n.val s).get .out (by decide))
  case stepLimit p => exact same ((limitReached_frame p s).get .out (by decide))
  case stripeReadComplete p l => exact same ((stripeReadEnds_frame p l s).get .out (by decide))
  case stripeWriteComplete p l => exact same ((stripeWriteEnds_frame p l s).get .out (by decide))
  case lineDone p =>
    change (lineEnds p s).out.line = s.out.line
    unfold lineEnds
    split
    · exact lineDone_line p s
    · rfl
  case headHome p => exact same ((headArrives_frame p s).get .out (by decide))
  case ejectDone p => exact same ((ejectEnds_frame p s).get .out (by decide))
  case jamTimerExpiry p => exact same ((jamTimesOut_frame p s).get .out (by decide))
  all_goals exact Bool.noConfusion hx

/-- An event is taken at the Printer Unit, and at the Passbook Line Unit where it asks a snapshot, a report of an item, a
release or a job end (R100, R119). -/
theorem unitsAsked_ofMechanism (s : State) : unitsAsked (.event x) s =
    if asksForJob s (eventEffect x s) = true ∨ readsEntry x s = true then [.pru, .plu] else [.pru] := by
  have unit : eventUnit x = .pru := by
    cases x <;> simp only [ofMechanism, Bool.false_eq_true] at hx <;> rfl
  simp [unitsAsked, unit, readsCarry_of_line (ofMechanism_line hx s)]

variable {s : State}

/-- With both units free an event is taken. -/
theorem ofMechanism_taken (pru : UnitFree s .pru) (plu : UnitFree s .plu) : exec x s = .next (eventEffect x s) := by
  rw [exec_ofMechanism hx, takeEvent, serve_taken]
  · rfl
  · rw [unitsAsked_ofMechanism hx]
    split
    · exact takenAt_two pru plu
    · exact takenAt_one pru

/-- One that asks nothing of the Passbook Line Unit is taken with the Printer Unit free. -/
theorem ofMechanism_quiet {t : State} (pru : TakenAt s [.pru]) (effect : eventEffect x s = t)
    (asks : asksForJob s t = false) (reads : readsEntry x s = false) : exec x s = .next t := by
  rw [exec_ofMechanism hx, takeEvent, serve_taken, ← effect]
  · rfl
  · rw [unitsAsked_ofMechanism hx, effect, asks, reads]
    exact pru

/-- One that asks something of it waits while it is not free. -/
theorem ofMechanism_waits (up : s.power = .up) (plu : ¬UnitFree s .plu)
    (asks : asksForJob s (eventEffect x s) = true ∨ readsEntry x s = true) :
    exec x s = .next (ask (.event x) s) := by
  rw [exec_ofMechanism hx, takeEvent, serve_waits]
  rw [unitsAsked_ofMechanism hx, if_pos asks]
  exact not_takenAt up (by simp) plu

/-- An event without effect changes nothing. -/
theorem ofMechanism_idle (pru : TakenAt s [.pru]) (effect : eventEffect x s = s) (reads : readsEntry x s = false) :
    exec x s = .next s :=
  ofMechanism_quiet hx pru effect (asksForJob_of_jobs rfl) reads

end

end Sys2Proof.Machine
end

section
/-! SUPPORT. PRINT.START: a job numbered, registered at its account and queued (R106, R116, R118, R120), and a queue whose head
is started (R121). -/

namespace Sys2Proof.Machine

/-! ### A queue started (R121) -/

theorem startNext_stays {p : PrinterNo} {s : State}
    (h : (s.pru.engines.get p).state ≠ .idle ∨ (s.pru.engines.get p).queue = []) : startNext p s = s := by
  unfold startNext engineOf
  split
  · rename_i idle queue
    rcases h with busy | empty
    · exact absurd idle busy
    · exact absurd (queue.symm.trans empty) (List.cons_ne_nil _ _)
  · rfl

theorem startNext_started {p : PrinterNo} {s : State} {i : Fin 16} {j : Job} {rest : List Nat} (up : s.power = .up)
    (slot : jobSlot s j.id = some (i, j)) (idle : (s.pru.engines.get p).state = .idle)
    (queue : (s.pru.engines.get p).queue = j.id :: rest) : JobMoved s (startNext p s) p
      { s.pru.engines.get p with state := .busy, current := some j.id, queue := rest } i
      { j with state := .awaitingBook } (attention s j .insertBook j.attempts) := by
  have started : startNext p s = raiseAttention .insertBook j (moveJob i j .awaitingBook
      (withEngine p { s.pru.engines.get p with state := .busy, current := some j.id, queue := rest } s)) := by
    simp only [startNext, engineOf, idle, queue, slot, modifyEngine_eq]
  rw [started]
  exact moveJob_prompted p _ i j .awaitingBook .insertBook up

theorem startNext_rendered (p : PrinterNo) (s : State) : Rendered s.scu (startNext p s).scu := by
  unfold startNext
  split
  · split
    · rw [raiseAttention, raiseAt, raiseTo_scu]
      exact setNote_rendered _ _ (setJob _ _ (modifyEngine p _ s))
    · exact .refl _
  · exact .refl _

/-! ### Numbers and slots of jobs (R116) -/

theorem jobSlot_isSome {s : State} {n : Nat} :
    (jobSlot s n).isSome = true ↔ ∃ i j, s.pru.jobs.get i = some j ∧ j.id = n := by
  constructor
  · intro h
    obtain ⟨x, hx⟩ := Option.isSome_iff_exists.mp h
    have first := jobSlot_eq_some.mp hx
    exact ⟨x.1, x.2, first.1, first.2.1⟩
  · intro h
    obtain ⟨i, j, first⟩ := Table.exists_firstWith h
    rw [jobSlot_eq_some.mpr first]
    rfl

/-- The number of a new job is the first that the table does not hold. -/
theorem jobNumber_first (s : State) :
    FirstFreeNumber (fun n => ∃ i j, s.pru.jobs.get i = some j ∧ j.id = n) 255 s.pru.nextJob (jobNumber s) := by
  obtain ⟨k, few, free⟩ := exists_number_free s.pru.jobs Job.id s.pru.nextJob (show 16 < 255 by decide)
  have first := firstFree_first (held := fun n => (jobSlot s n).isSome) (fuel := 17)
    ⟨k, by omega, Bool.eq_false_iff.mpr (mt jobSlot_isSome.mp free)⟩
  simp only [jobSlot_isSome] at first
  exact first

/-- A job written under a number that no other has is the one its number finds. -/
theorem jobSlot_written {s t : State} {i : Fin 16} {j : Job} (fresh : ¬∃ k x, s.pru.jobs.get k = some x ∧ x.id = j.id)
    (written : t.pru.jobs = s.pru.jobs.set i (some j)) : jobSlot t j.id = some (i, j) := by
  refine jobSlot_eq_some.mpr ⟨by rw [written]; exact Table.get_set_self .., rfl, fun k below x slot same => ?_⟩
  rw [written, Table.get_set_ne _ _ (Fin.ne_of_gt below)] at slot
  exact fresh ⟨k, x, slot, same⟩

/-! ### The entry of an account changed (R106, R108) -/

theorem changeAccount_first {s : State} {number : Nat} {k : Fin 64} {a : Account}
    (first : FirstWith s.store.accounts (fun x => x.number = number) k a) (f : Account → Account) :
    changeAccount number f s = setAccount k (touch s (f a)) s := by
  rw [changeAccount, accountSlot_eq_some.mpr first]

/-- A notice to a position's master goes by the table of positions alone. -/
theorem attention_congr {s t : State} (h : t.store.positions = s.store.positions) (j : Job) (c : PrintCondition) (n : Nat) :
    attention t j c n = attention s j c n := by
  simp only [attention, servingMaster, h]

/-! ### The job queued (R106, R120) -/

/-- The state with the job registered at its account, in its slot and at the end of its printer's queue. -/
def queuedState (i : Fin 16) (j : Job) (s : State) : State := queueJob i j (registerJob j.account s)

section
variable (i : Fin 16) (j : Job) (s : State)

theorem queuedState_frame :
    UnchangedBut [.accounts, .pru, .buffers, .screens, .inExecution] s (queuedState i j s) :=
  queueJob_unchanged i j (by decide) ((registerJob_frame j.account s).mono (by decide))

theorem registerJob_rest : registerJob j.account s = { s with store := (registerJob j.account s).store } := by
  unfold registerJob changeAccount
  split <;> rfl

theorem queuedState_pru : (queuedState i j s).pru =
    { withJob s j.printer { s.pru.engines.get j.printer with queue := (s.pru.engines.get j.printer).queue ++ [j.id] } i (some j)
        (s.pru.notes.set j.position (some ⟨j.id, .live .queued⟩)) with nextJob := numberAfter 255 j.id } := by
  rw [queuedState, registerJob_rest, queueJob, report_pru]
  rfl

theorem queuedState_rendered : Rendered s.scu (queuedState i j s).scu := by
  rw [queuedState, registerJob_rest]
  exact report_rendered _ { s with
    store := (registerJob j.account s).store
    pru := { withJob s j.printer { s.pru.engines.get j.printer with queue := (s.pru.engines.get j.printer).queue ++ [j.id] } i
        (some j) (s.pru.notes.set j.position (some ⟨j.id, .live .queued⟩)) with nextJob := numberAfter 255 j.id } }

theorem queuedState_accounts {k : Fin 64} {a : Account}
    (first : FirstWith s.store.accounts (fun x => x.number = j.account) k a) :
    (queuedState i j s).store.accounts = s.store.accounts.set k (some (touch s { a with jobRef := true })) := by
  rw [queuedState, registerJob, changeAccount_first first, queueJob, report_store]
  rfl

end

/-! ### The checks of PRINT.START (R106, R120) -/

theorem mayRegister_first {s : State} {number : Nat} {k : Fin 64} {a : Account}
    (first : FirstWith s.store.accounts (fun x => x.number = number) k a) (free : a.jobRef = false)
    (something : (∃ l ∈ a.lines, l.void = false ∧ l.inSnapshot = false) ∨ a.summary.isSome ∨ a.newBook = true) :
    mayRegister s number = true := by
  simp only [mayRegister, accountSlot_eq_some.mpr first, Option.elim_some, free, hasSomething, Bool.not_false, Bool.true_and,
    Bool.or_eq_true, List.any_eq_true, or_assoc]
  exact something.imp_left fun ⟨l, mem, void, snap⟩ => ⟨l, mem, by simp [isPending, void, snap]⟩

section
variable {h : ReqHead} {p : Position} {printer : PrinterNo} {k : Fin 64} {a : Account} {i : Fin 16} {s : State}

theorem printStartChecks_pass (may : MayActFor h s p)
    (day : s.store.day.state = .noDay ∨ s.store.day.state = .opened ∨ s.store.day.state = .closing)
    (unsealed : s.pru.sealAnswered = false) (digits : a.number < 1000000000000)
    (served : (s.pru.engines.get printer).state ≠ .outOfService) (room : (s.pru.engines.get printer).queue.length < 6)
    (slot : freeJobSlot s = some i) (register : mayRegister s a.number = true) :
    ∀ c ∈ printStartChecks h ⟨.value p.val, .value a.number, .value printer⟩ s, c.pass = true := by
  have own : printerOf (.value printer) = printer := rfl
  simp only [printStartChecks, own, engineOf, List.forall_mem_append, List.forall_mem_cons]
  refine ⟨positionChecks_pass may, by simp [dayIs_preparing day, unsealed], ?_, by simpa using served, by simpa using room,
    by simp [slot], by simpa [Fld.nat, Fld.getD] using register, by simp⟩
  simp [may.1, isDigits12, fitsDigits, Fld.required, digits, isNamed]

theorem printStartTaken_eq (slot : freeJobSlot s = some i) :
    let j : Job := ⟨jobNumber s, a.number, p, printer, .queued, none, 0, none, none, none, false⟩
    let u := startNext printer (queuedState i j s)
    printStartTaken ⟨.value p.val, .value a.number, .value printer⟩ s =
      take u [numField j.id, numField ((jobStateNow u j.id).elim 1 JobState.place), numField (aheadOf u j)] := by
  simp only [printStartTaken, newJob, slot, positionOf_val, Fld.nat, Fld.getD, Option.getD_some]
  rfl

end

end Sys2Proof.Machine

open Sys2Proof Sys2Proof.Machine

/-- Settles O45: the job is queued (`queuedState`), and started where the printer is IDLE (`startNext_started`); the number it
has is in no other slot, so the answer tells of it. -/
theorem printStartQueuesAJob : Obligations.PrintStartQueuesAJob := by
  unfold Obligations.PrintStartQueuesAJob
  intro h p printer k a i s c e served may day unsealed digits inService room empty lowest first free something
  let s1 : State := { s with scu := restartedScu s p }
  let id := jobNumber s1
  let j : Job := ⟨id, a.number, p, printer, .queued, none, 0, none, none, none, false⟩
  let queued : State := queuedState i j s1
  let u : State := startNext printer queued
  have restarted : restartNamed c s = s1 := restartNamed_named c p rfl s
  have slot : freeJobSlot s1 = some i := Table.findIdx_of_first (by simp [s1, empty]) fun n below => by
    simpa [Option.isSome_iff_ne_none] using lowest n below
  have register : mayRegister s1 a.number = true := mayRegister_first first free something
  have passed := printStartChecks_pass (s := s1) may day unsealed digits inService room slot register
  have taken := printStartTaken_eq (p := p) (printer := printer) (a := a) slot
  have number := jobNumber_first s1
  have fresh : ¬∃ n x, s1.pru.jobs.get n = some x ∧ x.id = j.id := number.choose_spec.2.1
  have upQueued : queued.power = .up := ((queuedState_frame i j s1).get .power (by decide)).trans served.up
  have frame : UnchangedBut [.accounts, .pru, .buffers, .screens, .idles, .windows, .inExecution] s u :=
    startNext_unchanged _ (by decide) (((restartedScu_frame p s).mono (by decide)).trans
      ((queuedState_frame i j s1).mono (by decide)))
  have pru : queued.pru = _ := queuedState_pru i j s1
  have engine : queued.pru.engines.get printer = { e with queue := e.queue ++ [id] } := by
    rw [pru]
    exact Table.get_set_self ..
  have jobs : queued.pru.jobs = s1.pru.jobs.set i (some j) := congrArg Pru.jobs pru
  have windows : queued.port.windows = s.port.windows := (queuedState_frame i j s1).get .windows (by decide)
  have accounts : u.store.accounts = queued.store.accounts := (startNext_frame printer queued).get .accounts (by decide)
  have positions : queued.store.positions = s.store.positions := (queuedState_frame i j s1).get .positions (by decide)
  let fields : List (Option (List Item)) :=
    [some [.num id], some (numField ((jobStateNow u id).elim 1 JobState.place)), some (numField (aheadOf u j))]
  have answered {l : List (Master × Detail)} (raised : u.port.windows = notify l s.port.windows) :
      Answered h 112 .done false fields l s (respond h 112 .done false fields u) :=
    answered_of_frame served frame (by simp [c, unitOf, requestKind]) (by decide) raised _ _ _ _
  refine ⟨respond h 112 .done false fields u, id, exec_taken served rfl restarted passed taken rfl,
    respond_unchangedBut frame h _ _ _ _ (by decide) (by decide),
    (queuedState_rendered i j s1).trans (startNext_rendered printer queued), number,
    accounts.trans (queuedState_accounts i j s1 first), fun busy => ?_, fun idle queue => ?_⟩
  · have stays : u = queued := startNext_stays (.inl (by rw [engine]; simp [busy]))
    have found : jobSlot u j.id = some (i, j) := jobSlot_written fresh (by rw [stays, jobs])
    have told : fields = [some [.num id], some [.num 1],
        some [.num ((e.queue ++ [id]).takeWhile fun x => x != id).length]] := by
      have state : jobStateNow u id = some .queued := by rw [jobStateNow, found]; rfl
      have ahead : aheadOf u j = ((e.queue ++ [id]).takeWhile fun x => x != id).length := by
        rw [aheadOf, engineOf, stays, engine]
        exact if_pos (by simp [j])
      simp only [fields, state, ahead]
      rfl
    exact ⟨(congrArg State.pru stays).trans pru, Eq.subst (motive := fun x => Answered h 112 .done false x [] s _) told
      (answered (l := []) (by rw [stays, windows]; rfl))⟩
  · have found : jobSlot queued j.id = some (i, j) := jobSlot_written fresh jobs
    obtain ⟨-, moved, raised⟩ := startNext_started (p := printer) (rest := []) upQueued found (by rw [engine]; exact idle)
      (by rw [engine, queue]; rfl)
    rw [windows, attention_congr positions] at raised
    have started : u.pru.engines.get printer = _ := (congrArg (fun x : Pru => x.engines.get printer) moved).trans
      (Table.get_set_self ..)
    have found : jobSlot u j.id = some (i, { j with state := .awaitingBook }) :=
      jobSlot_written (s := s1) (j := { j with state := .awaitingBook }) fresh 
        ((congrArg Pru.jobs moved).trans (by
          change queued.pru.jobs.set i _ = _
          rw [jobs, Table.set_set]))
    have told : fields = [some [.num id], some [.num 2], some [.num 0]] := by
      have state : jobStateNow u id = some .awaitingBook := by rw [jobStateNow, found]; rfl
      have ahead : aheadOf u j = 0 := by rw [aheadOf, engineOf, started]; rfl
      simp only [fields, state, ahead]
      rfl
    refine ⟨moved.trans ?_, Eq.subst (motive := fun x => Answered h 112 .done false x _ s _) told (answered raised)⟩
    rw [engine]
    simp [withJob, notedAs, pru, j, queue, numberAfter, s1]
end

section
/-! SUPPORT. Insertions, top edges and step limits (R122, R125), and an event that waits for the Passbook Line Unit only where a
job ends. -/

namespace Sys2Proof.Machine

/-- An event that asks the Passbook Line Unit only in one case is taken where that unit is free in that case. -/
theorem ofMechanism_served {x : Instr} (hx : ofMechanism x = true) {s : State} {ends : Prop} (pru : UnitFree s .pru)
    (reads : readsEntry x s = false) (asks : ¬ends → asksForJob s (eventEffect x s) = false) (plu : ends → UnitFree s .plu) :
    exec x s = .next (eventEffect x s) := by
  by_cases h : ends
  · exact ofMechanism_taken hx pru (plu h)
  · exact ofMechanism_quiet hx (takenAt_one pru) rfl (asks h) reads

section
variable {s t : State} {p : PrinterNo} {i : Fin 16} {j : Job} {e : Engine} {c : PrintCondition} {r : AbortReason}
  (h : BadBookTaken s t p i j e c r) (here : s.pru.jobs.get i = some j)
include h here

/-- A first wrong book or misfeed ends no job. -/
theorem BadBookTaken.asksNothing (first : j.attempts = 0) : asksForJob s t = false := by
  rw [BadBookTaken, if_pos first] at h
  obtain ⟨-, -, pru, -⟩ := h
  exact asksForJob_of_kept here (congrArg Pru.jobs pru) rfl

/-- A second one does. -/
theorem BadBookTaken.asksEnd (second : j.attempts ≠ 0) : asksForJob s t = true := by
  rw [BadBookTaken, if_neg second] at h
  obtain ⟨u, ended, rfl⟩ := h
  exact asksForJob_of_ended here (by rw [clearBook_jobs]; exact ended.startNext_slot p)

end

section
variable {s : State} {p : PrinterNo}

/-! ### A book inserted (R122) -/

theorem takesInsertion_iff {x : JobState} {m : Motion} :
    takesInsertion x m = true ↔ x = .awaitingBook ∨ x = .turnPage ∧ turning m = false := by
  cases x
  case awaitingBook => simp [takesInsertion]
  case turnPage =>
    cases m
    case eject why => cases why <;> simp [takesInsertion, turning]
    all_goals simp [takesInsertion, turning]
  all_goals simp [takesInsertion]

theorem bookArrives_present (h : (s.pru.engines.get p).present = true) : bookArrives p s = s := if_pos h

/-- Without a current job, or once the store is shut, an insertion is only seen. -/
theorem bookArrives_seen (h : s.power ≠ .up ∨ (s.pru.engines.get p).current = none) :
    bookArrives p s = withEngine p { s.pru.engines.get p with present := true } s := by
  by_cases present : (s.pru.engines.get p).present = true
  · rw [bookArrives_present present]
    exact (Eq.trans (congrArg (withEngine p · s) (by rw [← present])) (withEngine_self p s)).symm
  · have clear : ¬(engineOf s p).present = true := present
    by_cases up : s.power = .up
    · have idle : (s.pru.engines.get p).current = none := h.resolve_left fun down => down up
      simp only [bookArrives, if_neg clear, modifyEngine_eq, withEngine_power, if_pos up, insertBook,
        currentJob_withEngine (e := { s.pru.engines.get p with present := true }) rfl, currentJob_none idle]
    · simp only [bookArrives, if_neg clear, modifyEngine_eq, withEngine_power, up, if_false]

theorem bookArrives_job {i : Fin 16} {j : Job} (up : s.power = .up) (job : CurrentJob s p i j)
    (clear : (s.pru.engines.get p).present = false) :
    bookArrives p s = withEngine p
      (if j.state = .awaitingBook ∨ j.state = .turnPage ∧ turning (s.pru.engines.get p).motion = false then
        { s.pru.engines.get p with present := true, motion := .feed, bookPosition := 0, inFeed := true }
      else { s.pru.engines.get p with present := true }) s := by
  have away : ¬(engineOf s p).present = true := by rw [engineOf, clear]; simp
  simp only [bookArrives, if_neg away, modifyEngine_eq, withEngine_power, if_pos up, insertBook,
    currentJob_withEngine (e := { s.pru.engines.get p with present := true }) rfl, currentJob_eq job, takesInsertion_iff,
    engineOf_withEngine]
  split <;> simp [startFeed]

/-! ### The end of a feed (R122, R125) -/

theorem edgeFound_idle (h : s.power ≠ .up ∨ (s.pru.engines.get p).motion ≠ .feed) (n : Nat) : edgeFound p n s = s :=
  if_neg fun ⟨up, feed⟩ => h.elim (· up) (· feed)

theorem limitReached_idle (h : s.power ≠ .up ∨ (s.pru.engines.get p).motion ≠ .feed) : limitReached p s = s :=
  if_neg fun ⟨up, feed⟩ => h.elim (· up) (· feed)

variable {i : Fin 16} {j : Job} (up : s.power = .up) (job : CurrentJob s p i j)
  (feed : (s.pru.engines.get p).motion = .feed)
include up job feed

theorem edgeFound_job (n : Nat) : edgeFound p n s =
    let seen := withEngine p { s.pru.engines.get p with motion := .read, bookPosition := n } s
    if j.state = .awaitingBook then moveJob i { j with edge := some n } .reading seen
    else setJob i { j with edge := some n } seen := by
  have runs : s.power = .up ∧ (engineOf s p).motion = .feed := ⟨up, feed⟩
  rw [edgeFound, if_pos runs, takeEdge, modifyEngine_eq,
    currentJob_withEngine (e := { s.pru.engines.get p with motion := .read, bookPosition := n }) rfl, currentJob_eq job]

theorem limitReached_job : limitReached p s =
    takeBad p i j .noEdge (withEngine p { s.pru.engines.get p with bookPosition := 4095 } s) := by
  have runs : s.power = .up ∧ (engineOf s p).motion = .feed := ⟨up, feed⟩
  simp only [limitReached, if_pos runs, currentJob_eq job, modifyEngine_eq]

theorem limitReached_badBook : BadBookTaken s (limitReached p s) p i j { s.pru.engines.get p with bookPosition := 4095 }
    .insertBook .misfeed := by
  rw [limitReached_job up job feed]
  have bad := takeBad_badBook (i := i) (e := { s.pru.engines.get p with bookPosition := 4095 }) (b := .noEdge) up job.printer
    job.current job.busy (by decide)
  exact bad

end

end Sys2Proof.Machine

open Sys2Proof Sys2Proof.Machine

/-- Settles O47, by what each event does with a current job and without one. -/
theorem insertionsFeedToTheEdge : Obligations.InsertionsFeedToTheEdge := by
  unfold Obligations.InsertionsFeedToTheEdge
  refine ⟨fun p s => ?_, fun p i j s up job pru => ?_⟩
  · intro e taken quiet
    exact ⟨ofMechanism_quiet rfl taken (bookArrives_seen quiet) (asksForJob_of_jobs rfl) rfl, fun still n =>
      ⟨ofMechanism_idle rfl taken (edgeFound_idle still n.val) rfl, ofMechanism_idle rfl taken (limitReached_idle still) rfl⟩⟩
  · have taken : TakenAt s [.pru] := takenAt_one pru
    have here : s.pru.jobs.get i = some j := job.slot.1
    refine ⟨fun present => ?_, fun clear => ?_, fun still n => ⟨?_, ?_⟩, fun feed n => ?_, fun feed second busy => ?_,
      fun feed plu => ?_⟩
    · exact ofMechanism_idle rfl taken (bookArrives_present present) rfl
    · exact ⟨_, ofMechanism_quiet rfl taken (bookArrives_job up job clear) (asksForJob_of_jobs rfl) rfl,
        withEngine_frame p _ s, rfl⟩
    · exact ofMechanism_idle rfl taken (edgeFound_idle (.inr still) n.val) rfl
    · exact ofMechanism_idle rfl taken (limitReached_idle (.inr still)) rfl
    · have effect := edgeFound_job up job feed n.val
      have frame := edgeFound_frame p n.val s
      by_cases waits : j.state = .awaitingBook
      · have moved := moveJob_jobMoved p { s.pru.engines.get p with motion := .read, bookPosition := n.val } i
          { j with edge := some n.val } .reading s
        simp only [if_pos waits] at effect ⊢
        rw [← effect] at moved
        exact ⟨_, ofMechanism_quiet rfl taken rfl (moved.asksNothing here rfl) rfl, frame, moved⟩
      · simp only [if_neg waits] at effect ⊢
        exact ⟨_, ofMechanism_quiet rfl taken effect (asksForJob_of_kept here rfl rfl) rfl, effect ▸ frame, .refl _, rfl⟩
    · have bad := limitReached_badBook up job feed
      exact ofMechanism_waits rfl up busy (.inl (bad.asksEnd here second))
    · have bad := limitReached_badBook up job feed
      exact ⟨_, ofMechanism_served (ends := j.attempts ≠ 0) rfl pru rfl
        (fun first => bad.asksNothing here (not_not.mp first)) plu, bad⟩
end

section
/-! SUPPORT. The end of a stripe write (R128) and of an eject (R119, R125, R132). -/

namespace Sys2Proof.Machine

/-! ### The job table after a move -/

theorem setNote_jobs (j : Job) (x : NoteStatus) (s : State) : (setNote j x s).pru.jobs = s.pru.jobs := by
  rw [setNote_pru]

theorem moveJob_jobs (i : Fin 16) (j : Job) (x : JobState) (s : State) :
    (moveJob i j x s).pru.jobs = s.pru.jobs.set i (some { j with state := x }) :=
  setNote_jobs ..

theorem raiseAttention_pru (c : PrintCondition) (j : Job) (s : State) : (raiseAttention c j s).pru = s.pru := by
  rw [raiseAttention, raiseAt, raiseTo]
  split <;> rfl

theorem rePrompt_jobs (p : PrinterNo) (i : Fin 16) (j : Job) (c : PrintCondition) (s : State) :
    ∃ x, (rePrompt p i j c s).pru.jobs = s.pru.jobs.set i (some { j with state := x }) := by
  rw [rePrompt, raiseAttention_pru]
  split
  · exact ⟨.awaitingBook, moveJob_jobs ..⟩
  · exact ⟨j.state, rfl⟩

section
variable {s : State} {p : PrinterNo}

/-! ### A stripe write ends (R128) -/

theorem stripeWriteEnds_idle (h : s.power ≠ .up ∨ ∀ why second, (s.pru.engines.get p).motion ≠ .write why second)
    (bytes : Option (List Byte)) : stripeWriteEnds p bytes s = s := by
  unfold stripeWriteEnds engineOf
  split
  · split
    · exact absurd ‹_› (h.resolve_left (not_not.mpr ‹_›) _ _)
    · rfl
  · rfl

theorem stripeWriteEnds_job {i : Fin 16} {j : Job} {why : WritePurpose} {second : Bool} (up : s.power = .up)
    (job : CurrentJob s p i j) (writing : (s.pru.engines.get p).motion = .write why second) (bytes : Option (List Byte)) :
    stripeWriteEnds p bytes s = if bytes = some (stripeOf j) then stripeWritten p i j why s
      else if second then stripeFailed p i j s else setMotion p (.write why true) s := by
  simp only [stripeWriteEnds, if_pos up, engineOf, writing, stripeVerified, currentJob_eq job]

theorem stripeWritten_retry {j : Job} {i : Fin 16} (up : s.power = .up) (printing : j.state = .printing) :
    JobMoved s (rePrompt p i j .insertBook s) p { s.pru.engines.get p with motion := .eject .retry } i
      { j with state := .awaitingBook } (attention s j .insertBook j.attempts) := by
  simp only [rePrompt, if_pos (Or.inr printing), setMotion_eq]
  exact moveJob_prompted p _ i j .awaitingBook .insertBook up

/-- The end of a stripe write leaves every job its snapshot, so it asks nothing of the Passbook Line Unit. -/
theorem stripeWriteEnds_asksNothing {i : Fin 16} {j : Job} {why : WritePurpose} {second : Bool} (up : s.power = .up)
    (job : CurrentJob s p i j) (writing : (s.pru.engines.get p).motion = .write why second) (bytes : Option (List Byte)) :
    asksForJob s (stripeWriteEnds p bytes s) = false := by
  have here : s.pru.jobs.get i = some j := job.slot.1
  rw [stripeWriteEnds_job up job writing]
  split
  · cases why with
    | finish => exact asksForJob_of_kept here (moveJob_jobs ..) rfl
    | turn =>
      rw [stripeWritten]
      refine asksForJob_of_jobs ?_
      rw [raiseAttention_pru]
      rfl
    | retry =>
      rw [stripeWritten]
      split
      · exact asksForJob_of_kept here (moveJob_jobs ..) rfl
      · obtain ⟨x, jobs⟩ := rePrompt_jobs p i j .insertBook s
        exact asksForJob_of_kept here jobs rfl
  · split
    · exact asksForJob_of_kept here (moveJob_jobs ..) rfl
    · exact asksForJob_of_jobs rfl

/-! ### An eject ends (R119, R128, R132) -/

theorem ejectEnds_idle (h : s.power = .off ∨ ∀ why, (s.pru.engines.get p).motion ≠ .eject why) : ejectEnds p s = s := by
  unfold ejectEnds engineOf
  split
  · rfl
  · split
    · exact absurd ‹_› (h.resolve_left ‹_› _)
    · rfl

/-- An engine whose book has left the feed. -/
def ejectedEngine (e : Engine) : Engine := { e with motion := .still, inFeed := false }

variable {why : EjectPurpose} (ejecting : (s.pru.engines.get p).motion = .eject why)
include ejecting

theorem ejectEnds_shut (h : s.power = .shut ∨ s.power = .up ∧ (s.pru.engines.get p).current = none) :
    ejectEnds p s = withEngine p (ejectedEngine (s.pru.engines.get p)) s := by
  rcases h with shut | ⟨up, idle⟩
  · simp only [ejectEnds, shut, engineOf, ejecting, modifyEngine_eq, withEngine_power, ejectedEngine, reduceCtorEq, if_false]
  · simp only [ejectEnds, up, engineOf, ejecting, modifyEngine_eq, withEngine_power, reduceCtorEq, if_false, if_true, ejected,
      currentJob_withEngine (e := { s.pru.engines.get p with motion := .still, inFeed := false }) rfl, currentJob_none idle,
      ejectedEngine]

section
variable {i : Fin 16} {j : Job} (up : s.power = .up) (job : CurrentJob s p i j)
include up job

theorem ejectEnds_job : ejectEnds p s =
    let t := withEngine p (ejectedEngine (s.pru.engines.get p)) s
    match why with
    | .finish => endJob i j (j.outcome.getD .done) t
    | .turn => if j.cancel then endJob i j (.partly .cancelled) t else t
    | _ => t := by
  simp only [ejectEnds, up, engineOf, ejecting, modifyEngine_eq, withEngine_power, reduceCtorEq, if_false, if_true, ejected,
    currentJob_withEngine (e := { s.pru.engines.get p with motion := .still, inFeed := false }) rfl, currentJob_eq job,
    ejectedEngine]
  cases why <;> rfl

/-- The eject at a job's end, or of a page turn whose job's cancel was kept, ends the job. -/
theorem ejectEnds_ends (ends : why = .finish ∨ why = .turn ∧ j.cancel = true) :
    ∃ u, JobEnded s u i j (if why = .finish then j.outcome.getD .done else .partly .cancelled)
        (freedEngine (ejectedEngine (s.pru.engines.get p)) j) ∧ ejectEnds p s = startNext p u := by
  have effect := ejectEnds_job ejecting up job
  rcases ends with rfl | ⟨rfl, cancel⟩
  · rw [effect]
    exact endJob_ended up job.printer job.current job.busy
  · simp only [effect, cancel, if_true, reduceCtorEq, if_false]
    exact endJob_ended (e := ejectedEngine (s.pru.engines.get p)) up job.printer job.current job.busy

/-- Any other changes no job. -/
theorem ejectEnds_stays (stays : ¬(why = .finish ∨ why = .turn ∧ j.cancel = true)) :
    ejectEnds p s = withEngine p (ejectedEngine (s.pru.engines.get p)) s := by
  rw [ejectEnds_job ejecting up job]
  cases why with
  | finish => exact absurd (.inl rfl) stays
  | turn => exact if_neg fun cancel => stays (.inr ⟨rfl, cancel⟩)
  | _ => rfl

end

end

end Sys2Proof.Machine

open Sys2Proof Sys2Proof.Machine

/-- Settles O50: the write by its purpose and what was read back (`stripeWriteEnds_job`), the eject by whether it ends the job
(`ejectEnds_ends`, `ejectEnds_stays`). -/
theorem stripeWritesAreVerifiedAndBooksEjected : Obligations.StripeWritesAreVerifiedAndBooksEjected := by
  unfold Obligations.StripeWritesAreVerifiedAndBooksEjected
  refine ⟨fun p s => ?_, fun p i j s => ?_⟩
  · intro e taken
    exact ⟨fun bytes quiet => ofMechanism_idle rfl taken (stripeWriteEnds_idle quiet bytes) rfl,
      fun quiet => ofMechanism_idle rfl taken (ejectEnds_idle quiet) rfl, fun why ejecting quiet =>
      ofMechanism_quiet rfl taken (ejectEnds_shut ejecting quiet) (asksForJob_of_jobs rfl) rfl⟩
  · intro e up job pru
    refine ⟨fun why second bytes writing => ?_, fun why ejecting => ?_⟩
    · have effect := stripeWriteEnds_job up job writing bytes
      refine ⟨stripeWriteEnds p bytes s, ofMechanism_quiet rfl (takenAt_one pru) rfl
        (stripeWriteEnds_asksNothing up job writing bytes) rfl, (stripeWriteEnds_frame p bytes s).mono (by decide), ?_⟩
      generalize stripeWriteEnds p bytes s = t at effect ⊢
      dsimp only
      by_cases verified : bytes = some (stripeOf j)
      · rw [if_pos verified] at effect
        subst effect
        rw [stripeOf] at verified
        rw [if_pos verified]
        cases why with
        | finish => exact moveJob_jobMoved p _ i j .ejecting s
        | turn =>
          rw [stripeWritten, raiseAttention, raiseAt_up _ _ (by exact up)]
          exact ⟨rfl, rfl, rfl⟩
        | retry =>
          by_cases cancel : j.cancel = true
          · simp only [stripeWritten, if_pos cancel]
            exact moveJob_jobMoved p _ i { j with outcome := some (.partly .cancelled) } .ejecting s
          · simp only [stripeWritten, if_neg cancel]
            exact stripeWritten_retry up
      · rw [if_neg verified] at effect
        rw [stripeOf] at verified
        rw [if_neg verified]
        cases second with
        | false => exact effect ▸ ⟨rfl, rfl, rfl⟩
        | true =>
          rw [effect]
          exact moveJob_jobMoved p _ i { j with outcome := some (.partly .stripeNotWritten) } .ejecting s
    · intro ends
      have here : s.pru.jobs.get i = some j := job.slot.1
      have frame := ejectEnds_frame p s
      refine ⟨fun ending busy => ?_, fun plu => ?_⟩
      · obtain ⟨u, ended, effect⟩ := ejectEnds_ends ejecting up job ending
        refine ofMechanism_waits rfl up busy (.inl (asksForJob_of_ended here ?_))
        change (ejectEnds p s).pru.jobs.get i = none
        rw [effect]
        exact ended.startNext_slot p
      · refine ⟨ejectEnds p s, ofMechanism_served (ends := ends) rfl pru rfl (fun stays => ?_) plu, frame, ?_⟩
        · have effect : eventEffect (.ejectDone p) s = _ := ejectEnds_stays ejecting up job stays
          rw [effect]
          exact asksForJob_of_jobs rfl
        · intro out Ends
          by_cases ending : ends
          · obtain ⟨u, ended, effect⟩ := ejectEnds_ends ejecting up job ending
            rcases ending with rfl | ⟨rfl, cancel⟩
            · intro o (outcome : j.outcome = some o)
              rw [if_pos rfl, outcome] at ended
              exact ⟨u, ended, effect⟩
            · simp only [if_pos cancel]
              exact ⟨u, ended, effect⟩
          · have effect := ejectEnds_stays ejecting up job ending
            have quiet : (ejectEnds p s).pru = _ ∧ UnchangedBut [.pru] s (ejectEnds p s) :=
              ⟨congrArg State.pru effect, effect ▸ withEngine_frame p _ s⟩
            cases why with
            | finish => exact absurd (.inl rfl) ending
            | turn =>
              have kept : ¬j.cancel = true := fun cancel => ending (.inr ⟨rfl, cancel⟩)
              simp only [if_neg kept]
              exact quiet
            | _ => exact quiet
end

section
/-! SUPPORT. A book pulled from its sensor (R129), and a jam (R130). -/

namespace Sys2Proof.Machine

section
variable {s : State} {p : PrinterNo}

/-- An engine whose book has been pulled. -/
def pulledEngine (e : Engine) : Engine := { e with motion := .still, inFeed := false, present := false }

/-! ### A book pulled (R129) -/

theorem bookLeaves_absent (h : (s.pru.engines.get p).present = false) : bookLeaves p s = s :=
  if_neg (by rw [engineOf, h]; simp)

section
variable (present : (s.pru.engines.get p).present = true)
include present

/-- Without a current job, or once the store is shut, a removal is only seen. -/
theorem bookLeaves_seen (h : s.power ≠ .up ∨ (s.pru.engines.get p).current = none) :
    bookLeaves p s = withEngine p (pulledEngine (s.pru.engines.get p)) s := by
  have seen : (engineOf s p).present = true := present
  simp only [bookLeaves, if_pos seen, modifyEngine_eq, withEngine_power]
  split
  next up job =>
    have idle : (s.pru.engines.get p).current = none := h.resolve_left (not_not.mpr up)
    rw [currentJob_withEngine (by rfl), currentJob_none idle] at job
    exact absurd job (Option.some_ne_none _).symm
  next => rfl

variable {i : Fin 16} {j : Job} (up : s.power = .up) (job : CurrentJob s p i j)
include up job

theorem bookLeaves_job : bookLeaves p s =
    bookPulled (s.pru.engines.get p).motion i j (withEngine p (pulledEngine (s.pru.engines.get p)) s) := by
  have seen : (engineOf s p).present = true := present
  simp only [bookLeaves, if_pos seen, modifyEngine_eq, withEngine_power, up,
    currentJob_withEngine (e := { s.pru.engines.get p with present := false, inFeed := false, motion := .still }) rfl,
    currentJob_eq job]
  rfl

theorem bookLeaves_reading (reading : j.state = .reading) : JobMoved s (bookLeaves p s) p
    (pulledEngine (s.pru.engines.get p)) i { j with state := .awaitingBook } (attention s j .insertBook j.attempts) := by
  simp only [bookLeaves_job present up job, bookPulled, reading]
  exact moveJob_prompted p _ i j .awaitingBook .insertBook up

/-- A job that prints, turns its page, writes its stripe or is ejected ends. -/
theorem bookLeaves_ends (ends : j.state = .printing ∨ j.state = .writingStripe ∨ j.state = .ejecting ∨
      j.state = .turnPage ∧ turning (s.pru.engines.get p).motion = true) :
    ∃ u, JobEnded s u i j (if j.state = .ejecting then j.outcome.getD .done else .partly .bookPulled)
        (freedEngine (pulledEngine (s.pru.engines.get p)) j) ∧ bookLeaves p s = startNext p u := by
  have ended (o : JobEnd) := endJob_ended (i := i) (o := o) (e := pulledEngine (s.pru.engines.get p)) up job.printer
    job.current job.busy
  rw [bookLeaves_job present up job, bookPulled]
  rcases ends with state | state | state | ⟨state, turns⟩
  · simpa only [state, reduceCtorEq, if_false] using ended _
  · simpa only [state, reduceCtorEq, if_false] using ended _
  · simpa only [state, if_true] using ended _
  · simpa only [state, turns, reduceCtorEq, if_false, if_true] using ended _

/-- One that waits for a book, or whose page has been turned, does not. -/
theorem bookLeaves_waits (stays : ¬(j.state = .printing ∨ j.state = .writingStripe ∨ j.state = .ejecting ∨
      j.state = .turnPage ∧ turning (s.pru.engines.get p).motion = true)) (other : j.state ≠ .reading) :
    bookLeaves p s = withEngine p (pulledEngine (s.pru.engines.get p)) s := by
  rw [bookLeaves_job present up job, bookPulled]
  split
  · exact absurd ‹_› other
  · exact absurd (.inl ‹_›) stays
  · exact if_neg fun turns => stays (.inr (.inr (.inr ⟨‹_›, turns⟩)))
  · exact absurd (.inr (.inl ‹_›)) stays
  · exact absurd (.inr (.inr (.inl ‹_›))) stays
  · rfl

end

/-- The slot of a job that has ended is empty. -/
theorem JobEnded.slot {s u : State} {i : Fin 16} {j : Job} {o : JobEnd} {e : Engine} (h : JobEnded s u i j o e) :
    u.pru.jobs.get i = none := by
  obtain ⟨-, -, -, pru, -⟩ := h
  rw [pru]
  exact Table.get_set_self ..

/-! ### A jam (R130) -/

theorem jamTimesOut_idle (h : s.power ≠ .up ∨ (s.pru.engines.get p).motion ≠ .headReturn) : jamTimesOut p s = s :=
  if_neg fun ⟨up, returning⟩ => h.elim (· up) (· returning)

theorem jamTimesOut_none (h : (s.pru.engines.get p).current = none) : jamTimesOut p s = s := by
  simp only [jamTimesOut, currentJob_none h]
  split <;> rfl

/-- The engine of a printer that has jammed. -/
def jammedEngine (e : Engine) : Engine := { e with state := .outOfService, current := none, motion := .still }

variable {i : Fin 16} {j : Job} (up : s.power = .up) (job : CurrentJob s p i j)
  (returning : (s.pru.engines.get p).motion = .headReturn)
include up job returning

/-- A jam ends the job at a printer that starts nothing, captures the fault and prompts. -/
theorem jamTimesOut_job : ∃ u, JobEnded s u i j (.aborted .jam) { jammedEngine (s.pru.engines.get p) with
      queue := (s.pru.engines.get p).queue.filter (· != j.id) } ∧
    jamTimesOut p s = raiseAttention .outOfService j
      (captureFault .printerJam .pru [.num (printerPlace p), .num j.id] u) := by
  let v : State := withEngine p (jammedEngine (s.pru.engines.get p)) s
  have engine : v.pru.engines.get j.printer = jammedEngine (s.pru.engines.get p) := by
    rw [job.printer]
    exact engineOf_withEngine ..
  have ended := endedState_jobEnded (i := i) (j := j) (o := .aborted .jam) (s := v) up
  rw [engine] at ended
  have stays : endJob i j (.aborted .jam) v = endedState i j (.aborted .jam) v := by
    rw [endJob_eq, endedState_busy (s := v) up, engine]
    exact if_neg fun busy => EngineState.noConfusion busy.2
  have runs : s.power = .up ∧ (engineOf s p).motion = .headReturn := ⟨up, returning⟩
  refine ⟨_, ended.ofEngine job.printer, ?_⟩
  rw [← stays]
  simp only [jamTimesOut, if_pos runs, currentJob_eq job, jam, modifyEngine_eq]
  rfl

end

/-- The fault captured and the two notices, beside the state in which the job has ended. -/
theorem jam_told {s u : State} {i : Fin 16} {j : Job} {o : JobEnd} {e : Engine} (up : s.power = .up)
    (ended : JobEnded s u i j o e) (l : List Item) :
    let t := raiseAttention .outOfService j (captureFault .printerJam .pru l u)
    t.pru = u.pru ∧ t.store = u.store ∧ t.scu = u.scu ∧
      t.port.fault = (if s.port.fault.held then { s.port.fault with lost := min 15 (s.port.fault.lost + 1) }
        else ⟨true, .printerJam, .pru, l, s.clock.day, s.clock.seconds, s.port.fault.lost⟩) ∧
      t.port.windows = notify ((officerMaster, .fault .printerJam .pru l) :: attention s j .outOfService j.attempts)
        u.port.windows := by
  obtain ⟨frame, -, -, -, -⟩ := ended
  have upEnded : u.power = .up := (frame.get .power (by decide)).trans up
  have fault : u.port.fault = s.port.fault := frame.get .fault (by decide)
  have clock : u.clock = s.clock := frame.get .clock (by decide)
  have positions : u.store.positions = s.store.positions := frame.get .positions (by decide)
  rw [raiseAttention, raiseAt_up _ _ ((captureFault_power ..).trans upEnded), captureFault,
    raiseOfficer_up _ (by exact upEnded), fault, clock, ← attention_congr positions]
  exact ⟨rfl, rfl, rfl, rfl, rfl⟩

end Sys2Proof.Machine

open Sys2Proof Sys2Proof.Machine

/-- Settles O51: the pulled book by whether it ends the job (`bookLeaves_ends`, `bookLeaves_waits`), the jam by
`jamTimesOut_job`. -/
theorem pulledBooksAndJams : Obligations.PulledBooksAndJams := by
  unfold Obligations.PulledBooksAndJams
  refine ⟨fun p s => ?_, fun p i j s => ?_⟩
  · intro e taken quiet
    refine ⟨fun absent => ofMechanism_idle rfl taken (bookLeaves_absent absent) rfl, fun present =>
      ofMechanism_quiet rfl taken (bookLeaves_seen present quiet) (asksForJob_of_jobs rfl) rfl,
      ofMechanism_idle rfl taken ?_ rfl⟩
    exact quiet.elim (fun down => jamTimesOut_idle (.inl down)) jamTimesOut_none
  · intro e ends up job pru
    have here : s.pru.jobs.get i = some j := job.slot.1
    have taken : TakenAt s [.pru] := takenAt_one pru
    refine ⟨fun present ending busy => ?_, fun returning busy => ?_, fun absent => ?_, fun present plu => ?_, fun still => ?_,
      fun returning plu => ?_⟩
    · obtain ⟨u, ended, effect⟩ := bookLeaves_ends present up job ending
      refine ofMechanism_waits rfl up busy (.inl (asksForJob_of_ended here ?_))
      change (bookLeaves p s).pru.jobs.get i = none
      rw [effect]
      exact ended.startNext_slot p
    · obtain ⟨u, ended, effect⟩ := jamTimesOut_job up job returning
      obtain ⟨jobs, -, -, -, -⟩ := jam_told up ended [.num (printerPlace p), .num j.id]
      refine ofMechanism_waits rfl up busy (.inl (asksForJob_of_ended here ?_))
      change (jamTimesOut p s).pru.jobs.get i = none
      rw [effect, jobs]
      exact ended.slot
    · exact ofMechanism_idle rfl taken (bookLeaves_absent absent) rfl
    · have frame := bookLeaves_frame p s
      have asks (stays : ¬ends) : asksForJob s (eventEffect (.bookRemoved p) s) = false := by
        change asksForJob s (bookLeaves p s) = false
        by_cases reading : j.state = .reading
        · exact (bookLeaves_reading present up job reading).asksNothing here rfl
        · rw [bookLeaves_waits present up job stays reading]
          exact asksForJob_of_jobs rfl
      refine ⟨bookLeaves p s, ofMechanism_served rfl pru rfl asks plu, frame, ?_⟩
      intro out Ends Waits
      have waits (stays : ¬ends) (other : j.state ≠ .reading) : Waits := by
        have effect := bookLeaves_waits present up job stays other
        exact ⟨effect ▸ withEngine_frame p _ s, congrArg State.pru effect⟩
      have finished (ending : ends) : Ends (if j.state = .ejecting then j.outcome.getD .done else .partly .bookPulled) :=
        bookLeaves_ends present up job ending
      split
      next state => exact bookLeaves_reading present up job state
      next state =>
        have told := finished (.inl state)
        rwa [if_neg (by simp [state])] at told
      next state =>
        have told := finished (.inr (.inl state))
        rwa [if_neg (by simp [state])] at told
      next state =>
        by_cases turns : turning e.motion = true
        · have told := finished (.inr (.inr (.inr ⟨state, turns⟩)))
          rw [if_neg (by simp [state])] at told
          rwa [if_pos turns]
        · rw [if_neg turns]
          exact waits (by simp [ends, state, turns]) (by simp [state])
      next state =>
        intro o (outcome : j.outcome = some o)
        have told := finished (.inr (.inr (.inl state)))
        rwa [if_pos state, outcome] at told
      next reading printing writing turns ejecting =>
        exact waits (fun ending => ending.elim printing fun ending => ending.elim writing fun ending =>
          ending.elim ejecting fun ending => turns ending.1) reading
    · exact ofMechanism_idle rfl taken (jamTimesOut_idle (.inr still)) rfl
    · obtain ⟨u, ended, effect⟩ := jamTimesOut_job up job returning
      have told := jam_told up ended [.num (printerPlace p), .num j.id]
      exact ⟨jamTimesOut p s, u, ofMechanism_taken rfl pru plu, jamTimesOut_frame p s, ended, effect ▸ told⟩
end

section
/-! SUPPORT. How a job goes on once its next item and its next position are known (R124, R126, R127): done, a line, a page turn,
the book full. -/

namespace Sys2Proof.Machine

/-! ### A line begun (R126) -/

/-- The job PRINTING, which it may be already. -/
def nowPrinting (i : Fin 16) (k : Job) (v : State) : State :=
  if k.state = .printing then v else moveJob i k .printing v

/-- The state in which a line is begun: the job PRINTING, the staged pace applied. -/
def begunLine (p : PrinterNo) (i : Fin 16) (k : Job) (v : State) : State :=
  setJob i { k with state := .printing } (applyPace p (nowPrinting i k v))

section
variable (p : PrinterNo) (i : Fin 16) (k : Job) (v : State)

theorem nowPrinting_frame : UnchangedBut [.pru, .buffers, .screens, .inExecution] v (nowPrinting i k v) := by
  unfold nowPrinting
  split
  · exact UnchangedBut.refl _ v
  · exact moveJob_frame i k .printing v

theorem nowPrinting_store : (nowPrinting i k v).store = v.store := by
  unfold nowPrinting
  split
  · rfl
  · exact moveJob_store ..

theorem nowPrinting_rendered : Rendered v.scu (nowPrinting i k v).scu := by
  unfold nowPrinting
  split
  · exact .refl _
  · exact setNote_rendered k (.live .printing) (setJob i { k with state := .printing } v)

theorem nowPrinting_pru : { (nowPrinting i k v).pru with
      jobs := (nowPrinting i k v).pru.jobs.set i (some { k with state := .printing }) } = { v.pru with
    jobs := v.pru.jobs.set i (some { k with state := .printing })
    notes := if k.state = .printing then v.pru.notes else notedAs v k (.live .printing) } := by
  unfold nowPrinting
  split
  · rfl
  · rw [moveJob, setNote_pru]
    simp only [setJob, Table.set_set]
    rfl

theorem begunLine_frame : UnchangedBut [.pru, .pacing, .buffers, .screens, .inExecution] v (begunLine p i k v) :=
  setJob_unchanged _ _ (by decide) (applyPace_unchanged _ (by decide) ((nowPrinting_frame i k v).mono (by decide)))

theorem begunLine_rendered : Rendered v.scu (begunLine p i k v).scu := nowPrinting_rendered i k v

theorem begunLine_pru : (begunLine p i k v).pru = { v.pru with
    jobs := v.pru.jobs.set i (some { k with state := .printing })
    notes := if k.state = .printing then v.pru.notes else notedAs v k (.live .printing) } :=
  nowPrinting_pru i k v

theorem begunLine_pacing : (begunLine p i k v).store.pacing =
    v.store.pacing.set p ⟨(v.store.pacing.get p).staged, (v.store.pacing.get p).staged⟩ := by
  change (nowPrinting i k v).store.pacing.modify p (fun x => { x with applied := x.staged }) = _
  rw [nowPrinting_store]
  rfl

/-- The next line of a job with items left and a line below 21. -/
theorem proceed_line {items : List PrintItem} {page line : Nat} (left : items ≠ []) (low : line < 21)
    (snapshot : k.snapshot = some items) (next : k.next = some (page, line)) : proceed p i k v =
      let t := begunLine p i k v
      let position := linePosition (v.store.pacing.get p).staged (k.edge.getD 0) line
      if Config.maxTravel < position then takeBad p i { k with state := .printing } .beyondTravel t
      else modifyEngine p (fun e => { e with bookPosition := position, motion := .line }) t := by
  have pace : (paceOf (begunLine p i k v) p).applied = (v.store.pacing.get p).staged := by
    rw [paceOf, begunLine_pacing, Table.get_set_self]
  have more : ¬items.isEmpty = true := by simpa using left
  dsimp only
  rw [← pace]
  simp only [proceed, snapshot, next, Option.getD_some, if_neg more, if_pos low, beginLine, begunLine, nowPrinting]

end

theorem clearBook_scu (p : PrinterNo) (s : State) : (clearBook p s).scu = s.scu := by
  unfold clearBook
  split <;> rfl

/-! ### The cases that R124, R127 and R128 share -/

section
variable {s w : State} (same : UnchangedBut [.accounts] s w)
include same

theorem scu_of_accounts : w.scu = s.scu := by
  have buffers : w.scu.buffers = s.scu.buffers := same.get .buffers (by decide)
  have screens : w.scu.screens = s.scu.screens := same.get .screens (by decide)
  have timeout : w.scu.idleTimeout = s.scu.idleTimeout := same.get .idleTimeout (by decide)
  have text : w.scu.lockText = s.scu.lockText := same.get .lockText (by decide)
  cases h : w.scu
  simp_all

variable (p : PrinterNo) (e : Engine) (i : Fin 16) (k : Job)

/-- A job's move over a table of accounts that has changed. -/
theorem moveJob_onAccounts (x : JobState) :
    let t := moveJob i k x (withEngine p e w)
    JobMoved s t p e i { k with state := x } [] ∧ t.store.pacing = s.store.pacing ∧ t.store.accounts = w.store.accounts := by
  have pacing : w.store.pacing = s.store.pacing := same.get .pacing (by decide)
  have store := moveJob_store i k x (withEngine p e w)
  exact ⟨(moveJob_jobMoved p e i k x w).congr (scu_of_accounts same) (same.get .pru (by decide))
    (same.get .windows (by decide)), (congrArg Store.pacing store).trans pacing, congrArg Store.accounts store⟩

/-- The stripe written at a job's end. -/
theorem beginStripe_onAccounts (o : JobEnd) :
    let t := beginStripe p i k o (withEngine p e w)
    JobMoved s t p { e with motion := .write .finish false } i { k with state := .writingStripe, outcome := some o } [] ∧
      t.store.pacing = s.store.pacing ∧ t.store.accounts = w.store.accounts := by
  rw [beginStripe, setMotion_withEngine]
  exact moveJob_onAccounts same p _ i { k with outcome := some o } .writingStripe

/-- The notes as a job's line begins. -/
def printingNotes (s : State) (k : Job) : Table (Option JobNote) 12 :=
  if k.state = .printing then s.pru.notes else notedAs s k (.live .printing)

theorem begunLine_onAccounts : (begunLine p i k (withEngine p e w)).pru =
    withJob s p e i (some { k with state := .printing }) (printingNotes s k) := by
  have pru : w.pru = s.pru := same.get .pru (by decide)
  rw [begunLine_pru]
  simp only [withEngine, notedAs, pru]
  rfl

/-- A misfeed beyond the travel (R125, R126). -/
theorem beyondTravel_onAccounts (up : s.power = .up) (own : k.printer = p) (current : e.current = some k.id)
    (busy : e.state = .busy) : let still : Engine := { e with motion := .still }
    let printing : Job := { k with state := .printing }
    let t := takeBad p i printing .beyondTravel (begunLine p i k (withEngine p still w))
    Rendered s.scu t.scu ∧ if k.attempts = 0 then t.pru = withJob s p { e with motion := .write .retry false } i
        (some { printing with attempts := 1 }) (printingNotes s k) ∧
      t.port.windows = s.port.windows ∧ t.store.accounts = w.store.accounts
    else ∃ v u, UnchangedBut [.accounts, .pru, .pacing, .buffers, .screens, .inExecution] s v ∧
      v.store.accounts = w.store.accounts ∧ v.pru = withJob s p e i (some printing) (printingNotes s k) ∧
      JobEnded v u i { printing with attempts := 2 } (.aborted .misfeed) (freedEngine still k) ∧
      t = clearBook p (startNext p u) := by
  intro still printing t
  let b : State := begunLine p i k (withEngine p still w)
  have frame : UnchangedBut [.accounts, .pru, .pacing, .buffers, .screens, .inExecution] s b :=
    ((same.mono (by decide)).trans ((withEngine_frame p still w).mono (by decide))).trans
      ((begunLine_frame p i k (withEngine p still w)).mono (by decide))
  have accounts : b.store.accounts = w.store.accounts :=
    (begunLine_frame p i k (withEngine p still w)).get .accounts (by decide)
  have pru : b.pru = withJob s p still i (some printing) (printingNotes s k) := begunLine_onAccounts same p still i k
  have engine : b.pru.engines.get p = still := by rw [pru]; exact Table.get_set_self ..
  have rendered : Rendered s.scu b.scu := scu_of_accounts same ▸ begunLine_rendered p i k (withEngine p still w)
  by_cases first : k.attempts = 0
  · have written : t = setJob i { printing with attempts := 1 } (withEngine p { e with motion := .write .retry false } b) := by
      simp only [t, takeBad, printing, first, setMotion_eq]
      rw [engine]
      rfl
    rw [if_pos first, written]
    refine ⟨rendered, ?_, frame.get .windows (by decide), accounts⟩
    simp only [setJob, withEngine, pru, withJob, Table.set_set]
  · have again : setMotion p .still b = withEngine p still (withEngine p e b) := by
      rw [setMotion_eq, engine, withEngine_withEngine]
    have upBegun : b.power = .up := (frame.get .power (by decide)).trans up
    obtain ⟨u, ended, next⟩ := endJob_ended (s := withEngine p e b) (i := i)
      (j := { printing with attempts := k.attempts + 1 }) (o := .aborted .misfeed) (e := still) upBegun own current busy
    have taken : t = clearBook p (startNext p u) := by
      have twice : 2 ≤ k.attempts + 1 := by omega
      simp only [t, takeBad, printing, if_pos twice]
      exact congrArg (clearBook p) ((congrArg _ again).trans next)
    rw [if_neg first]
    refine ⟨?_, withEngine p e b, u, frame.trans ((withEngine_frame p e b).mono (by decide)), accounts, ?_, ended, taken⟩
    · obtain ⟨-, renderedEnd, -, -, -⟩ := ended
      rw [taken, clearBook_scu]
      exact (rendered.trans renderedEnd).trans (startNext_rendered p u)
    · simp only [withEngine, pru, withJob, Table.set_set]

end

section
variable {s t : State} {p : PrinterNo} {i : Fin 16} {j : Job} {items : List PrintItem} {page line : Nat}

theorem proceed_goesOn {w : State} (same : UnchangedBut [.accounts] s w) (up : s.power = .up) (job : CurrentJob s p i j) :
    GoesOn s (proceed p i { j with snapshot := some items, next := some (page, line) }
      (withEngine p { s.pru.engines.get p with motion := .still } w)) p i j items page line w.store.accounts := by
  let e : Engine := s.pru.engines.get p
  let k : Job := { j with snapshot := some items, next := some (page, line) }
  let v : State := withEngine p { e with motion := .still } w
  have pacing : v.store.pacing = s.store.pacing := same.get .pacing (by decide)
  unfold GoesOn
  intro e' k' pace position paced notes printing
  by_cases finished : items = []
  · have done : proceed p i k v = beginStripe p i k .done v := by
      simp only [proceed, k, finished, Option.getD_some, List.isEmpty_nil, if_true]
    rw [if_pos finished]
    exact done ▸ beginStripe_onAccounts same p { e with motion := .still } i k .done
  rw [if_neg finished]
  have more : ¬items.isEmpty = true := by simpa using finished
  by_cases low : line < 21
  · have next := proceed_line p i k v finished low rfl rfl
    rw [pacing] at next
    have applied : (begunLine p i k v).store.pacing = paced := by rw [begunLine_pacing, pacing]
    rw [if_pos low]
    by_cases beyond : 1500 < position
    · have bad : proceed p i k v = takeBad p i { k with state := .printing } .beyondTravel (begunLine p i k v) :=
        next.trans (if_pos beyond)
      obtain ⟨rendered, told⟩ := beyondTravel_onAccounts same p e i k up job.printer job.current job.busy
      rw [bad, if_neg (Nat.not_le.mpr beyond)]
      have frame := takeBad_frame p i { k with state := .printing } .beyondTravel (begunLine p i k v)
      exact ⟨(frame.get .pacing (by decide)).trans applied, rendered, told⟩
    · have prints : proceed p i k v = modifyEngine p (fun x => { x with bookPosition := position, motion := .line })
          (begunLine p i k v) := next.trans (if_neg beyond)
      have pru := begunLine_onAccounts same p { e with motion := .still } i k
      rw [prints, if_pos (Nat.not_lt.mp beyond)]
      refine ⟨applied, scu_of_accounts same ▸ begunLine_rendered p i k v, ?_, ?_, ?_⟩
      · have begun : (begunLine p i k v).pru = withJob s p { e with motion := .still } i (some printing) notes := pru
        rw [modifyEngine_eq]
        simp only [withEngine, begun, withJob, Table.get_set_self, Table.set_set]
        rfl
      · exact ((begunLine_frame p i k v).get .windows (by decide)).trans (same.get .windows (by decide))
      · exact (begunLine_frame p i k v).get .accounts (by decide)
  rw [if_neg low]
  by_cases turns : page < 12
  · have turn : proceed p i k v = moveJob i { k with next := some (page + 1, 1) } .turnPage
        (withEngine p { e with motion := .write .turn false } w) := by
      simp only [proceed, k, Option.getD_some, if_neg more, if_neg low, if_pos turns, beginTurn, v, setMotion_withEngine]
    rw [if_pos turns]
    exact turn ▸ moveJob_onAccounts same p _ i { k with next := some (page + 1, 1) } .turnPage
  · have full : proceed p i k v = raiseAttention .bookFull k (beginStripe p i k (.partly .bookFull) v) := by
      simp only [proceed, k, Option.getD_some, if_neg more, if_neg low, if_neg turns]
    obtain ⟨moved, pace, accounts⟩ := beginStripe_onAccounts same p { e with motion := .still } i k (.partly .bookFull)
    have frame := beginStripe_frame p i k (.partly .bookFull) v
    have upWritten : (beginStripe p i k (.partly .bookFull) v).power = .up :=
      ((frame.get .power (by decide)).trans (same.get .power (by decide))).trans up
    have positions := (frame.get .positions (by decide)).trans (same.get .positions (by decide))
    rw [if_neg turns, full]
    exact ⟨moved.prompt upWritten positions .bookFull k, (congrArg Store.pacing (raiseTo_store ..)).trans pace,
      (congrArg Store.accounts (raiseTo_store ..)).trans accounts⟩

end

end Sys2Proof.Machine
end

section
/-! SUPPORT. A line done, and the head home (R108, R126, R127). -/

namespace Sys2Proof.Machine

/-! ### What a job that goes on holds -/

theorem JobMoved.slot {s t : State} {p : PrinterNo} {e : Engine} {i : Fin 16} {k : Job} {l : List (Master × Detail)}
    (h : JobMoved s t p e i k l) : t.pru.jobs.get i = some k := by
  obtain ⟨-, pru, -⟩ := h
  rw [pru]
  exact Table.get_set_self ..

/-- A job that goes on holds the items left, or has ended. -/
theorem GoesOn.snapshot {s t : State} {p : PrinterNo} {i : Fin 16} {j k : Job} {items : List PrintItem} {page line : Nat}
    {accounts : Table (Option Account) 64} (h : GoesOn s t p i j items page line accounts)
    (slot : t.pru.jobs.get i = some k) : k.snapshot = some items := by
  have moved {e : Engine} {x : Job} {l : List (Master × Detail)} (m : JobMoved s t p e i x l)
      (same : x.snapshot = some items) : k.snapshot = some items :=
    Option.some.inj (m.slot.symm.trans slot) ▸ same
  have written {e : Engine} {x : Job} {n : Table (Option JobNote) 12} (pru : t.pru = withJob s p e i (some x) n)
      (same : x.snapshot = some items) : k.snapshot = some items := by
    rw [pru] at slot
    exact Option.some.inj ((Table.get_set_self ..).symm.trans slot) ▸ same
  unfold GoesOn at h
  extract_lets at h
  split at h
  next =>
    obtain ⟨m, -, -⟩ := h
    exact moved m rfl
  split at h
  next =>
    obtain ⟨-, -, h⟩ := h
    split at h
    next =>
      obtain ⟨pru, -, -⟩ := h
      exact written pru rfl
    split at h
    next =>
      obtain ⟨pru, -, -⟩ := h
      exact written pru rfl
    next =>
      obtain ⟨v, u, -, -, -, ended, rfl⟩ := h
      rw [clearBook_jobs, ended.startNext_slot p] at slot
      exact absurd slot.symm (Option.some_ne_none k)
  split at h
  next =>
    obtain ⟨m, -, -⟩ := h
    exact moved m rfl
  next =>
    obtain ⟨m, -, -⟩ := h
    exact moved m rfl

/-! ### The report of a printed item (R108) -/

/-- An account's entry once an item of it stands printed at a page and line. -/
def printedEntry (item : PrintItem) (page line : Nat) (a : Account) : Account :=
  { (match item with
    | .summary _ => { a with taken := none }
    | .line l => { a with lines := a.lines.eraseP fun x => x.key == l.key } : Account) with
    printed := some (page, line)
    newBook := false }

theorem reportPrinted_first {s : State} {number : Nat} {k : Fin 64} {a : Account}
    (first : FirstWith s.store.accounts (fun x => x.number = number) k a) (item : PrintItem) (page line : Nat) :
    reportPrinted number item page line s = setAccount k (touch s (printedEntry item page line a)) s := by
  rw [reportPrinted, changeAccount_first first]
  cases item <;> rfl

section
variable {s : State} {p : PrinterNo}

/-! ### A line done (R126) -/

theorem lineEnds_idle (h : (s.pru.engines.get p).motion ≠ .line) : lineEnds p s = s := if_neg fun ⟨_, prints⟩ => h prints

theorem headArrives_idle (h : (s.pru.engines.get p).motion ≠ .headReturn) : headArrives p s = s :=
  if_neg fun ⟨_, returning⟩ => h returning

variable {i : Fin 16} {j : Job} {item : PrintItem} {rest : List PrintItem} {page line : Nat} (up : s.power = .up)
  (job : CurrentJob s p i j) (snapshot : j.snapshot = some (item :: rest)) (next : j.next = some (page, line))
include up job snapshot next

theorem lineEnds_job (prints : (s.pru.engines.get p).motion = .line) : lineEnds p s =
    emitPrinted p [⟨page, line, printedText item⟩] (withEngine p { s.pru.engines.get p with motion := .headReturn } s) := by
  have runs : s.power = .up ∧ (engineOf s p).motion = .line := ⟨up, prints⟩
  simp only [lineEnds, if_pos runs, lineDone, setMotion_eq,
    currentJob_withEngine (e := { s.pru.engines.get p with motion := .headReturn }) rfl, currentJob_eq job, printedLine,
    snapshot, next]

/-! ### The head home (R108, R127) -/

theorem headArrives_job {k : Fin 64} {a : Account} (returning : (s.pru.engines.get p).motion = .headReturn)
    (first : FirstWith s.store.accounts (fun x => x.number = j.account) k a) : headArrives p s =
      let left : Job := { j with snapshot := some rest, next := some (page, line + 1) }
      let t := withEngine p { s.pru.engines.get p with motion := .still }
        (setAccount k (touch s (printedEntry item page line a)) s)
      if j.cancel then beginStripe p i left (.partly .cancelled) t else proceed p i left t := by
  have runs : s.power = .up ∧ (engineOf s p).motion = .headReturn := ⟨up, returning⟩
  have reported := reportPrinted_first (s := setMotion p .still s) first item page line
  simp only [headArrives, if_pos runs, currentJob_eq job, linePrinted, reportItem, snapshot, next, reported, advanceJob]
  rfl

/-- The item reported, the job writes its stripe for a cancel kept, or goes on with the items left. -/
theorem headArrives_told {k : Fin 64} {a : Account} (returning : (s.pru.engines.get p).motion = .headReturn)
    (first : FirstWith s.store.accounts (fun x => x.number = j.account) k a) :
    let accounts := s.store.accounts.set k (some (touch s (printedEntry item page line a)))
    let t := headArrives p s
    if j.cancel = true then
      t.store.accounts = accounts ∧ t.store.pacing = s.store.pacing ∧
        JobMoved s t p { s.pru.engines.get p with motion := .write .finish false } i { j with
          snapshot := some rest, next := some (page, line + 1), state := .writingStripe,
          outcome := some (.partly .cancelled) } []
    else GoesOn s t p i j rest page (line + 1) accounts := by
  intro accounts t
  have effect := headArrives_job up job snapshot next returning first
  have same := setAccount_frame k (touch s (printedEntry item page line a)) s
  by_cases cancel : j.cancel = true
  · obtain ⟨moved, pacing, written⟩ := beginStripe_onAccounts same p { s.pru.engines.get p with motion := .still } i
      { j with snapshot := some rest, next := some (page, line + 1) } (.partly .cancelled)
    simp only [if_pos cancel] at effect ⊢
    simp only [t, effect]
    exact ⟨written, pacing, moved⟩
  · simp only [if_neg cancel] at effect ⊢
    simp only [t, effect]
    exact proceed_goesOn same up job

/-- The head's coming home takes an item from the job's snapshot, which asks the Passbook Line Unit. -/
theorem headArrives_asks {k : Fin 64} {a : Account} (returning : (s.pru.engines.get p).motion = .headReturn)
    (first : FirstWith s.store.accounts (fun x => x.number = j.account) k a) : asksForJob s (headArrives p s) = true := by
  have told := headArrives_told up job snapshot next returning first
  have less : some rest ≠ some (item :: rest) := fun same => List.cons_ne_self _ _ (Option.some.inj same).symm
  refine asksForJob_of_changed job.slot.1 fun x slot => ?_
  rw [snapshot]
  by_cases cancel : j.cancel = true
  · rw [if_pos cancel] at told
    obtain ⟨-, -, moved⟩ := told
    rw [← Option.some.inj (moved.slot.symm.trans slot)]
    exact less
  · rw [if_neg cancel] at told
    rw [told.snapshot slot]
    exact less

end

end Sys2Proof.Machine

open Sys2Proof Sys2Proof.Machine

/-- Settles O49: a line done by `lineEnds_job`; the head home by `headArrives_job`, with a cancel kept or by
`proceed_goesOn`. -/
theorem linesArePrintedWhenTheHeadIsHome : Obligations.LinesArePrintedWhenTheHeadIsHome := by
  unfold Obligations.LinesArePrintedWhenTheHeadIsHome
  intro p i j k a item rest page line s e up job first snapshot next pru
  have taken : TakenAt s [.pru] := takenAt_one pru
  refine ⟨fun still => ofMechanism_idle rfl taken (lineEnds_idle still) rfl,
    fun still => ofMechanism_idle rfl taken (headArrives_idle still) rfl, fun prints => ?_, fun returning busy => ?_,
    fun returning plu => ?_⟩
  · have effect := lineEnds_job up job snapshot next prints
    refine ⟨lineEnds p s, ofMechanism_quiet rfl taken rfl ?_ rfl, lineEnds_frame p s, ?_⟩
    · rw [effect]
      exact asksForJob_of_jobs rfl
    · rw [effect]
      refine ⟨rfl, ?_⟩
      cases item <;> rfl
  · exact ofMechanism_waits rfl up busy (.inl (headArrives_asks up job snapshot next returning first))
  · have told := headArrives_told up job snapshot next returning first
    exact ⟨headArrives p s, ofMechanism_taken rfl pru plu, headArrives_frame p s, by cases item <;> exact told⟩
end

section
/-! SUPPORT. A stripe read: where a job starts, its snapshot, and a reinsertion (R107, R123, R124, R128). -/

namespace Sys2Proof.Machine

section
variable {s : State} {p : PrinterNo}

theorem stripeReadEnds_idle (h : (s.pru.engines.get p).motion ≠ .read) (bytes : Option (List Byte)) :
    stripeReadEnds p bytes s = s :=
  if_neg fun ⟨_, reads⟩ => h reads

theorem readsEntry_idle (h : (s.pru.engines.get p).motion ≠ .read) (bytes : Option (List Byte)) :
    readsEntry (.stripeReadComplete p bytes) s = false := by
  simp [readsEntry, engineOf, h]

theorem laterPosition_of_lt {a b : Nat × Nat} (h : a.1 < b.1 ∨ a.1 = b.1 ∧ a.2 < b.2) : laterPosition a b = b := if_pos h

theorem laterPosition_of_not_lt {a b : Nat × Nat} (h : ¬(a.1 < b.1 ∨ a.1 = b.1 ∧ a.2 < b.2)) : laterPosition a b = a :=
  if_neg h

theorem laterPosition_samePage (page m n : Nat) : laterPosition (page, m) (page, n) = (page, max n m) := by
  unfold laterPosition
  split <;> simp <;> omega

variable {i : Fin 16} {j : Job} (job : CurrentJob s p i j)
include job

theorem readsEntry_reading {bytes : Option (List Byte)} (reads : (s.pru.engines.get p).motion = .read)
    (reading : j.state = .reading) (named : ∀ d, readStripe bytes = some d → d.account = j.account) :
    readsEntry (.stripeReadComplete p bytes) s = true := by
  have all : (readStripe bytes).all (fun d => d.account == j.account) = true := by
    cases stripe : readStripe bytes with
    | none => rfl
    | some d => simp [named d stripe]
  simp [readsEntry, engineOf, reads, currentJob_eq job, reading, all]

variable (up : s.power = .up)
include up

theorem stripeReadEnds_job (reads : (s.pru.engines.get p).motion = .read) (bytes : Option (List Byte)) :
    stripeReadEnds p bytes s =
      let t := withEngine p { s.pru.engines.get p with motion := .still } s
      if j.state = .turnPage then readAgain p i j (readStripe bytes) t else readFirst p i j (readStripe bytes) t := by
  have runs : s.power = .up ∧ (engineOf s p).motion = .read := ⟨up, reads⟩
  simp only [stripeReadEnds, if_pos runs, stripeRead, setMotion_eq,
    currentJob_withEngine (e := { s.pru.engines.get p with motion := .still }) rfl, currentJob_eq job]

/-! ### A wrong book (R125) -/

theorem takeBad_wrongBook : BadBookTaken s
    (takeBad p i j .wrongBook (withEngine p { s.pru.engines.get p with motion := .still } s)) p i j
    { s.pru.engines.get p with motion := .still } .wrongBook .wrongBook := by
  have bad := takeBad_badBook (i := i) (e := { s.pru.engines.get p with motion := .still }) (b := .wrongBook) up job.printer
    job.current job.busy (by decide)
  exact bad

/-! ### A first insertion (R123, R124) -/

section
variable {k : Fin 64} {a : Account} (first : FirstWith s.store.accounts (fun x => x.number = j.account) k a)
include first

/-- A first insertion whose start position is known goes on with the job's snapshot, taken now if it has none. -/
theorem readFirst_starts {stripe : Option StripeData} {page line : Nat}
    (start : startPosition (withEngine p { s.pru.engines.get p with motion := .still } s) j.account stripe =
      some (page, line)) :
    GoesOn s (readFirst p i j stripe (withEngine p { s.pru.engines.get p with motion := .still } s)) p i j
      (j.snapshot.getD (snapshotItems a)) page line
      (if j.snapshot = none then s.store.accounts.set k (some (touch s (snapshotEntry a))) else s.store.accounts) := by
  let still : Engine := { s.pru.engines.get p with motion := .still }
  cases snapshot : j.snapshot with
  | some items =>
    have next : readFirst p i j stripe (withEngine p still s) =
        proceed p i { j with snapshot := some items, next := some (page, line) } (withEngine p still s) := by
      simp only [readFirst, still, start, takeSnapshot, snapshot]
    exact next ▸ proceed_goesOn (UnchangedBut.refl _ s) up job
  | none =>
    have found : accountSlot (withEngine p still s) j.account = some (k, a) := accountSlot_eq_some.mpr first
    have changed := changeAccount_first (s := withEngine p still s) first snapshotEntry
    have next : readFirst p i j stripe (withEngine p still s) =
        proceed p i { j with snapshot := some (snapshotItems a), next := some (page, line) }
          (withEngine p still (setAccount k (touch s (snapshotEntry a)) s)) := by
      simp only [readFirst, still, start, takeSnapshot, snapshot]
      rw [found, changed]
      rfl
    exact next ▸ proceed_goesOn (setAccount_frame k (touch s (snapshotEntry a)) s) up job

end

/-! ### A reinsertion (R128) -/

theorem readAgain_continues {items : List PrintItem} {page line : Nat} (snapshot : j.snapshot = some items)
    (next : j.next = some (page, line)) {d : StripeData} (own : d.account = j.account) (expected : d.page = page) :
    GoesOn s (readAgain p i j (some d) (withEngine p { s.pru.engines.get p with motion := .still } s)) p i j items page
      (max line d.line) s.store.accounts := by
  have goes : readAgain p i j (some d) (withEngine p { s.pru.engines.get p with motion := .still } s) =
      proceed p i { j with snapshot := some items, next := some (page, max line d.line) }
        (withEngine p { s.pru.engines.get p with motion := .still } s) := by
    simp only [readAgain, next, Option.getD_some, own, expected, and_self, if_true, laterPosition_samePage, ← snapshot]
  exact goes ▸ proceed_goesOn (UnchangedBut.refl _ s) up job

theorem readAgain_otherBook {stripe : Option StripeData} {page line : Nat} (next : j.next = some (page, line))
    (other : ∀ d, stripe = some d → ¬(d.account = j.account ∧ d.page = page)) :
    BadBookTaken s (readAgain p i j stripe (withEngine p { s.pru.engines.get p with motion := .still } s)) p i j
      { s.pru.engines.get p with motion := .still } .wrongBook .wrongBook := by
  cases stripe with
  | none => exact takeBad_wrongBook job up
  | some d =>
    simp only [readAgain, next, Option.getD_some, if_neg (other d rfl)]
    exact takeBad_wrongBook job up

end

/-! ### The start position (R123, R124) -/

section
variable {s : State} {number : Nat} {k : Fin 64} {a : Account}
  (first : FirstWith s.store.accounts (fun x => x.number = number) k a)
include first

theorem startPosition_named {d : StripeData} (own : d.account = number) : startPosition s number (some d) =
    some (a.printed.elim (d.page, d.line) fun n => laterPosition (d.page, d.line) (n.1, n.2 + 1)) := by
  have printed : printedThrough s number = a.printed := by rw [printedThrough, accountSlot_eq_some.mpr first]; rfl
  rw [startPosition, if_pos own, printed]
  cases a.printed <;> rfl

theorem startPosition_unreadable : startPosition s number none = if a.newBook = true then some (1, 1) else none := by
  simp only [startPosition, newBookSet, accountSlot_eq_some.mpr first, Option.elim_some]

end

theorem startPosition_otherBook {s : State} {number : Nat} {d : StripeData} (other : d.account ≠ number) :
    startPosition s number (some d) = none := if_neg other

/-- Without a start position it is a wrong book. -/
theorem readFirst_wrongBook {s : State} {p : PrinterNo} {i : Fin 16} {j : Job} (job : CurrentJob s p i j)
    (up : s.power = .up) {stripe : Option StripeData}
    (start : startPosition (withEngine p { s.pru.engines.get p with motion := .still } s) j.account stripe = none) :
    BadBookTaken s (readFirst p i j stripe (withEngine p { s.pru.engines.get p with motion := .still } s)) p i j
      { s.pru.engines.get p with motion := .still } .wrongBook .wrongBook := by
  simp only [readFirst, start]
  exact takeBad_wrongBook job up

end Sys2Proof.Machine

open Sys2Proof Sys2Proof.Machine

/-- Settles O48: a first insertion by its start position (`readFirst_starts`, `readFirst_wrongBook`), a reinsertion by the
page its stripe names (`readAgain_continues`, `readAgain_otherBook`). -/
theorem stripesDecideWhereAJobStarts : Obligations.StripesDecideWhereAJobStarts := by
  unfold Obligations.StripesDecideWhereAJobStarts
  intro p i j k a bytes s up job first pru e still lt
  refine ⟨fun other => ofMechanism_idle rfl (takenAt_one pru) (stripeReadEnds_idle other bytes) ?_,
    fun reads reading named busy => ofMechanism_waits rfl up busy (.inr (readsEntry_reading job reads reading named)),
    fun reads plu => ⟨stripeReadEnds p bytes s, ofMechanism_taken rfl pru plu, stripeReadEnds_frame p bytes s, ?_, ?_⟩⟩
  · exact readsEntry_idle other bytes
  · intro turn items Starts
    have effect := stripeReadEnds_job job up reads bytes
    simp only [if_neg turn] at effect
    have starts {stripe : Option StripeData} {page line : Nat} (read : readStripe bytes = stripe)
        (start : startPosition (withEngine p still s) j.account stripe = some (page, line)) : Starts page line := by
      have goes := readFirst_starts job up first start
      rw [read] at effect
      rw [← effect] at goes
      exact goes
    have wrong {stripe : Option StripeData} (read : readStripe bytes = stripe)
        (start : startPosition (withEngine p still s) j.account stripe = none) :
        BadBookTaken s (stripeReadEnds p bytes s) p i j still .wrongBook .wrongBook := by
      rw [effect, read]
      exact readFirst_wrongBook job up start
    cases stripe : readStripe bytes with
    | none =>
      have start := startPosition_unreadable (s := withEngine p still s) first
      by_cases newBook : a.newBook = true
      · simp only [if_pos newBook] at start ⊢
        exact starts stripe start
      · simp only [if_neg newBook] at start ⊢
        exact wrong stripe start
    | some d =>
      by_cases own : d.account = j.account
      · have start := startPosition_named (s := withEngine p still s) first own
        simp only [if_neg (not_not.mpr own)]
        cases printed : a.printed with
        | none =>
          rw [printed] at start
          exact starts stripe start
        | some n =>
          rw [printed] at start
          exact ⟨fun before => starts stripe (start.trans (congrArg _ (laterPosition_of_lt before))),
            fun after => starts stripe (start.trans (congrArg _ (laterPosition_of_not_lt after)))⟩
      · simp only [if_pos own]
        exact wrong stripe (startPosition_otherBook own)
  · intro turn items page line snapshot next
    have effect := stripeReadEnds_job job up reads bytes
    simp only [if_pos turn] at effect
    rw [effect]
    cases stripe : readStripe bytes with
    | none => exact readAgain_otherBook job up next (by simp)
    | some d =>
      by_cases expected : d.account = j.account ∧ d.page = page
      · simp only [if_pos expected]
        exact readAgain_continues job up snapshot next expected.1 expected.2
      · simp only [if_neg expected]
        exact readAgain_otherBook job up next fun x same => Option.some.inj same ▸ expected
end
